-- ==== Sys2Proof/Word.lean ====
section
/-! DEFINITION. Word.lean: the buffer's units of data (R5) and the sparse keyed store that every table of the state uses. -/

namespace Sys2Proof

/-- A word: 20 bits, the native unit (R5). -/
abbrev Word := BitVec 20
/-- A duo: 40 bits, word 1 in [39:20] and word 0 in [19:0] (R5). -/
abbrev Duo := BitVec 40
/-- A byte of host data, in ascending order on the data path (R6). -/
abbrev Byte := BitVec 8
/-- A beat: 320 bits, 16 words, 8 duos, 40 bytes (R5). -/
abbrev Beat := BitVec 320
/-- A descriptor: 8 duos in one beat (R79). -/
abbrev Descriptor := BitVec 320
/-- A completion entry: 4 duos (R84). -/
abbrev Completion := BitVec 160
/-- A logical block of 4,096 host bytes; byte k is bits [8k+7:8k] (R5, R6). -/
abbrev Block := BitVec 32768
/-- A frame payload of 4,160 bytes: 4,096 bytes of data below 64 bytes of metadata (R5). -/
abbrev Payload := BitVec 33280
/-- The 416 bytes of LDPC parity of a frame (R5). -/
abbrev Parity := BitVec 3328
/-- A 128-byte page header (R5). -/
abbrev PageHeader := BitVec 1024

/-- Sparse data by key: a list of keys and values whose keys rise strictly. -/
abbrev SMap (α : Type) := List (Nat × α)

end Sys2Proof
end

