-- ==== Sys2Proof/Syntax.lean ====
section
/-! DEFINITION. Syntax.lean: the commands of the block, one constructor for each row of the opcode table, with the
operands the manual's text gives the row: what a requester wrote, what arrived on a port, or what the world outside
the model decided (a decode's outcome, a die's answer, a training's result). -/

namespace Sys2Proof

/-- The management paths (R40); `stranger` is the peer ring from a buffer that is not the group manager. -/
inductive Path where
  | urvan | sb0 | sb1 | peer | stranger
  deriving DecidableEq, Repr

/-- A transaction header without its Op field, reserved fields kept so that the response echoes it unchanged (R47 to R49). -/
structure ReqHeader where
  tag : BitVec 8
  index : BitVec 16
  sub : BitVec 8
  typ : BitVec 4
  rsvd0 : BitVec 2
  offset : BitVec 20
  rsvd1 : BitVec 11
  count : BitVec 9
  deriving DecidableEq, Repr

/-- A received flit but for its payload (R290): its sync header, link control and CRC. -/
structure FlitCtl where
  sync : BitVec 32
  control : BitVec 64
  crc : BitVec 32
  deriving DecidableEq, Repr

/-- A received Idle flit: its control, and the 240 bytes of payload that it carries for nothing but its CRC (R290, R298). -/
structure IdleFlit where
  ctl : FlitCtl
  payload : BitVec 1920
  deriving DecidableEq, Repr

/-- The six beat slots of a received payload flit, and the slot whose beat the next fabric stage finds with bad parity, if one does (R12, R290,
R294). -/
structure FlitBeats where
  slots : List Beat
  parityBad : Option (Fin 6)
  deriving DecidableEq, Repr

/-- The four flits that declare lock at a port: how many of their headers differ from the sync header in one symbol (R291, R295). -/
structure LockFlits where
  port : Fin 3
  syncErrors : Fin 5
  deriving DecidableEq, Repr

/-- A fabric stage that finds a parity mismatch on a beat: its handshake class and its number in the class (R12, R13, R479). -/
structure FabricStage where
  cls : Fin 8
  stage : Fin 4096
  deriving DecidableEq, Repr

/-- A taking of units into a set's open row: which page's beats fail the parity check of stripe assembly, if one does (R12, R127). -/
structure MemberTake where
  set : Fin 8
  parityBad : Option (Fin 16)
  deriving DecidableEq, Repr

/-- What a training run measures of one parameter: for a delay, or a reference, the positions of its sweep that showed no mismatch, bit p for position
or code p (R318, R319); for the duty-cycle code, from −32 up, the mismatches of bits captured on rising and on falling edges at each code (R318). -/
structure Measure where
  pass : BitVec 256
  balance : List (BitVec 21 × BitVec 21)
  deriving DecidableEq, Repr

/-- What a run of a port's step 4 measures of one tap or code: the opening of the lane's eye at each setting from `first` up (R318). -/
structure TapEyes where
  first : Int
  eyes : List (BitVec 16)
  deriving DecidableEq, Repr

/-- The sweep of one lane in a margin measurement (R319, R320): the positions of the coarse pass with no mismatch; the mismatches in 2²⁰ bits at
up to eight positions outward from the first failing position below the passing run, and above it; and the reference offsets, bit 128 being the
middle, with no mismatch at the trained delay. -/
structure LaneSweep where
  pass : BitVec 256
  below : List (BitVec 21)
  above : List (BitVec 21)
  refs : BitVec 256
  deriving DecidableEq, Repr

/-- What training finds on one receive lane (R287, R288): the lane number received in its training frame, if any, whether its
symbols came inverted, and its sweeps, first with the settings trained and then with the stored set. -/
structure LaneResult where
  number : Option (Fin 16)
  inverted : Bool
  sweep : LaneSweep
  storedSweep : LaneSweep
  deriving DecidableEq, Repr

/-- How an operation of the code-flash array ended: it ran to its end with the most pulses given, it failed at its pulse
limit after the given words, or it was stopped after the given words leaving the given bits in the word cut short. -/
inductive CfOutcome where
  | ran (pulses : BitVec 10)
  | failed (words : Nat)
  | stopped (words : Nat) (left : BitVec 26)
  deriving DecidableEq, Repr

/-- How a captured transfer was framed (R224, R225): in the window, with the side on which its edge lay more than 16
steps from G if it did; or mis-framed, `lateOpen` being late on a DQS line that the probe before a retrain finds open (R228). -/
inductive Framing where
  | good (side : Option Bool)
  | early | late | lateOpen | miscount
  deriving DecidableEq, Repr

/-- What a status poll reads (R210 to R212): still busy, ended without or with FAIL, or busy at the timeout poll, with
whether the probe of the chip-enable line finds it open. -/
inductive PollResult where
  | busy | pass | fail
  | timeout (chipOpen : Bool)
  deriving DecidableEq, Repr

/-- How one frame of a member page read for a stripe came out: the ladder step 1 to 3 that resolved it, 0 for none, and the ones count of
its first read (R160, R162). -/
structure PageOutcome where
  position : Fin 48
  frame : Fin 4
  step : Fin 4
  ones : BitVec 16
  deriving DecidableEq, Repr

/-- What a target answers to Read ID and Read Parameter Page (R202): its LUNs, its model, and the geometry of each: planes, pages per block,
bytes per page, blocks per plane. -/
structure TargetPage where
  luns : BitVec 4
  model : Word
  planes : Nat
  pages : Nat
  bytes : Nat
  blocks : Nat
  deriving DecidableEq, Repr

/-- What a channel training finds (R219 to R221, R226): shorted and open lines, what its four targets answer, the runs of steps 5 to 7 (12
fields: eight DqDelay, DqsDelay, RE delay, G, duty code), and the sweeps of its lanes measured with the settings trained and then with the
stored set. -/
structure ChannelResult where
  shorts : BitVec 17
  opens : BitVec 5
  targets : List (Option TargetPage)
  runs : List (List Measure)
  sweeps : List LaneSweep
  storedSweeps : List LaneSweep
  deriving DecidableEq, Repr

/-- What a port training finds (R286 to R289): whether a signal came, the receive lanes, the runs of step 4 (18 fields for each
logical lane), the parameters the partner sent, and a step that did not complete, if any. -/
structure PortResult where
  signal : Bool
  lanes : List LaneResult
  runs : List (List TapEyes)
  creditP : BitVec 12
  creditN : BitVec 12
  stuckStep : Option (Fin 9)
  deriving DecidableEq, Repr

/-- A symbol in error of a DRAM burst: the 16 bits that a component carries in four transfers, and what was added to them (R261). -/
structure SymbolError where
  component : Fin 10
  quarter : Fin 4
  error : BitVec 16
  deriving DecidableEq, Repr

/-- What a DRAM burst brings: the symbols in error of its codeword (R261), or a command-parity mismatch at its pads (R273). -/
inductive BurstRead where
  | symbols (errs : List SymbolError)
  | commandParity
  deriving DecidableEq, Repr

/-- A command to a rank of a sub-channel, 2 its spare half, and whether the CA pad logic finds its parity in disagreement as it is first
driven (R273). -/
structure RankCommand where
  rank : Fin 3
  mismatch : Bool
  deriving DecidableEq, Repr

/-- A burst of a helper run that came back with bits mismatched, before ECC: its place in the run, and bit 16 × k + t for transfer t of lane k
(R279). -/
structure HelperMiss where
  burst : Nat
  bits : BitVec 640
  deriving DecidableEq, Repr

/-- How the ECC of a DRAM burst comes out (R261, R262), or a command-parity mismatch at its pads (R273). -/
inductive BurstCheck where
  | good | corrected | uncorrectable | commandParity
  deriving DecidableEq, Repr

/-- What DRAM training finds on one rank or spare half (R278): whether components answer, the runs of its steps (167 fields), and the
sweeps of its lanes measured with the settings trained and then with the stored set, and the command-parity mismatches met (R273). -/
structure RankResult where
  present : Bool
  runs : List (List Measure)
  sweeps : List LaneSweep
  storedSweeps : List LaneSweep
  mismatches : Nat
  deriving DecidableEq, Repr

/-- Header of a peer packet that arrives (R304, R419, R420): its fields but for Type and Subtype, which the command names, and duo 1. -/
structure PeerHdr where
  byteCount : BitVec 13
  tag : BitVec 8
  status : BitVec 2
  source : BitVec 4
  dest : BitVec 4
  broadcast : Bool
  west : Bool
  hops : BitVec 4
  generation : BitVec 20
  argument : BitVec 32
  duo1 : Duo
  deriving DecidableEq, Repr

/-- The commands of the block, one for each row of the opcode table, in its order; each docstring names the row and its rule. -/
inductive Instr where
  /-- HANDSHAKE_WATCHDOG (R14). -/
  | handshakeWatchdog (cls : Fin 8) (stage : Fin 4096) (pepper : Bool)
  /-- VID_STEP_WAIT_END (R14). -/
  | vidStepWaitEnd
  /-- VID_LOWER (R15). -/
  | vidLower
  /-- STAGE_WEDGED (R482). -/
  | stageWedged (cls : Fin 8) (stage : Fin 4096) (pepper : Bool)
  /-- STAGE_SELF_TEST (R482). -/
  | stageSelfTest (cls : Fin 8) (stage : Fin 4096) (passed : Bool)
  /-- EVENT_COMPLETION_POST (R475). -/
  | eventCompletionPost (ring : Fin 4096)
  /-- ALMANAC_READ (R49). -/
  | almanacRead (p : Path) (r : ReqHeader)
  /-- ALMANAC_WRITE (R50). -/
  | almanacWrite (p : Path) (r : ReqHeader) (ws : List Word)
  /-- ORDERED_WRITE (R49). -/
  | orderedWrite (p : Path) (r : ReqHeader) (ws : List Word)
  /-- RSVD_OP (R64). -/
  | rsvdOp (p : Path) (r : ReqHeader)
  /-- RESTORE_DEFAULTS (R44). -/
  | restoreDefaults (p : Path) (tag : BitVec 8) (v : Word)
  /-- TEST_UNLOCK (R43). -/
  | testUnlock (p : Path) (tag : BitVec 8)
  /-- TEST_VERIFY_DONE (R43). -/
  | testVerifyDone (p : Path)
  /-- TEST_LOCK (R41). -/
  | testLock (p : Path) (tag : BitVec 8)
  /-- QUERY_READ_RESET (R62). -/
  | queryReadReset (p : Path) (tag : BitVec 8) (c : Fin 96)
  /-- HOST_SLOTS_PEAK_READ (R143). -/
  | hostSlotsPeakRead (p : Path) (tag : BitVec 8)
  /-- SOFT_QUEUE_PEAK_READ (R172). -/
  | softQueuePeakRead (p : Path) (tag : BitVec 8)
  /-- REORDER_PEAK_READ (R172). -/
  | reorderPeakRead (p : Path) (tag : BitVec 8)
  /-- SAMPLE_READ (R393). -/
  | sampleRead (p : Path) (tag : BitVec 8) (i : Fin 48)
  /-- SUBMISSION_DOORBELL (R77). -/
  | submissionDoorbell (ring : Fin 8192) (v : Word)
  /-- COMPLETION_HEAD_DOORBELL (R77). -/
  | completionHeadDoorbell (ring : Fin 4096) (v : Word)
  /-- SUBMISSION_RING_ENABLE (R111). -/
  | submissionRingEnable (p : Path) (tag : BitVec 8) (ring : Fin 8192) (v : Bool)
  /-- COMPLETION_RING_ENABLE (R111). -/
  | completionRingEnable (p : Path) (tag : BitVec 8) (ring : Fin 4096) (v : Bool)
  /-- ABORT_RING (R106). -/
  | abortRing (p : Path) (tag : BitVec 8) (ring : Fin 8192)
  /-- DESCRIPTOR_FETCH (R95). -/
  | descriptorFetch
  /-- NOP (R80). -/
  | nop (ring : Fin 8192) (slot : Fin 65536)
  /-- READ (R144). -/
  | read (ring : Fin 8192) (slot : Fin 65536)
  /-- WRITE (R116). -/
  | write (ring : Fin 8192) (slot : Fin 65536)
  /-- TRIM (R83). -/
  | trim (ring : Fin 8192) (slot : Fin 65536)
  /-- FLUSH (R82). -/
  | flush (ring : Fin 8192) (slot : Fin 65536)
  /-- FLUSH_SETTLED (R82). -/
  | flushSettled (ring : Fin 8192) (slot : Fin 65536)
  /-- RAW_READ (R166). -/
  | rawRead (ring : Fin 8192) (slot : Fin 65536)
  /-- RAW_PROGRAM (R81). -/
  | rawProgram (ring : Fin 8192) (slot : Fin 65536)
  /-- RAW_ERASE (R81). -/
  | rawErase (ring : Fin 8192) (slot : Fin 65536)
  /-- FENCE (R101). -/
  | fence (ring : Fin 8192) (slot : Fin 65536)
  /-- FENCE_COMPLETE (R101). -/
  | fenceComplete (ring : Fin 8192) (slot : Fin 65536)
  /-- BARRIER_RELEASE (R97). -/
  | barrierRelease (ring : Fin 8192) (slot : Fin 65536)
  /-- MIGRATE (R103). -/
  | migrate (ring : Fin 8192) (slot : Fin 65536)
  /-- MIGRATION_DONE (R103). -/
  | migrationDone (ring : Fin 8192)
  /-- ABORT_RING_SCOPE (R106). -/
  | abortRingScope (ring : Fin 8192) (slot : Fin 65536)
  /-- ABORT_CHANNEL_SCOPE (R213). -/
  | abortChannelScope (ring : Fin 8192) (slot : Fin 65536)
  /-- ABORT_DEVICE_SCOPE (R106). -/
  | abortDeviceScope (ring : Fin 8192) (slot : Fin 65536)
  /-- ABORT_CODE_FLASH_SCOPE (R466). -/
  | abortCodeFlashScope (ring : Fin 8192) (slot : Fin 65536)
  /-- ABORT_COMPLETE (R107). -/
  | abortComplete (i : Nat)
  /-- NOTIFY_DELAY (R87). -/
  | notifyDelay (ring : Fin 4096)
  /-- WRITE_ADMISSION (R115). -/
  | writeAdmission
  /-- TAG_WAIT_RELEASE (R119). -/
  | tagWaitRelease (ring : Fin 8192) (slot : Fin 65536)
  /-- WRITE_ACKNOWLEDGE (R116). -/
  | writeAcknowledge (ring : Fin 8192) (slot : Fin 65536)
  /-- JOURNAL_PAGE_TIMER (R125). -/
  | journalPageTimer
  /-- MEMBER_PROGRAM_TAKE (R127). -/
  | memberProgramTake (take : MemberTake)
  /-- ROW_CLOSE_DELAY (R128). -/
  | rowCloseDelay (set : Fin 8)
  /-- BACKGROUND_SLOT_FREE (R139). -/
  | backgroundSlotFree
  /-- DIE_QUEUE_ISSUE (R149). -/
  | dieQueueIssue (c : Fin 96) (d : Fin 16)
  /-- PROGRAM_HOLDOFF (R149). -/
  | programHoldoff (c : Fin 96) (d : Fin 16)
  /-- BUS_GRANT (R207). -/
  | busGrant (c : Fin 96) (framing : Framing) (parityBad : Option FabricStage)
  /-- HARD_DECODE (R155). -/
  | hardDecode (c : Fin 96) (ones : BitVec 16) (pass : Bool)
  /-- SOFT_DECODE (R156). -/
  | softDecode (pass : Bool)
  /-- RECONSTRUCT_FRAME (R164). -/
  | reconstructFrame (outcomes : List PageOutcome)
  /-- LOSS_NOTICE (R190). -/
  | lossNotice
  /-- STATUS_POLL (R210). -/
  | statusPoll (c : Fin 96) (d : Fin 16) (r : PollResult)
  /-- DIE_TEMPERATURE_READ (R217). -/
  | dieTemperatureRead (c : Fin 96) (d : Fin 16) (t : BitVec 20)
  /-- ZQ_CALIBRATION_SHORT (R223). -/
  | zqCalibrationShort (c : Fin 96) (target : Fin 4)
  /-- WRITE_CHECK (R223). -/
  | writeCheck (c : Fin 96) (d : Fin 16) (passed : Bool)
  /-- CHANNEL_TRAINING (R219). -/
  | channelTraining (c : Fin 96) (r : ChannelResult)
  /-- RECALIBRATE (R222). -/
  | recalibrate (p : Path) (tag : BitVec 8) (c : Fin 96)
  /-- ADMIN_ISOLATE (R230). -/
  | adminIsolate (p : Path) (tag : BitVec 8) (c : Fin 96)
  /-- PIN_CURRENT_TRIP (R227). -/
  | pinCurrentTrip (c : Fin 96) (lines : BitVec 17) (current : BitVec 20)
  /-- PIN_CURRENT_PEAK_SAMPLE (R396). -/
  | pinCurrentPeakSample (c : Fin 96) (current : BitVec 20)
  /-- DIE_COUNT_SAVE (R216). -/
  | dieCountSave
  /-- CALENDS_ADVANCE (R236). -/
  | calendsAdvance
  /-- CALENDS_SAVE (R236). -/
  | calendsSave
  /-- CALENDS_NOW (R236). -/
  | calendsNow (p : Path) (tag : BitVec 8) (v : Duo)
  /-- HARVEST_TABLE_SAVE (R239). -/
  | harvestTableSave
  /-- SELECT_VICTIM (R241). -/
  | selectVictim (set : Fin 8)
  /-- HARVEST_COPY (R243). -/
  | harvestCopy (set : Fin 8) (outcomes : List PageOutcome)
  /-- VICTIM_ERASE (R243). -/
  | victimErase (set : Fin 8)
  /-- WEAR_CHECK (R246). -/
  | wearCheck (set : Fin 8)
  /-- SCRUB_READ (R247). -/
  | scrubRead (set : Fin 8) (outcomes : List PageOutcome)
  /-- SCRUB_POSITION_SAVE (R247). -/
  | scrubPositionSave
  /-- HEALTH_SAVE (R251). -/
  | healthSave
  /-- MEMBER_LOSS (R180). -/
  | memberLoss (set : Fin 8)
  /-- LOSS_SCAN_END (R191). -/
  | lossScanEnd (set : Fin 8)
  /-- WALK_STRIPE (R182). -/
  | walkStripe (set : Fin 8) (outcomes : List PageOutcome)
  /-- BOUNDARY_ADVANCE (R193). -/
  | boundaryAdvance (set : Fin 8)
  /-- WALK_RESUME (R184). -/
  | walkResume (set : Fin 8)
  /-- REBUILD_START (R197). -/
  | rebuildStart (p : Path) (tag : BitVec 8) (set : Fin 8)
  /-- PLAN_COMMIT (R192). -/
  | planCommit (p : Path) (tag : BitVec 8)
  /-- RETIRE_COMMIT (R195). -/
  | retireCommit (p : Path) (tag : BitVec 8)
  /-- LOSS_ACK (R190). -/
  | lossAck (p : Path) (tag : BitVec 8) (v : Duo)
  /-- LOGICAL_UNITS (R259). -/
  | logicalUnits (p : Path) (tag : BitVec 8) (set : Fin 8) (v : Duo)
  /-- DRAM_PICK (R264). -/
  | dramPick (sub : Fin 8) (r : BurstRead)
  /-- REFRESH (R269). -/
  | refresh (sub : Fin 8) (command : RankCommand)
  /-- ACTIVATE_TABLE_CLEAR (R271). -/
  | activateTableClear
  /-- SELF_REFRESH_ENTRY (R270). -/
  | selfRefreshEntry (sub : Fin 8) (command : RankCommand)
  /-- PATROL_SCRUB (R262). -/
  | patrolScrub (r : BurstRead)
  /-- MR4_READ (R269). -/
  | mr4Read (sub : Fin 8) (command : RankCommand) (doubled : Bool)
  /-- DQS_TRACKING (R278). -/
  | dqsTracking (sub : Fin 8) (command : RankCommand) (steps : BitVec 20)
  /-- DRAM_ZQ_CALIBRATION (R336). -/
  | dramZqCalibration (sub : Fin 8) (command : RankCommand)
  /-- RANK_COPY (R274). -/
  | rankCopy (sub : Fin 8) (bursts : List (Fin 128 × List SymbolError)) (parity : List (Fin 128 × Bool))
  /-- REGION_RECOVERY_DONE (R277). -/
  | regionRecoveryDone (i : Nat)
  /-- RETIRE_RANK (R272). -/
  | retireRank (p : Path) (tag : BitVec 8) (sub : Fin 8) (v : Fin 2)
  /-- HELPER_START (R280). -/
  | helperStart (p : Path) (tag : BitVec 8)
  /-- HELPER_RUN_END (R279). -/
  | helperRunEnd (first : Option HelperMiss) (rest : List HelperMiss)
  /-- PAYLOAD_FLIT (R298). -/
  | payloadFlit (port : Fin 3) (ctl : FlitCtl) (beats : FlitBeats)
  /-- IDLE_FLIT (R298). -/
  | idleFlit (port : Fin 3) (flit : IdleFlit)
  /-- PARAM_FLIT (R293). -/
  | paramFlit (port : Fin 3) (ctl : FlitCtl) (creditP creditN : BitVec 12) (role : BitVec 2) (reset : Bool) (width : BitVec 5)
  /-- POWER_ENTER_S1 (R358). -/
  | powerEnterS1 (port : Fin 3) (ctl : FlitCtl)
  /-- POWER_ENTER_S2 (R358). -/
  | powerEnterS2 (port : Fin 3) (ctl : FlitCtl)
  /-- POWER_ENTER_DEEP (R358). -/
  | powerEnterDeep (port : Fin 3) (ctl : FlitCtl)
  /-- POWER_ACKNOWLEDGE (R313). -/
  | powerAcknowledge (port : Fin 3) (ctl : FlitCtl)
  /-- POWER_VIGIL (R442). -/
  | powerVigil (port : Fin 3) (ctl : FlitCtl)
  /-- WAKE_PATTERN (R313). -/
  | wakePattern (port : Fin 3)
  /-- MISSED_HEADER (R296). -/
  | missedHeader (port : Fin 3)
  /-- FLIT_LOCK (R295). -/
  | flitLock (lock : LockFlits)
  /-- LOCK_TIMEOUT (R301). -/
  | lockTimeout (port : Fin 3)
  /-- ACK_DUE (R299). -/
  | ackDue (port : Fin 3)
  /-- REPLAY_TIMEOUT (R300). -/
  | replayTimeout (port : Fin 3)
  /-- PORT_TRAINING (R286). -/
  | portTraining (port : Fin 3) (r : PortResult)
  /-- LINK_TRAIN_RETRY (R301). -/
  | linkTrainRetry (port : Fin 3)
  /-- RETRAIN (R301). -/
  | retrain (p : Path) (tag : BitVec 8) (port : Fin 3)
  /-- FULL_TRAIN (R301). -/
  | fullTrain (p : Path) (tag : BitVec 8) (port : Fin 3)
  /-- LINK_RESET_WRITE (R317). -/
  | linkResetWrite (p : Path) (tag : BitVec 8) (port : Fin 3)
  /-- MEM_WRITE (R306). -/
  | memWrite (addr : Duo) (n : BitVec 13) (v : BitVec 32768)
  /-- MEM_READ_REQ (R307). -/
  | memReadReq (tag : BitVec 13) (addr : Duo) (n : BitVec 13)
  /-- MEM_READ_DATA (R308). -/
  | memReadData (tag : BitVec 13) (n : BitVec 13) (poisoned : Bool) (v : BitVec 32768)
  /-- MEM_READ_TIMEOUT (R308). -/
  | memReadTimeout (tag : BitVec 13)
  /-- MGMT_REQUEST (R55). -/
  | mgmtRequest (byteCount : BitVec 13) (d0 d1 : Duo) (ws : List Word)
  /-- SB_WRITE_TRANSFER (R402). -/
  | sbWriteTransfer (port : Fin 2) (bytes : List Byte)
  /-- SB_READ_TRANSFER (R402). -/
  | sbReadTransfer (port : Fin 2)
  /-- STRETCH_TIMEOUT (R403). -/
  | stretchTimeout (port : Fin 2)
  /-- SCL_LOW_TIMEOUT (R404). -/
  | sclLowTimeout (port : Fin 2)
  /-- SDA_STUCK_RELEASE (R404). -/
  | sdaStuckRelease (port : Fin 2)
  /-- HANG_RECOVERY (R404). -/
  | hangRecovery (port : Fin 2)
  /-- SB1_RST_N (R408). -/
  | sb1RstN
  /-- ADC_CONVERSION (R388). -/
  | adcConversion (raw value peak : BitVec 20)
  /-- BANK_SHORTED (R370). -/
  | bankShorted
  /-- HOLDUP_TEST (R369). -/
  | holdupTest
  /-- HOLDUP_TEST_END (R369). -/
  | holdupTestEnd
  /-- HOLDUP_TEST_PERIOD (R369). -/
  | holdupTestPeriod
  /-- HOLDUP_TEST_START (R369). -/
  | holdupTestStart (p : Path) (tag : BitVec 8)
  /-- VIN_FAIL (R372). -/
  | vinFail
  /-- VIGIL_END_MARK (R374). -/
  | vigilEndMark
  /-- VIGIL_TIMEOUT (R372). -/
  | vigilTimeout
  /-- VIN_GOOD (R386). -/
  | vinGood
  /-- SUPPLY_FALL (R493). -/
  | supplyFall (aon : Bool)
  /-- MOD_RST_N_FALL (R350). -/
  | modRstNFall
  /-- MOD_RST_N_RISE (R343). -/
  | modRstNRise (l2 l1 l0 : Fin 3) (manager : Bool)
  /-- FIRMWARE_VERIFIED (R460). -/
  | firmwareVerified
  /-- RAIL_POWER_GOOD (R365). -/
  | railPowerGood
  /-- RAIL_GROUP_HOLD (R365). -/
  | railGroupHold
  /-- RAIL_SEQUENCE_TIMEOUT (R366). -/
  | railSequenceTimeout (k : Fin 12)
  /-- RAIL_POWER_GOOD_LOW (R366). -/
  | railPowerGoodLow (k : Fin 12)
  /-- RAIL_RETRY (R366). -/
  | railRetry
  /-- GROUP_WAIT_END (R416). -/
  | groupWaitEnd
  /-- SERVING_MODE_ENTRY (R343). -/
  | servingModeEntry
  /-- RESET_DEVICE (R350). -/
  | resetDevice (p : Path) (tag : BitVec 8)
  /-- POWER_STATE_ENTRY (R358). -/
  | powerStateEntry
  /-- AUTO_POISE (R358). -/
  | autoPoise
  /-- SAVE_TIMER (R360). -/
  | saveTimer
  /-- MAPPING_SAVE (R347). -/
  | mappingSave
  /-- THRESHOLD_SURVEY (R324). -/
  | thresholdSurvey (c : Fin 96) (d : Fin 16) (ones : List (List (BitVec 16))) (headersOk : Bool)
  /-- REAPPLY_STORED_SET (R331). -/
  | reapplyStoredSet (i : Fin 123)
  /-- CAL_SELECT (R334). -/
  | calSelect (p : Path) (tag : BitVec 8)
  /-- CAL_IMPORT (R335). -/
  | calImport (p : Path) (tag : BitVec 8)
  /-- DISCOVER_TIMER (R418). -/
  | discoverTimer
  /-- DISCOVER (R418). -/
  | discover (port : Fin 3) (h : PeerHdr)
  /-- JOIN_REQUEST (R415). -/
  | joinRequest (port : Fin 3) (h : PeerHdr)
  /-- GRANT (R418). -/
  | grant (port : Fin 3) (h : PeerHdr)
  /-- ROSTER (R418). -/
  | roster (port : Fin 3) (h : PeerHdr)
  /-- HEARTBEAT_TIMER (R422). -/
  | heartbeatTimer
  /-- HEARTBEAT (R422). -/
  | heartbeat (port : Fin 3) (h : PeerHdr)
  /-- STATUS (R422). -/
  | status (port : Fin 3) (h : PeerHdr)
  /-- MEMBER_UNREACHABLE (R440). -/
  | memberUnreachable (k : Fin 16)
  /-- MANAGER_UNREACHABLE (R441). -/
  | managerUnreachable
  /-- LEAVE (R439). -/
  | leave (port : Fin 3) (h : PeerHdr)
  /-- GROUP_LEAVE (R439). -/
  | groupLeave (p : Path) (tag : BitVec 8)
  /-- PEER_MGMT_REQUEST (R57). -/
  | peerMgmtRequest (port : Fin 3) (h : PeerHdr) (ws : List Word)
  /-- PEER_MGMT_RESPONSE (R424). -/
  | peerMgmtResponse (port : Fin 3) (h : PeerHdr) (ws : List Word)
  /-- MGMT_BROADCAST (R425). -/
  | mgmtBroadcast (port : Fin 3) (h : PeerHdr) (ws : List Word)
  /-- RELAY_GO (R424). -/
  | relayGo (p : Path) (tag : BitVec 8)
  /-- RELAY_TIMEOUT (R424). -/
  | relayTimeout (p : Path)
  /-- EQUINOX_ARRIVE (R429). -/
  | equinoxArrive (p : Path) (tag : BitVec 8) (v : Duo)
  /-- START_ALL (R429). -/
  | startAll (p : Path) (tag : BitVec 8) (v : Duo)
  /-- ARRIVE_ALL (R429). -/
  | arriveAll (port : Fin 3) (h : PeerHdr)
  /-- EQX_N_RISE (R430). -/
  | eqxNRise
  /-- EQX_REARM (R430). -/
  | eqxRearm
  /-- EQX_N_FALL (R359). -/
  | eqxNFall
  /-- BARRIER_TIMEOUT (R431). -/
  | barrierTimeout
  /-- SNAPSHOT_HOLD_LIMIT (R432). -/
  | snapshotHoldLimit
  /-- SNAPSHOT_DURABLE (R433). -/
  | snapshotDurable
  /-- SNAPSHOT_GATHER (R433). -/
  | snapshotGather (port : Fin 3) (h : PeerHdr)
  /-- SNAPSHOT_REPORT (R433). -/
  | snapshotReport (port : Fin 3) (h : PeerHdr)
  /-- BOARD_RESET_ORDERLY (R434). -/
  | boardResetOrderly (p : Path) (tag : BitVec 8)
  /-- BOARD_RESET_IMMEDIATE (R435). -/
  | boardResetImmediate (p : Path) (tag : BitVec 8)
  /-- RESET_PREPARE (R434). -/
  | resetPrepare (port : Fin 3) (h : PeerHdr)
  /-- DRAIN_COMPLETE (R434). -/
  | drainComplete
  /-- DRAINED (R434). -/
  | drained (port : Fin 3) (h : PeerHdr)
  /-- RESET_DRAIN_LIMIT (R434). -/
  | resetDrainLimit
  /-- RESET (R435). -/
  | reset (port : Fin 3) (h : PeerHdr)
  /-- MANAGER_RESET_DELAY (R435). -/
  | managerResetDelay
  /-- TRANSFER_START (R436). -/
  | transferStart (p : Path) (tag : BitVec 8)
  /-- TRANSFER_STOP (R444). -/
  | transferStop (p : Path) (tag : BitVec 8)
  /-- TRANSFER_UNIT_SEND (R436). -/
  | transferUnitSend (outcomes : List PageOutcome)
  /-- TRANSFER_DATA (R436). -/
  | transferData (port : Fin 3) (h : PeerHdr) (frame : Payload)
  /-- TRANSFER_ACK (R437). -/
  | transferAck (port : Fin 3) (h : PeerHdr)
  /-- ALL_DATA_RATE (R426). -/
  | allDataRate (p : Path) (tag : BitVec 8) (v : Word)
  /-- ALL_DRIVE_CODE (R426). -/
  | allDriveCode (p : Path) (tag : BitVec 8) (v : Word)
  /-- ALL_ODT_CODE (R426). -/
  | allOdtCode (p : Path) (tag : BitVec 8) (v : Word)
  /-- ALL_THROTTLE_LIMIT (R426). -/
  | allThrottleLimit (p : Path) (tag : BitVec 8) (v : Word)
  /-- UPDATE_CHUNK (R448). -/
  | updateChunk
  /-- READ_AREA (R448). -/
  | readArea
  /-- UPDATE_COMMIT (R462). -/
  | updateCommit (p : Path) (tag : BitVec 8)
  /-- PROTECT_STANDBY (R461). -/
  | protectStandby (p : Path) (tag : BitVec 8)
  /-- CODE_FLASH_READ (R463). -/
  | codeFlashRead (cls : Fin 4) (addr : BitVec 23) (count : BitVec 12) (sram : BitVec 28)
  /-- CODE_FLASH_PROGRAM (R451). -/
  | codeFlashProgram (cls : Fin 4) (addr : BitVec 23) (sram : BitVec 28) (ws : List Word)
  /-- CODE_FLASH_ERASE (R452). -/
  | codeFlashErase (cls : Fin 4) (sector : Fin 4096) (hint : Word)
  /-- CODE_FLASH_PROTECT (R461). -/
  | codeFlashProtect (cls : Fin 4) (sector : Fin 4096) (count : BitVec 12)
  /-- OTP_READ (R463). -/
  | otpRead (cls : Fin 4) (word : BitVec 11) (count : BitVec 12)
  /-- OTP_PROGRAM (R468). -/
  | otpProgram (cls : Fin 4) (word : BitVec 11) (v : Word)
  /-- CODE_FLASH_COMPLETION (R465). -/
  | codeFlashCompletion (outcome : CfOutcome)
  /-- CF_READ (R471). -/
  | cfRead (p : Path) (tag : BitVec 8)
  /-- DUMP_REQUEST (R467). -/
  | dumpRequest (p : Path) (tag : BitVec 8)
  /-- DUMP_RELEASE (R467). -/
  | dumpRelease (p : Path) (tag : BitVec 8)
  /-- CUSTOMER_KEY_BURN (R469). -/
  | customerKeyBurn (p : Path) (tag : BitVec 8)
  /-- RAISE_SECURITY_VERSION (R469). -/
  | raiseSecurityVersion (p : Path) (tag : BitVec 8) (v : BitVec 8)
  /-- WARDEN_WATCHDOG (R481). -/
  | wardenWatchdog (core : Fin 4)
  /-- WARDEN_FAULT (R481). -/
  | wardenFault (core : Fin 4) (parity : Bool)
  /-- CLEAR (R474). -/
  | clear (p : Path) (tag : BitVec 8) (source : Fin 1536)
  /-- PEPPER_ENABLE (R485). -/
  | pepperEnable (p : Path) (tag : BitVec 8) (v : Bool)
  /-- PEPPER_CLEAR_ALL (R485). -/
  | pepperClearAll (p : Path) (tag : BitVec 8)
  /-- FORCE_REALIGN (R487). -/
  | forceRealign (p : Path) (tag : BitVec 8)
  /-- SUPPLY_LOSS (R487). -/
  | supplyLoss (p : Path) (tag : BitVec 8)
  /-- DRAM_TRAINING (R278). -/
  | dramTraining (ranks : List RankResult)
  /-- SERVICE_ADAPTATION (R301). -/
  | serviceAdaptation (port : Fin 3) (lane : Fin 16) (eyeWidth eyeHeight ber : Word)
  /-- HOLDUP_CHARGE_RETRY (R370). -/
  | holdupChargeRetry
  /-- SB1_RST_N_RISE (R408). -/
  | sb1RstNRise
  /-- VDD_AON_IN_RANGE (R492). -/
  | vddAonInRange
  deriving DecidableEq, Repr

end Sys2Proof
end

