-- ==== Sys2Proof/Config.lean ====
section
/-! DEFINITION. Config.lean: what the manual leaves open (free values: opaque, applied to a counter of the state or to
the operands they depend on) and what it fixes outside this text (the hash and signature functions, the LDPC base
matrix, the rated cycles of the dies). Nothing here has a body, so nothing can be proved of a value. -/

namespace Sys2Proof

/-- An entry of the die profile (R200): the identity that Read Parameter Page reports, the prefix that carries per-level thresholds with a read, the
prefixes that select page type and mode, the levels that each page type senses, the feature address of the die temperature, the threshold range and
step (mV), whether the planes can be addressed independently (R206), the load of each probed line, the rated endurance (R250), and the word-line
pairing table: the model's own address of each page of a block, in a QLC and in an SLC block (R381). -/
structure DieProfile where
  model : Word
  offsetPrefix : Byte
  pageMap : List (List Nat)
  typePrefix : List Byte
  modePrefix : List Byte
  levels : List (List Nat)
  tempFeature : Byte
  low : Int
  high : Int
  step : Nat
  planesFree : Bool
  loads : List Nat
  endurance : Nat
  deriving DecidableEq, Repr

/-- Free value: twenty words of the buffer's random source, for a TEST nonce (R42). -/
opaque Config.nonce : Nat → List Word
/-- Free value: the forty bits that an object, a field or a place reads where the manual states no value. -/
opaque Config.freeDuo : Nat → Duo
/-- Free value: a count of forty bits past its largest value; the manual does not state how a W40 counter goes on. -/
opaque Config.counterPast : Nat → Nat → Duo
/-- Free value: a draw of the Pepper generator below 100, from the seed and the number of the draw (R487). -/
opaque Config.pepperDraw : Nat → Nat → Nat
/-- Free value: a frame payload of a page whose content the manual leaves undefined (R108). -/
opaque Config.freePayload : Nat → Payload
/-- Free value: a choice that the manual leaves to the buffer, as a number. -/
opaque Config.freeNat : Nat → Nat
/-- The SHA-384 digest of a message given as bytes: 48 bytes (R42, R459). -/
opaque Config.sha384 : List Byte → List Byte
/-- ECDSA P-384 verification: public key, signature and digest, each as bytes (R42, R459). -/
opaque Config.ecdsaVerify : List Byte → List Byte → List Byte → Bool
/-- The shift of a circulant of the base matrix at row r and payload column c, none for the all-zero circulant (R154): the manual's text does not print them. -/
opaque Config.ldpcShift : Nat → Nat → Option (BitVec 8)
/-- The shifts of the dual-diagonal parity part of the base matrix: of row r on the diagonal, in column 130 + r, and beside it, in column 129 + r (R153). -/
opaque Config.ldpcDiagonal : Nat → BitVec 8
opaque Config.ldpcBeside : Nat → BitVec 8
/-- Free value: RatedCycles by density code while no die is fitted (R250). -/
opaque Config.ratedCycles : Nat → Nat

/-- Free value: the generation of the retention model that a firmware image of a version carries, whose place the manual does not print (R158). -/
opaque Config.modelGeneration : Nat → Nat
/-- Entry of the retention model that a firmware image of a version carries: the 15 signed offsets of 10 bits, M_1 lowest (R158). -/
opaque Config.retentionEntry : Nat → Nat → BitVec 150
/-- Free value: the power of x that locates symbol 4d + q of a DRAM burst in its codeword; the manual does not order them (R261). -/
opaque Config.burstPosition : Nat → Nat
/-- Free value: the first of the eight successive powers of x that are the roots of the DRAM burst code (R261). -/
opaque Config.burstRoot : Nat
/-- What JEDEC DDR5 gives for a data rate, which R257 leaves to that standard: CAS latency, write recovery, read to precharge, tCCD_L, and the
ODT latency offsets of MR37 to MR39 (log entry 181). -/
opaque Config.casLatency : Nat → Nat
opaque Config.writeRecovery : Nat → Nat
opaque Config.readToPrecharge : Nat → Nat
opaque Config.ccdLong : Nat → Nat
opaque Config.odtOffset : Nat → Nat → Nat
/-- The die profile that a firmware image of a version carries, whose entries the manual's text does not print (R200). -/
opaque Config.dieProfiles : Nat → List DieProfile

end Sys2Proof
end

