-- ==== Sys2Proof/Machine/BurstCode.lean ====
section
/-! DEFINITION. Machine/BurstCode.lean: the code over a burst of the working memory: 40 symbols of GF(2^16), 32 of data and 8 of check,
and which errors the controller corrects (R261). -/

namespace Sys2Proof.Machine

open Sys2Proof

/-- A symbol times x in GF(2^16), with field polynomial x^16 + x^12 + x^3 + x + 1 (R261). -/
def gfDouble (a : BitVec 16) : BitVec 16 := (a <<< 1) ^^^ (if a.msb then 0x100B#16 else 0#16)

/-- The product of two symbols, over the bits of the second from bit n - 1 down. -/
def gfMulBits (a b : BitVec 16) : Nat → BitVec 16
  | 0 => 0#16
  | n + 1 => gfDouble (gfMulBits a b n) ^^^ (if b.getLsbD (15 - n) then a else 0#16)

/-- The product of two symbols in GF(2^16). -/
def gfMul (a b : BitVec 16) : BitVec 16 := gfMulBits a b 16

/-- A power of x, the element the code's roots are powers of (log entry 155). -/
def gfPower : Nat → BitVec 16
  | 0 => 1#16
  | n + 1 => gfDouble (gfPower n)

/-- What the errors of a burst add to symbol (d, q) (R261). -/
def symbolError (errs : List SymbolError) (d : Fin 10) (q : Fin 4) : BitVec 16 :=
  (errs.filter (fun e => decide (e.component = d) && decide (e.quarter = q))).foldl (fun x e => x ^^^ e.error) 0#16

/-- The components that carry a symbol in error (R261). -/
def badComponents (errs : List SymbolError) : List (Fin 10) :=
  (List.finRange 10).filter (fun d => (List.finRange 4).any (fun q => decide (symbolError errs d q ≠ 0#16)))

/-- Locator of symbol (d, q): a power of x. Where a symbol stands in the codeword is not stated. -/
def symbolLocator (d q : Nat) : BitVec 16 := gfPower (Config.burstPosition (4 * d + q))

/-- The eight syndromes of a burst: its error polynomial at eight successive powers of x. -/
def burstSyndromes (errs : List SymbolError) : List (BitVec 16) :=
  (List.range 8).map (fun j =>
    ((List.finRange 10).flatMap (fun d => (List.finRange 4).map (fun q =>
      gfMul (symbolError errs d q) (gfPower (Config.burstPosition (4 * d.val + q.val) * (Config.burstRoot + j)))))).foldl (· ^^^ ·) 0#16)

/-- Coefficients, lowest first, of the polynomial whose roots are the locators of a component's four symbols. -/
def componentLocator (d : Nat) : List (BitVec 16) :=
  (List.range 4).foldl (fun p q => List.zipWith (· ^^^ ·) (p.map (gfMul (symbolLocator d q)) ++ [0#16]) (0#16 :: p)) [1#16]

/-- The syndromes are those of an error pattern within the four symbols of component d: they follow the recurrence of its locators. -/
def oneComponent (syn : List (BitVec 16)) (d : Nat) : Bool :=
  (List.range 4).all (fun k =>
    decide ((List.zipWith gfMul (componentLocator d) (syn.drop k)).foldl (· ^^^ ·) 0#16 = 0#16))

/-- How the check of a burst comes out (R261): errors within one component are corrected, and the parity of R12 is made anew on the
corrected data; those that spread over two or more are uncorrectable, but for the patterns whose syndrome the code takes for no error
or for an error of one component. -/
def burstCheck : BurstRead → BurstCheck
  | .commandParity => .commandParity
  | .symbols errs =>
    match badComponents errs with
    | [] => .good
    | [_] => .corrected
    | _ =>
      let syn := burstSyndromes errs
      if syn.all (fun x => decide (x = 0#16)) then .good
      else if (List.range 10).any (oneComponent syn) then .corrected
      else .uncorrectable

end Sys2Proof.Machine
end

