-- ==== Sys2Proof/Machine/State.lean ====
section
/-! DEFINITION. State.lean: the state of the block as plain data: the object store of the Almanac and, for each unit, what
its chapter gives it; the queue of waiting commands; the outputs sent so far; and State.reset. -/

namespace Sys2Proof.Machine

/-! ## The Almanac's types (R37, R38) -/

/-- Value types of R37. -/
inductive VType where
  | bool | u8 | w20 | s20 | w40 | s40 | time40 | text | blob
  deriving DecidableEq, Repr

/-- Access kinds of R38. -/
inductive Access where
  | ro | rw | wo | const | rwp
  deriving DecidableEq, Repr

/-- Default of an object (R44): a number, or one that follows from the instance (R62, R317, R478). -/
inductive Dflt where
  | lit (n : Nat) | chan | chan12 | port | lanes | evEnable | evSeverity
  deriving DecidableEq, Repr

/-- In-range values of an object that do not depend on the state. -/
inductive Range where
  | full
  | upTo (lo hi : Nat)
  | signed (lo hi : Int)
  | zeroOr (lo hi : Nat)
  | oneOf (l : List Nat)
  | upToOr (lo hi x : Nat)
  deriving DecidableEq, Repr

/-- One row of an object table: name, subindices, type, access, class mask ([0] H, [1] B, [2] P, [3] T), default, range,
the bits that are not rsvd, and the words of a TEXT or BLOB. -/
structure ObjRow where
  name : String
  lo : Nat
  hi : Nat
  ty : VType
  acc : Access
  mask : Nat
  dflt : Dflt
  range : Range
  keep : Nat
  maxWords : Nat
  deriving DecidableEq, Repr

/-! ## Packets and outputs -/

/-- A peer packet (R419, R420): header fields, the duo 1 of the header, and the words or the frame it carries. -/
structure PeerPacket where
  typ : Nat
  tag : Nat
  status : Nat
  source : Nat
  dest : Nat
  broadcast : Bool
  west : Bool
  hops : Nat
  generation : Nat
  subtype : Nat
  argument : Nat
  duo1 : Nat
  words : List Word
  frame : Payload
  /-- The port forwards it: a packet of the through queue (R421). -/
  through : Bool := false
  deriving DecidableEq, Repr

/-- A packet that the buffer sends (R304, R305, R420); bytes of memory types lie in the low bits. -/
inductive Packet where
  /-- Data of the operation with fetch number `op` (R88), `buf` on the last piece of a frame that a frame buffer holds until it is sent (R151). -/
  | memWrite (op cls : Nat) (buf : Bool) (addr n : Nat) (v : BitVec 32768)
  | memReadReq (cls tag addr n : Nat)
  | memReadData (tag addr n : Nat) (v : BitVec 32768)
  | mgmtResponse (d0 d1 : Duo) (ws : List Word)
  | notice (cls ring tail : Nat)
  | peer (p : PeerPacket)
  deriving DecidableEq, Repr

/-- Beats of one packet that lie side by side in a flit (R304): the packet, the first of these beats, and how many they are. -/
structure BeatRun where
  packet : Packet
  first : Nat
  count : Nat
  deriving DecidableEq, Repr

/-- A payload flit held in a replay buffer: its Seq, the beats in its slots from slot 0 on, null beats in the slots past them, and when it was last
sent (R297, R304). -/
structure TxFlit where
  seq : Nat
  beats : List BeatRun
  sentAt : Nat
  deriving DecidableEq, Repr

/-- Contents of a mode register of a DRAM component, as R257 names them: burst length and CAS latency in clocks, the functional modes, write
recovery and read to precharge, read and write preambles in clocks with postambles in half clocks, a trained code, a count of clocks, a
termination that is parked, write CRC off, a training pattern, and the value after reset. -/
inductive ModeContents where
  | burst (length latency : Nat)
  | functional (twoN mpsm internalWrite : Bool)
  | recovery (write readToPrecharge : Nat)
  | preambles (read write postHalves : Nat)
  | code (value : Nat)
  | clocks (n : Nat)
  | parked | crcOff | pattern | resetValue
  deriving DecidableEq, Repr

/-- What the block has sent, in order. -/
inductive Out where
  | response (path : Path) (d0 d1 : Duo) (ws : List Word)
  /-- A payload flit with its link control (R290, R292). -/
  | flit (port : Nat) (control : BitVec 64) (f : TxFlit)
  /-- An Idle flit: one that carries an acknowledgement or a NAK, or stands for those sent while the replay buffer is full (R297, R299). -/
  | idle (port : Nat) (control : BitVec 64)
  /-- A Power flit and a Param flit with their link control (R292, R293, R313). -/
  | power (port : Nat) (control : BitVec 64) (code : Nat)
  | param (port : Nat) (control : BitVec 64) (creditP creditN role : Nat) (reset : Bool) (width : Nat)
  | wakePattern (port : Nat)
  | cfCompletion (d : Duo)
  | cfData (sram : Nat) (ws : List Word)
  | sbBytes (port : Nat) (bs : List Byte)
  | sbNack (port : Nat)
  | busRelease (port : Nat)
  /-- Warden cores restart from their verified image: bit k for core k (R481). -/
  | coreRestart (cores : Nat)
  /-- A command to a die, with its feature, block or page address (R199). -/
  | dieCommand (channel die : Nat) (op : Nat) (addr : Nat)
  /-- A page read at the model's own page address, with the read-offset prefix that carries T of each level, and the prefixes of page type and mode (R214). -/
  | pageRead (addr : Nat) (offsetPrefix typePrefix modePrefix : Byte) (levels : List (Nat × Int))
  /-- A page's data-in at the model's own page address, with its prefixes (R199, R214). -/
  | pageProgram (addr : Nat) (typePrefix modePrefix : Byte)
  /-- Change Read Column Enhanced: the frames of a page, and its header, that the transfer takes (R199). -/
  | columnSelect (addr : Nat) (frames : List Nat) (header : Bool)
  /-- An ONFI training sequence: 0 duty cycle, 1 read DQ, 2 write (R199). -/
  | onfiTraining (channel die kind : Nat)
  /-- A soft decode starts with the log-likelihood ratios of the four regions (R156). -/
  | softInput (read frame : Nat) (llrs : List Int)
  | dramCommand (sub rank : Nat) (op : Nat) (addr : Nat)
  /-- A mode register of a rank is programmed; for `part` above 0 that of component part − 1, through PDA (R256, R257). -/
  | dramMode (sub rank reg part : Nat) (contents : ModeContents)
  /-- The bursts of a helper run, in ascending order: written, or read back, with the offset added to the lanes' delays and, for reads, to the
  receiver Vref (R279). -/
  | helperBursts (sub rank : Nat) (write : Bool) (pattern fixed : Nat) (delay vref : Int) (bursts : Nat)
  deriving DecidableEq, Repr

/-! ## Calibration records -/

/-- A set of a calibration record (R328): temperature and figures measured, and the parameters, field by field. -/
structure CalSet where
  temp : Int
  eyeWidth : Nat
  eyeHeight : Nat
  ber : Nat
  params : List Int
  deriving DecidableEq, Repr

/-- The DX-32 compatible record of a channel (R333). -/
structure DxRec where
  rate : Nat
  drive : Nat
  odt : Nat
  set : CalSet
  deriving DecidableEq, Repr

/-- A copy of a calibration record (R325 to R328): what its header names, its five sets by node, its DX-32 words, and the sector, A or B, that
holds it. -/
structure CalRec where
  rate : Nat
  drive : Nat
  odt : Nat
  seq : Nat
  sets : List (Option CalSet)
  dx : Option DxRec
  sector : Bool
  deriving DecidableEq, Repr

/-- Calibration beyond its records. -/
structure Cal where
  /-- Rewrites not yet durable, oldest first: record number, new copy, whether it is an import (R325, R335). -/
  pending : List (Nat × CalRec × Bool) := []
  /-- Settings in force, by record number, and the temperature at which a stored set was last applied (R331). -/
  applied : SMap (List Int) := []
  appliedT : SMap Int := []
  /-- Fields of the settings in force that came from a stored set, by record number (R323, R331). -/
  kept : SMap (List Nat) := []
  /-- Dies whose threshold survey has not ended (R324): they do not learn. -/
  due : List Nat := []
  /-- Rate, DriveCode and OdtCode in force since the last training of an interface started, by record number; before the first they are those
  of the objects (R329, R337). -/
  inForce : SMap (Nat × Nat × Nat) := []
  /-- Stored set formed when the training of an interface started, by record number (R337). -/
  formed : SMap CalSet := []
  deriving DecidableEq, Repr

/-! ## The link and peer ports (Urvan Link and Peer Ports) -/

/-- One port (R282): transmit and receive sequence, replay buffer, credits, and what it waits for. -/
structure Port where
  /-- Seq of the next payload flit (R297). -/
  txSeq : Nat := 0
  /-- Seq expected next, E (R298). -/
  rxSeq : Nat := 0
  /-- Replay buffer, oldest first (R297). -/
  replay : List TxFlit := []
  /-- Packet whose beats are partly sent, and the next of them (R304). -/
  sending : Option (Packet × Nat) := none
  /-- Packets waiting for credit or for room in the replay buffer (R309, R310); on a peer port those of the through queue, which the port
  forwards, stand ahead of its own of the same channel (R421). -/
  waiting : List Packet := []
  /-- Packets to forward that the through queue has no room for yet, oldest first (R421). -/
  through : List PeerPacket := []
  /-- Replays since AckSeq last advanced (R300). -/
  replays : Nat := 0
  /-- In-order payload flits not yet reported (R299). -/
  unreported : Nat := 0
  /-- An acknowledgement is due at once (R299). -/
  ackDue : Bool := false
  /-- A NAK has been sent for the Seq now expected, at this time (R299). -/
  nakAt : Option Nat := none
  /-- P and N beats sent since the link came up, and the partner's released counts (R309). -/
  sentP : Nat := 0
  sentN : Nat := 0
  partnerP : Nat := 0
  partnerN : Nat := 0
  /-- P and N beats released by this receiver, modulo 4,096 (R292). -/
  releasedP : Nat := 0
  releasedN : Nat := 0
  /-- Data beats still to come of the packet being received, and whether it is discarded (R304, R305). -/
  rxLeft : Nat := 0
  rxBad : Bool := false
  /-- Tag of that packet if it is a MemReadData (R308). -/
  rxRead : Option Nat := none
  rxP : Bool := false
  rxN : Bool := false
  /-- Times of the CRC errors of the last millisecond (R301). -/
  crcTimes : List Nat := []
  /-- The receiver is hunting for the flit boundary, since this time (R295). -/
  hunting : Option Nat := none
  /-- The recovery action under way: 0 none, 1 fast retrain, 2 link reset (R301). -/
  recovery : Nat := 0
  /-- Whether the training under way runs with Reset = 1 and whether it is a full training (R301). -/
  fullTraining : Bool := false
  /-- Equalisation is held from an earlier training (R312). -/
  equalised : Bool := false
  /-- The last full training failed and is retried every second (R301). -/
  retry : Bool := false
  /-- The partner has sent Param flits in this training (R293). -/
  paramSeen : Bool := false
  /-- Pepper: flits since the last forced CRC error, flits still to force, acknowledgements since the last one dropped (R487). -/
  crcSince : Nat := 0
  crcBurst : Nat := 0
  ackSince : Nat := 0
  /-- The partner on a peer port sleeps (R442). -/
  partnerAsleep : Bool := false
  deriving DecidableEq, Repr

/-! ## Code flash (Warden Cores and Code Flash) -/

/-- Areas of code flash (R455). -/
inductive Area where
  | calibration | retained | ledger | lossLog | checkpoint (set : Nat) | generation (set : Nat)
  | spareMap | history | wakeImage | dump | log
  deriving DecidableEq, Repr

/-- The periodic saves of the wear and history area, and the other private saves of the warden (R455). -/
inductive SaveKind where
  | dieCounts | calends | harvest | scrub | health | ladder | wakeImage | power
  /-- A retired rank of a sub-channel (R274). -/
  | rank (sub r : Nat)
  deriving DecidableEq, Repr

/-- A tear record (R378): type 1 tear, 2 raw intent, 3 raw end, 4 release. -/
structure TearRec where
  typ : Nat
  planes : Nat
  channel : Nat
  die : Nat
  block : Nat
  page : Nat
  cause : Nat
  slc : Bool
  deriving DecidableEq, Repr

/-- A checkpoint of a walk (R194). -/
structure Ckpt where
  set : Nat
  kind : Nat
  number : Nat
  target : Nat
  boundary : Nat
  endRow : Nat
  seq : Nat
  rowsLeft : Nat
  deriving DecidableEq, Repr

/-- What a queued code-flash operation is for: what comes about when it ends DONE. -/
inductive CfPurpose where
  /-- A descriptor of the raw queue rows; nothing further. -/
  | raw
  /-- The retained entry of an object becomes durable (R45, R456). -/
  | retained (key value seq : Nat)
  /-- Compaction: the other half is erased (0), its header written (1), a current value appended (2), its Commit written (3) (R457). -/
  | compact (step : Nat)
  /-- A record of the warden log (R477). -/
  | log (source arg minute cold uptime : Nat)
  /-- A loss record of the loss log (R190). -/
  | loss (number : Nat)
  /-- A checkpoint, a generation record, a tear-ledger record or the words of a Vigil entry (R194, R176, R378, R379). -/
  | checkpoint (c : Ckpt)
  | generation (set number : Nat)
  | tear (r : TearRec)
  | mark (k : Nat)
  /-- The Vigil entry is armed: its number and designation, at a CFA (R379). -/
  | arm (number designation addr : Nat)
  /-- The Vigil entry has been copied to another CFA. -/
  | moveEntry (addr : Nat)
  /-- The words of a dump designation (R373). -/
  | designate (number : Nat)
  /-- A substitution of the spare map, or, with no location, the end of one (R178). -/
  | spare (i x : Nat)
  /-- A periodic save (R455). -/
  | save (k : SaveKind)
  /-- Firmware update, step 3, 4, 5 or 6, at a position (R462). -/
  | update (step pos : Nat)
  /-- CfRead (R471), the warden dump (R467), a calibration record (R325). -/
  | cfRead
  /-- The wake image is read on exit from S5 (R361). -/
  | wakeRead
  | dump (pos : Nat)
  | calRecord (i : Nat) (form : Nat)
  /-- OTP burns: customer key word, security mark, remap entry (R469, R454). -/
  | keyBurn (slot k : Nat)
  | secMark (target : Nat)
  | remap (sector spare : Nat)
  /-- The erase that frees the next sector of an area (R455). -/
  | areaErase
  deriving DecidableEq, Repr

/-- A descriptor of the operation queue (R463) with the data it carries and what it is for. -/
structure CfDesc where
  slot : Nat
  opcode : Nat
  cls : Nat
  addr : Nat
  count : Nat
  sram : Nat
  data : List Word
  purpose : CfPurpose
  deriving DecidableEq, Repr

/-- The operation queue of code flash and the warden's use of it. -/
structure CodeFlash where
  /-- Operation in progress (R453). -/
  cur : Option CfDesc := none
  /-- Operations queued, oldest first (R463, R465). -/
  queue : List CfDesc := []
  /-- Next queue entry number (R464). -/
  nextSlot : Nat := 0
  /-- An abort or Vigil stops the operation in progress (R466). -/
  stopping : Bool := false
  /-- Volatile protection bits, by sector (R461). -/
  protect : SMap Bool := []
  /-- Staged image, by unit of 2,048 words (R462), and the slot that an update programs. -/
  staged : SMap (List Word) := []
  updateSlot : Nat := 0
  /-- Times of the log records written in the last second, and records kept before step 3 (R477). -/
  logTimes : List Nat := []
  logHeld : List (Nat × Nat × Nat) := []
  /-- The retained write entries not yet durable: key, value, sequence (R45). -/
  retainedWaiting : List (Nat × Nat × Nat) := []
  /-- Compaction of retained objects is under way (R457). -/
  compacting : Bool := false
  compactBase : Nat := 0
  deriving DecidableEq, Repr

/-- A record of the warden log (R477). -/
structure LogRec where
  source : Nat
  arg : Nat
  minute : Nat
  cold : Nat
  uptime : Nat
  deriving DecidableEq, Repr

/-! ## Rings (Rings, Descriptors and Ordering) -/

/-- Where a fetched operation stands (R95, R97, R104). -/
inductive OpPhase where
  /-- Waits for a Barrier: every earlier descriptor of its ring must complete (R97). -/
  | barrier
  /-- Handed to its unit; its own row acts upon it. -/
  | ready
  /-- Waits for its write tag (R119) or for admission (R115). -/
  | tagWait | admission
  /-- Acting. -/
  | issued
  /-- Withdrawn by a migration (R103). -/
  | withdrawn
  /-- Ended; its completion waits to be posted: a snapshot or PostDelay holds it, or data writes of it are unsent (R88, R432, R487). -/
  | ended
  deriving DecidableEq, Repr

/-- A fetched operation that has no completion yet. -/
structure Op where
  ring : Nat
  slot : Nat
  epoch : Nat
  desc : Descriptor
  phase : OpPhase
  /-- Fetch order over all rings. -/
  seq : Nat
  /-- Priority class of its ring when it was fetched: a later write of Priority does not change it (R52, R112). -/
  cls : Nat := 1
  /-- Blocks or frames not yet delivered, staged or settled. -/
  left : Nat := 0
  /-- Highest ladder step, and the flags of R84. -/
  ladder : Nat := 0
  degraded : Bool := false
  unmapped : Bool := false
  staged : Bool := false
  /-- Detail of a DONE READ (R89). -/
  detail : Nat := 0
  /-- Blocks or frames not delivered as good: index and whether on a torn page (R90). -/
  bad : List (Nat × Bool) := []
  /-- A fabric parity mismatch stopped it at this block or frame (R91). -/
  integrity : Option Nat := none
  /-- A raw operation ended by busy timeout or FAIL (R89). -/
  failed : Bool := false
  /-- Blocks or frames whose data has been sent (R92, R108). -/
  sentParts : List Nat := []
  /-- FLUSH: numbers of the unsettled WRITEs, of whatever set, that were acknowledged before it was fetched (R82). -/
  awaits : List Nat := []
  /-- READ: a die read of it has started on a die (R104). -/
  begun : Bool := false
  /-- Re-issued by step 4 of a migration and not yet handed on (R103). -/
  again : Bool := false
  deriving DecidableEq, Repr

/-- A completion that waits to be posted: the fetch number of its operation, its ring, whether a snapshot holds it (R432), and the time
that PostDelay holds it to (R487). It also waits for the data writes of its operation to be sent (R88). -/
structure HeldPost where
  op : Nat
  ring : Nat
  completion : Completion
  snap : Bool
  due : Nat
  deriving DecidableEq, Repr

/-- An abort under way (R106). -/
structure Abort where
  /-- 0 ring, 1 channel, 2 device, 3 code flash. -/
  scope : Nat
  target : Nat
  /-- The ABORT descriptor, or none for AbortRing or the wedge clean-up. -/
  op : Option (Nat × Nat)
  started : Nat
  count : Nat
  /-- Rings under abort, each with its descriptors still to drain of those that its Tail covered when the abort started (R106, R107). -/
  tails : List (Nat × Nat) := []
  /-- Channels whose dies are being reset. -/
  channels : List Nat := []
  /-- It stops the code-flash operation in progress (R466). -/
  codeFlash : Bool := false
  deriving DecidableEq, Repr

/-- A migration under way (R103). -/
structure Migration where
  ring : Nat
  /-- Slot of the MIGRATE descriptor, or none for one the buffer started. -/
  slot : Option Nat
  placement : Nat
  /-- A completion slot is reserved for the migration-done completion. -/
  reserved : Bool
  /-- The placement has been withdrawn again: a further migration follows (R105). -/
  again : Bool
  /-- An abort met the migration: withdrawn operations complete ABORTED (R108). -/
  aborted : Bool
  deriving DecidableEq, Repr

/-- The ring engine. -/
structure Rings where
  /-- Submission pool, by slot; a slot nothing has written is zero. -/
  subPool : SMap Descriptor := []
  /-- Completion pool, by slot. -/
  cplPool : SMap Completion := []
  /-- Fetched operations without a completion, in fetch order. -/
  ops : List Op := []
  nextSeq : Nat := 0
  aborts : List Abort := []
  migrations : List Migration := []
  /-- Rings that have no placement: their descriptors are refused (R105). -/
  noPlace : SMap Bool := []
  /-- Doorbells held while descriptors are not fetched (R32): completion head?, ring, value. -/
  held : List (Bool × Nat × Nat) := []
  /-- Posted completions not covered by a notice, by completion ring: count, time of the oldest, and class of the newest (R87, R304). -/
  unnoticed : SMap (Nat × Nat × Nat) := []
  /-- Last ring served in each priority class, and the deficit left for it (R73). -/
  lastPick : SMap Nat := []
  deficit : SMap Nat := []
  /-- Picks since a background ring was last picked (R73). -/
  sinceBackground : Nat := 0
  /-- Draws of the Pepper generator since it was seeded (R487). -/
  pepperDraws : Nat := 0
  /-- Completions of ended operations that wait to be posted, in order (R88, R432, R487). -/
  heldPosts : List HeldPost := []
  /-- A snapshot holds the completions of WRITEs and TRIMs (R432). -/
  snapHold : Bool := false
  /-- Fetching and admission have stopped (R434, R374). -/
  stopped : Bool := false
  deriving DecidableEq, Repr

/-! ## Shared window -/

/-- The shared window (R74) beyond the doorbells: bytes visible to every agent, by offset, and host stores to the general
window not yet visible to the wardens, oldest first, the bytes of one aligned word together (R99). -/
structure Window where
  bytes : SMap Byte := []
  pendingStores : List (List (Nat × Byte)) := []
  deriving DecidableEq, Repr

/-! ## Management paths -/

/-- TEST unlock of a path (R42, R43). -/
structure PathState where
  nonce : List Word := []
  /-- Time of the last failed attempt. -/
  failedAt : Option Nat := none
  key : List Word := []
  signature : List Word := []
  /-- The path holds TEST. -/
  test : Bool := false
  deriving DecidableEq, Repr

/-! ## Events and fabric -/

/-- Events (Events, Faults and Pepper): the queue of event completions and what each waiting one has coalesced; stages. -/
structure Events where
  /-- Event completions queued: ring, source, argument (R475). -/
  queue : List (Nat × Nat × Nat) := []
  coalesced : SMap Nat := []
  /-- ChangeCount of BoardDigest (R410, R472). -/
  changeCount : Nat := 0
  /-- Stages in the wedge clean-up: class, stage, and whether the stage is fenced (R482, R483). -/
  wedged : List (Nat × Nat) := []
  fenced : List (Nat × Nat) := []
  /-- When a stage's last clean-up ended (R483). -/
  cleaned : List (Nat × Nat × Nat) := []
  /-- Times of IntegrityError within the last second (R480). -/
  integrityTimes : List Nat := []
  /-- Time of the last WardenFault (R481). -/
  wardenFaultAt : Option Nat := none
  /-- When the VID code last changed, whether a raise is pending, and the last trip (R14, R15). -/
  vidAt : Option Nat := none
  vidPending : Bool := false
  /-- A code that a power state asks for and that waits until 10 µs have passed since the last change (R362). -/
  vidTarget : Option Nat := none
  tripAt : Option Nat := none
  deriving DecidableEq, Repr

/-! ## Write path (Write Path and Stripe Assembly) -/

/-- Why a unit is in staging, which decides its budget and its class (R114, R207). -/
inductive Origin where
  | host | replay | returned | walk | harvest | transfer
  deriving DecidableEq, Repr

/-- A unit in staging, in a shadow entry or on its way to a die (R113): set, logical unit, its four frame payloads, the
WriteTag and Sequence of its page header, and, for a relocation, the source PMA (R509). -/
structure SUnit where
  set : Nat
  lui : Nat
  frames : List Payload
  tag : Nat
  seq : Nat
  origin : Origin
  source : Option Nat
  /-- Sequence of its Stage record, by which a FLUSH knows it settled (R82); the stripe it came from for a walk (R193). -/
  ticket : Nat
  stripe : Nat
  deriving DecidableEq, Repr

/-- A read of host memory under way (R308): the operation it serves, the byte offset in that operation's data, the bytes
still to come, and when it was sent. -/
structure HostRead where
  tag : Nat
  ring : Nat
  slot : Nat
  off : Nat
  left : Nat
  sentAt : Nat
  deriving DecidableEq, Repr

/-- An admitted WRITE or partial TRIM, or a raw program, gathering its data (R115, R116). -/
structure Gather where
  ring : Nat
  slot : Nat
  set : Nat
  lba : Nat
  count : Nat
  tag : Nat
  /-- Zero data of a partial TRIM, not read from the host (R83). -/
  trim : Bool
  /-- Staging slots reserved, one for each unit written, with its logical unit. -/
  slots : List (Nat × Nat)
  /-- Blocks of host data by index in the operation. -/
  data : SMap Block
  /-- Media frames read for a merge (R117): logical unit, PMA read, frame, its payload, none for a carried loss. -/
  merged : List (Nat × Nat × Nat × Option Payload)
  /-- A host read came poisoned or never came (R308, R91). -/
  poisoned : Bool
  deriving DecidableEq, Repr

/-- A tag table entry (R118). -/
structure TagEntry where
  tag : Nat
  set : Nat
  lba : Nat
  count : Nat
  deriving DecidableEq, Repr

/-- Kinds of journal record (R124). -/
inductive JKind where
  | stage | place | trim | relocate
  deriving DecidableEq, Repr

/-- A journal record (R124). -/
structure JRec where
  kind : JKind
  set : Nat
  lui : Nat
  tag : Nat
  loc : Nat
  count : Nat
  first : Nat
  deriving DecidableEq, Repr

/-- A journal page being programmed: its first sequence, its records, and the copies that have not passed (R125). -/
structure JPage where
  first : Nat
  n : Nat
  left : Nat
  copies : Nat := 2
  deriving DecidableEq, Repr

/-- A mapping save under way (R347): its segment by 2,048 × set + slot, the JournalSequence and the time at which it began, its entries by unit, the
pages handed to the die queues, and the copies of the last of them that have not passed. -/
structure MapSave where
  seg : Nat
  start : Nat
  began : Nat
  entries : SMap Nat
  page : Nat := 0
  left : Nat := 0
  deriving DecidableEq, Repr

/-- One page of a member program (R127): its unit if it holds one, its four payloads, and the shadow entry that keeps it. -/
structure ProgPage where
  sunit : Option SUnit
  staged : Option Nat
  shadow : Option Nat
  payloads : List Payload
  filler : Bool
  deriving DecidableEq, Repr

/-- A member program: one word line of one die, 16 pages (R126, R127). -/
structure MemberProg where
  set : Nat
  row : Nat
  gen : Nat
  position : Nat
  /-- Data index, 0x3E for P, 0x3F for Q (R135). -/
  index : Nat
  channel : Nat
  die : Nat
  block : Nat
  wl : Nat
  pages : List ProgPage
  burst : Nat
  started : Nat
  temp : Nat
  deriving DecidableEq, Repr

/-- A row of a set that is open or whose programs have not all passed (R126 to R128). -/
structure Row where
  set : Nat
  row : Nat
  gen : Nat
  die : Nat
  block : Nat
  wl : Nat
  /-- Data members taken so far, units of the member program being filled. -/
  taken : Nat
  partly : List ProgPage
  pAcc : List Payload
  qAcc : List Payload
  /-- Time of the last unit taken (R128). -/
  lastTake : Nat
  /-- Data members whose data-in has not ended, parity members whose data-in has not ended, and member programs that have not
  ended (R127). -/
  dataInLeft : Nat
  parityIn : Nat := 0
  progsLeft : Nat
  /-- P and Q programs that have not passed yet. -/
  parityLeft : Nat
  parityIssued : Bool
  seqLast : Nat
  /-- Highest class among its units (R207). -/
  cls : Nat := 3
  deriving DecidableEq, Repr

/-- A row block of a set: the rows opened in it and what is known of them (R176, R240). -/
structure RowBlock where
  set : Nat
  die : Nat
  block : Nat
  gen : Nat
  /-- Rows opened: Row value, word line. -/
  rows : List (Nat × Nat)
  /-- Members whose program failed or was cut, each in its row: word line, position (R139). -/
  failedRows : List (Nat × Nat)
  /-- Time of flagging for reclaim by reason: failed, oldest generation, refresh, wear (R241). -/
  failedAt : Option Nat
  oldestAt : Option Nat
  refreshAt : Option Nat
  wearAt : Option Nat
  victim : Bool
  /-- Released by a walk for erase (R182). -/
  released : Bool
  /-- Member erases still to end once the row block is being erased (R243). -/
  erasing : Option Nat := none
  deriving DecidableEq, Repr

/-- A generation record (R176), with the LogicalUnits and spare reserve retained beside it (R197). -/
structure GenRec where
  num : Nat
  width : Nat
  firstRow : Nat
  channels : List Nat
  absent : List Nat
  logicalUnits : Nat
  spare : Nat
  deriving DecidableEq, Repr

/-- A walk (R182 to R194). -/
structure Walk where
  /-- 1 rebuild, 2 reshape. -/
  kind : Nat
  target : Nat
  endRow : Nat
  /-- Next stripe to be walked and the durable boundary, as 16 × Row + 4 × plane + page index. -/
  next : Nat
  boundary : Nat
  lastCheckpoint : Nat
  /-- Moves not yet committed: stripe, logical unit; and the journal sequence each committed move needs. -/
  moving : List (Nat × Nat)
  needSeq : Nat
  /-- Rows of the target not yet completed. -/
  rowsLeft : Nat
  /-- New members and width a reshape will leave (R193). -/
  newChannels : List Nat
  deriving DecidableEq, Repr

/-- What a stripe set holds beyond its objects. -/
structure StripeSet where
  /-- Staging slots of units not yet taken, oldest first (R127). -/
  queue : List Nat
  rows : List Row
  nextRow : Nat
  nextDie : Nat
  walk : Option Walk
  /-- The walk that a loss scan has paused, and the mapping entry at which the scan goes on (R191). -/
  paused : Option Walk
  scanAt : Nat
  /-- Number of the next checkpoint (R194). -/
  ckptNext : Nat
  gens : List GenRec
  /-- The generation that waits while all 64 records are in use (R184): its channels, and what follows it: 0 dies adopted, 1 the response to a
  loss, 2 a reshape. -/
  owed : Option (List Nat × Nat)
  /-- Members lost for reads and not yet responded to (R180): channel, die (16 for the whole channel). -/
  lossPending : List (Nat × Nat)
  /-- FLUSHes pending on the set: ring, slot (R128). -/
  flushes : List (Nat × Nat)
  /-- Victim being reclaimed: die, block, next stripe index (R243). -/
  victim : Option (Nat × Nat × Nat)
  victimSeq : Nat
  wearAt : Option Nat
  /-- Scrub position: row, plane, page (R247). -/
  scrub : Nat
  deriving DecidableEq, Repr

/-- A loss record (R189). -/
structure LossRec where
  number : Nat
  cause : Nat
  set : Nat
  more : Bool
  erasures : Nat
  minute : Nat
  generation : Nat
  die : Nat
  plane : Nat
  block : Nat
  page : Nat
  frame : Nat
  erased : Nat
  ranges : List (Nat × Nat)
  durable : Bool
  noticed : Bool
  deriving DecidableEq, Repr

/-- The write path and the mapping unit. -/
structure WritePath where
  /-- Staging slots that hold a unit, or are reserved for one (R113). -/
  slots : SMap SUnit := []
  hostSlots : List Nat := []
  backSlots : List Nat := []
  /-- WRITEs and partial TRIMs that wait for admission, in fetch order: ring, slot (R115). -/
  admission : List (Nat × Nat) := []
  gathers : List Gather := []
  hostReads : List HostRead := []
  nextTag : Nat := 0
  /-- Tag table, oldest first (R118). -/
  tags : List TagEntry := []
  /-- Mapping table (R122) by 2^35 × set + unit; a unit not listed has no location. -/
  map : SMap Nat := []
  /-- Mapping cache: lines of each cache set, most recently used first (R145). -/
  cache : SMap (List Nat) := []
  /-- Program shadows (R137). -/
  shadows : SMap SUnit := []
  /-- Journal records not yet dropped, by sequence (R124), and the open page. -/
  journal : SMap JRec := []
  jFirst : Nat := 0
  jOpened : Option Nat := none
  jPages : List JPage := []
  /-- Mapping save under way (R347). -/
  save : Option MapSave := none
  /-- Current save of each segment, by 2,048 × set + slot: the JournalSequence and the time at which it began (R347). -/
  savedFrom : SMap (Nat × Nat) := []
  /-- First segment that the rotation may save next, and the time and JournalSequence at which the last save began (R347). -/
  saveNext : Nat := 0
  saveBegan : Option (Nat × Nat) := none
  /-- Units that wait for a background slot: returning units first (R139), with the shadow that keeps each. -/
  returning : List (SUnit × Option Nat) := []
  /-- Pages whose program passed while the entry's burst was being recovered: their transitions are held (R277). -/
  heldMoves : List (Nat × ProgPage) := []
  waitingUnits : List SUnit := []
  /-- Acknowledged WRITEs not yet settled: number, set, units not yet settled (R82). -/
  unsettled : List (Nat × Nat × List Nat) := []
  /-- Stripe sets. -/
  sets : SMap StripeSet := []
  rowBlocks : List RowBlock := []
  /-- Spare map (R178): die-block substituted, by the die-block it replaces. -/
  spareMap : SMap Nat := []
  /-- Admission of WRITEs has stopped because the bank is low (R371). -/
  admitStop : Bool := false
  /-- Number of the next acknowledged WRITE (R82). -/
  nextWrite : Nat := 0
  /-- Loss index (R188), newest last. -/
  lossIndex : List Nat := []
  /-- Loss records that wait for an acknowledgement, in order (R190). -/
  lossWaiting : List LossRec := []
  deriving DecidableEq, Repr

/-! ## Read path (Read Path, Decoding and Thresholds) and flash channels (Flash Channels) -/

/-- Whom a page read serves. -/
inductive ReadOwner where
  | op (ring slot lui : Nat)
  | merge (ring slot lui : Nat)
  /-- The unit of an unreadable shadow whose program failed (R277). -/
  | rescue (shadow : Nat)
  deriving DecidableEq, Repr

/-- A page read (R147): the frames wanted and the block each goes to, the ladder step, the retune move, and the skews of
frames of the page that failed step 1 (R162). -/
structure PageRead where
  owner : ReadOwner
  pma : Nat
  frames : List Nat
  header : Bool
  cls : Nat
  step : Nat
  shift : Int
  since : Nat
  /-- Step 1 outcomes still awaited and those that failed: frame, ones count. -/
  pending : List Nat
  failed : List (Nat × Nat)
  /-- Times issued after a busy timeout or mis-framing (R212, R225). -/
  again : Nat
  /-- Reads of step 3 captured so far (R156), and whether the die-block offset has learnt from this read (R161). -/
  pass : Nat := 0
  learned : Bool := false
  /-- Frames that Pepper forces to fail below EccStep (R487). -/
  forced : List Nat := []
  /-- The page as it was transferred, the frame buffers that its frames hold (R151), the thresholds of its last read (R162), and the first
  read of the same frames (R150). -/
  page : BitVec 147456 := 0
  held : Nat := 0
  last : List (Nat × Int) := []
  root : Option Nat := none
  deriving DecidableEq, Repr

/-- A frame in a decoder queue. -/
structure FrameRef where
  read : Nat
  frame : Nat
  cls : Nat
  deriving DecidableEq, Repr

/-- A frame that enters ladder step 4 (R164, R167). -/
structure Recon where
  owner : ReadOwner
  pma : Nat
  frame : Nat
  cls : Nat
  degraded : Bool
  /-- Pepper forces it to step 5 (R487). -/
  forced : Bool := false
  deriving DecidableEq, Repr

/-- An erase of the selected planes of a block of a die (R243, R81). -/
structure EraseJob where
  block : Nat
  planes : Nat
  /-- Set and row block reclaimed, or none for an erase of a raw descriptor (ring, slot). -/
  set : Option (Nat × Nat)
  raw : Option (Nat × Nat)
  /-- Reads of the die that must end first (R150). -/
  after : List Nat
  /-- The first of the two blocks of a 4 Tbit die-block is erased; the second is being (R20). -/
  second : Bool := false
  deriving DecidableEq, Repr

/-- What a page of a Vigil dump holds (R373 to R375): journal records from a sequence on, the initial or the outcome list, a unit with the
sequence of its Stage record, or the saves of the state pages. -/
inductive DumpItem where
  | tail (first n : Nat)
  | list (initial : Bool)
  | unit (u : SUnit) (seq : Nat)
  | state
  deriving DecidableEq, Repr

/-- A program of one SLC page: a journal page copy (first sequence), a dump page, or a page of a mapping save (R125, R347, R374). -/
structure SlcJob where
  journal : Option Nat
  block : Nat
  page : Nat
  image : BitVec 147456
  burst : Bool
  dump : Option DumpItem := none
  plane : Nat := 0
  /-- Segment and start of the mapping save whose page it is (R347). -/
  save : Option (Nat × Nat) := none
  deriving DecidableEq, Repr

/-- An operation of a die. -/
inductive DieJob where
  | read (ids : List Nat)
  | member (p : MemberProg)
  | slc (p : SlcJob)
  | erase (e : EraseJob)
  | rawProg (ring slot : Nat) (pma : Nat) (image : BitVec 147456)
  | reset (cause : Nat)
  /-- An operation that the die ends unheeded, and the pages programmed or planes erased it counts then (R204, R215, R230). -/
  | gone (programs erases : Nat)
  deriving DecidableEq, Repr

/-- One die: its queues (R205), what it does now, and its fault history. -/
structure Die where
  reads : List Nat := []
  progs : List (DieJob × Nat) := []
  cur : Option DieJob := none
  /-- The current operation occupies the array (false while its data moves). -/
  inArray : Bool := false
  /-- Reads picked since a background read was (R149). -/
  sinceBackground : Nat := 0
  timeoutAt : Option Nat := none
  /-- Blocks whose program or erase failed, with the time (R204). -/
  failedBlocks : List (Nat × Nat) := []
  /-- Program issued next whatever reads wait (R149). -/
  forced : Bool := false
  /-- Minute and temperature at the start of the current operation (R235). -/
  start : Nat × Nat := (0, 0)
  /-- When a poll first showed the operation ended while Pepper stretches it (R487). -/
  stretch : Option Nat := none
  tempAt : Option Nat := none
  zqTemp : Nat := 0
  deriving DecidableEq, Repr

/-- A bus transfer that waits: die, page read to transfer (none for a data-in burst), class, since, re-transfers made. -/
structure Xfer where
  die : Nat
  read : Option Nat
  cls : Nat
  since : Nat
  tries : Nat
  /-- Event argument of a mis-framed transfer not yet raised (R225, R232). -/
  misframed : Option Nat := none
  deriving DecidableEq, Repr

/-- One channel sequencer. -/
structure Channel where
  xfers : List Xfer := []
  lastAged : Bool := false
  hardQ : List FrameRef := []
  /-- A training runs (R222), started from which State. -/
  training : Option Nat := none
  driversOff : Bool := false
  /-- Chip-enable lines whose own driver is off after a short (R227), and the profile entry of the channel's dies (R200, R202). -/
  linesOff : List Nat := []
  /-- It was removed from a set, and no training has found its dies since it was added back (R204). -/
  removed : Bool := false
  profile : Option DieProfile := none
  /-- What the training found whose dies were all refused for their density alone, while no generation record names one (R202). -/
  refusedAs : Option ChannelResult := none
  /-- What its last training from step 1 found. -/
  result : Option ChannelResult := none
  /-- Density code of the dies that its last training found, admitted or not; 0 with none (R202). -/
  found : Nat := 0
  /-- An abort resets dies of the channel: dies still in reset (R213). -/
  aborting : Bool := false
  /-- Transfers whose gate edge lay more than 16 steps off, by side (R224). -/
  gateRun : Int := 0
  trained : Bool := false
  writeCheckAt : Nat := 0
  throttleHot : Nat := 0
  deriving DecidableEq, Repr

/-- Media page: the 18,432 bytes as they lie on the die (R132), and whether it was programmed in SLC mode. -/
structure MediaPage where
  bits : BitVec 147456
  slc : Bool
  deriving DecidableEq, Repr

/-- A Harvest record without ValidUnits (R238). -/
structure HRec where
  erases : Nat
  state : Nat
  refresh : Bool
  failed : Bool
  deriving DecidableEq, Repr

/-- The read path, the channel sequencers, the media and what Harvest keeps of it. -/
structure Flash where
  reads : SMap PageRead := []
  nextRead : Nat := 0
  softQ : List FrameRef := []
  recon : List Recon := []
  dies : SMap Die := []
  chans : SMap Channel := []
  media : SMap MediaPage := []
  /-- Plane-blocks whose content is undefined (R108): the free value that names it. -/
  undef : SMap Nat := []
  /-- Torn-page index (R144). -/
  torn : SMap Bool := []
  /-- Calends tags by die-block (R233); a die-block not listed has no tag. -/
  tags : SMap Nat := []
  harvest : SMap HRec := []
  valid : SMap Nat := []
  /-- Die-block offsets B and density sums by die (R157, R161). -/
  offsetB : SMap Int := []
  density : SMap (Int × Nat) := []
  /-- Retention model: 4 slots of 16,384 entries (R158, R159); and the die profile (R200). Both are loaded with the warden firmware. -/
  model : List (BitVec 150) := []
  profiles : List DieProfile := []
  /-- Retune log, newest last (R159): PMA and move. -/
  retunes : List (Nat × Int) := []
  /-- Frame buffers held, by deadline reads and by the others (R151). -/
  dlBuffers : Nat := 0
  buffers : Nat := 0
  /-- SLC block in use for journal copies, by copy: PMA of the next page (R125). -/
  slcNext : SMap Nat := []
  /-- Highest journal sequence that a die-block of journal pages holds (R347). -/
  slcSeq : SMap Nat := []
  /-- Temperature histograms by die and bin (R251). -/
  hist : SMap Nat := []
  scrubPass : Nat := 0
  deriving DecidableEq, Repr


/-! ## DRAM controller -/

/-- What a DRAM access serves: an update of a mapping line, the read of a line for the mapping cache, the shadow entry of a page of a channel, the
read of a unit's shadow for the operation of a sequence number, or another region. -/
inductive DramSrc where
  | mapping | line (n : Nat) | shadow (entry channel : Nat) | unit (seq lui : Nat) | plain
  deriving DecidableEq, Repr

/-- A unit of a READ that waits: for the bursts of an access, or, with none, for the program of the unit whose shadow is unreadable (R146, R262,
R277). -/
structure DramFetch where
  src : Option DramSrc
  ring : Nat
  slot : Nat
  seq : Nat
  lui : Nat
  deriving DecidableEq, Repr

/-- A request in a bank queue (R263): classes 1 panic write, 2 mapping, 3 read, 4 write, 5 background; `rmw` for a write
smaller than a burst (R265). -/
structure DramReq where
  cls : Nat
  write : Bool
  rmw : Bool
  da : Nat
  src : DramSrc
  deriving DecidableEq, Repr

/-- Bursts of one access on one sub-channel that have not entered their bank queues: the access's first byte and the byte past
its end, and the burst that enters next (R263). -/
structure DramExtent where
  cls : Nat
  write : Bool
  first : Nat
  past : Nat
  next : Nat
  src : DramSrc
  deriving DecidableEq, Repr

/-- One rank of a sub-channel, active or spare. -/
structure DramRank where
  /-- In self-refresh (R270). -/
  selfRefresh : Bool := false
  /-- Refreshes postponed, and whether MR4 reports the 2× rate (R269). -/
  postponed : Nat := 0
  doubled : Bool := false
  /-- Times of the corrections and of the command-parity error of the last 24 h (R262, R273). -/
  corrections : List Nat := []
  parityAt : Option Nat := none
  /-- Tracked change of write DQS since training, in steps (R278). -/
  drift : Nat := 0
  /-- Activate-count table of each bank: row and count (R271). -/
  activates : SMap (List (Nat × Nat)) := []
  /-- In power-down (R270), and the mode registers programmed, VrefDQ of component j as 1,024 + j (R257). -/
  powerDown : Bool := false
  modeRegs : SMap ModeContents := []
  deriving DecidableEq, Repr

/-- One sub-channel. -/
structure DramSub where
  /-- Requests of every bank queue in arrival order, and the accesses held by the units that issued them (R263). -/
  queue : List DramReq := []
  held : List DramExtent := []
  /-- Last bank served; direction of the bus; picks since the bus turned; picks since a mapping read during panic (R264, R268). -/
  last : Nat := 0
  writing : Bool := false
  run : Nat := 0
  panicRun : Nat := 0
  /-- Index M of the bank-row being copied (R274). -/
  copyRow : Nat := 0
  deriving DecidableEq, Repr

/-- The DRAM controller and what lies in DRAM beside the tables kept elsewhere. -/
structure Dram where
  subs : SMap DramSub := []
  /-- By 3 × sub-channel + rank, 2 naming the spare half. -/
  ranks : SMap DramRank := []
  /-- Bursts whose recovery is in progress (R277). -/
  recoveries : List Nat := []
  /-- Panics raised, in order: shadow entry and channel (R267). -/
  panics : List (Nat × Nat) := []
  /-- Shadow entries marked unreadable (R277). -/
  badShadows : List Nat := []
  /-- Shadow writes begun, oldest first: shadow entry and channel (R209). -/
  shadowWrites : List (Nat × Nat) := []
  /-- Units of READs that wait for a DRAM read, or for a program (R146, R277). -/
  fetches : List DramFetch := []
  /-- Next burst of the patrol (R262). -/
  patrol : Nat := 0
  /-- Directory of segments of each stripe set (R259). -/
  directory : SMap (List Nat) := []
  /-- Sub-channel and rank of the helper run (R279). -/
  helper : Option (Nat × Nat) := none
  /-- VrefDQ of the spare half's components before a helper run that sets it (R279). -/
  helperVref : List ModeContents := []
  /-- Training results of MR4, DQS and so on are valid: DRAM has trained since Cold entry (R278). -/
  trained : Bool := false
  deriving DecidableEq, Repr


/-! ## Vigil -/

/-- A program in flight at Vigil entry (R380): result 0 passed, 1 failed, 2 reset, 3 unknown. -/
structure VProg where
  channel : Nat
  die : Nat
  planes : Nat
  block : Nat
  wl : Nat
  slc : Bool
  result : Nat
  deriving DecidableEq, Repr

/-- The Vigil sequence while it runs (R374). -/
structure Vigil where
  /-- 1 supply, 2 rail fault, 3 thermal trip (R379), and the power state at entry. -/
  trigger : Nat
  fromState : Nat
  startedAt : Nat
  d0 : Nat
  /-- S1 + 1: journal records below it are frozen (step 4); none before. -/
  s1 : Option Nat
  /-- Programs in flight. -/
  inflight : List VProg
  /-- Units taken from shadows, to be dumped with new sequences, each with its page on die A if it has one. -/
  extra : List (SUnit × Option Nat)
  /-- Units of programs that failed in Vigil, which step 7 dumps, and whether step 6 has handed its pages to the die queues. -/
  failed : List SUnit := []
  dumped : Bool := false
  /-- Rail pairs lost at the entry or since: no program on the channels of a flash rail is confirmed (R386). -/
  lostRails : List Nat := []
  /-- The outcome list has been built, and the sequence of the first unit of a program that failed (step 7). -/
  outcomeBuilt : Bool
  failSeq : Nat
  /-- Next sequence for a unit taken from a shadow (R375), and ordinal of the next dump page. -/
  nextSeq : Nat
  ordinal : Nat
  /-- Marks queued: bit k of mark k. -/
  queued : Nat
  /-- Dump pages used so far on dies A for tail and lists, and beyond the planned ones for extra units. -/
  usedA : Nat
  usedExtra : Nat
  deriving DecidableEq, Repr

/-- The Vigil entry of the tear ledger (R379). -/
structure VigilEntry where
  number : Nat
  designation : Nat
  addr : Nat
  trigger : Nat := 0
  fromState : Nat := 0
  d0 : Nat := 0
  s1 : Nat := 0
  /-- Marks written: Entry, JournalSafe, CheckpointsSafe, ProgramsEnded, StagingSafe, End. -/
  marks : List Nat := []
  deriving DecidableEq, Repr

/-- What a Vigil dump holds. -/
structure Dump where
  /-- Dump die-blocks that hold it, by channel (R373). -/
  dies : SMap (List (Nat × Nat)) := []
  units : List (SUnit × Nat) := []
  tail : SMap JRec := []
  initial : Option (List VProg) := none
  outcome : Option (List VProg) := none
  /-- Values of the state pages: objects, histograms and scrub positions (R375). -/
  hasState : Bool := false
  saved : SMap Nat := []
  hist : SMap Nat := []
  scrub : SMap Nat := []
  /-- Units programmed. -/
  unitPages : Nat := 0
  duration : Nat := 0
  deriving DecidableEq, Repr

/-! ## Modes, rails and power -/

/-- SRAM regions, in the order of the table of R356. -/
inductive Sram
  | workBuffers | mapCache | pools | mediaHeaders | mediaRecords | window | stateBlock | bootContext | wardenRest | offsets | dieState | retunes
  deriving DecidableEq, Repr

/-- Start-up, rails, power states and the hold-up bank beyond their objects. -/
structure Power where
  /-- Levels L2, L1 and L0 of the straps SBADDR, and the strap that makes the buffer the group manager, as sensed when MOD_RST_N last rose
  (R400, R414). -/
  straps : Nat × Nat × Nat := (0, 0, 0)
  manager : Bool := false
  /-- Level of MOD_RST_N and validity of VDD_AON. -/
  resetLow : Bool := true
  aonValid : Bool := true
  coreEn : Bool := true
  /-- A buffer supply is below its range, and the buffer waits in Cold for VIN_GOOD (R386, R493). -/
  supplyLow : Bool := false
  vinWait : Bool := false
  /-- A thermal trip sent the buffer to Cold (R363). -/
  tripped : Bool := false
  /-- LastColdCause that the next start-up records. -/
  cause : Nat := 1
  /-- When MOD_RST_N rose. -/
  riseAt : Nat := 0
  /-- Rail groups raised (0 to 4), whether the last is in its hold, and pins RAIL_PG (R364, R365). -/
  groups : Nat := 0
  hold : Bool := false
  railsDone : Bool := false
  railRetry : Bool := false
  /-- The rails are being powered down, in reverse order of groups: when the last group went down (R365). -/
  lowering : Option Nat := none
  /-- Step 6 to 10 of R343: DRAM trained, group wait ended, restore ended. -/
  dramDone : Bool := false
  restored : Bool := false
  /-- Power state requested and held in S0 (R358). -/
  request : Option Nat := none
  /-- S5 is denied until the next Cold entry; as R361 states. -/
  s5Denied : Bool := false
  /-- A setting of the wake image has changed since its write was queued (R361). -/
  imageStale : Bool := false
  /-- Step 9 of R343 has run since the Cold entry: RecordsUsable is set. -/
  calLoaded : Bool := false
  /-- Regions parked in the warden scratch region of DRAM and not yet reloaded (R356, R359). -/
  parked : List Sram := []
  /-- Fetch of normal, bulk and background descriptors runs at half rate (R363), and the next such pick is skipped. -/
  reduced : Bool := false
  skipNext : Bool := false
  /-- Hold-up bank: charger enabled and since when, charge gone, test running with V0, a C measured, a test failed. -/
  charger : Bool := false
  chargeSince : Nat := 0
  shorted : Bool := false
  reversed : Bool := false
  test : Bool := false
  measured : Bool := false
  testFailed : Bool := false
  /-- Below 1.6 J since HoldupLow was raised (R371). -/
  low : Bool := false
  vigil : Option Vigil := none
  /-- A DRAM rail fault triggered the Vigil (R386). -/
  dramRail : Bool := false
  deriving DecidableEq, Repr



/-! ## Measurement and sideband ports -/

/-- The monitor ADC (R388 to R398). -/
structure Monitor where
  /-- Next input of the scan, and conversions left of the settling window (R388, R391). -/
  next : Nat := 0
  settle : Nat := 0
  /-- Consecutive good conversions of an input marked faulty (R395, R398). -/
  goodRun : SMap Nat := []
  /-- Channels for which input 46 is marked faulty (R397). -/
  faultyCh : SMap Bool := []
  /-- Time of the last conversion by input (R393). -/
  convertedAt : SMap Nat := []
  /-- Junction sensors that have given a good value since the Cold entry (R394). -/
  valued : SMap Bool := []
  /-- V0 of the hold-up test under way waits for a good conversion (R369, R412). -/
  v0 : Option Nat := none
  /-- The 10 ms of the test are over: V1 is the next good conversion (R369, R412). -/
  v1Due : Bool := false
  deriving DecidableEq, Repr

/-- A sideband port (R399 to R409). -/
structure SbPort where
  /-- Bytes of the response that no read transfer has clocked out whole (R402). -/
  response : Option (List Byte) := none
  /-- SB1_RST_N holds the port released (R408). -/
  released : Bool := false
  /-- SdaHold, StartSetup and SpikeFilter in force since the last STOP (R401). -/
  timing : Nat × Nat × Nat := (75, 65, 13)
  deriving DecidableEq, Repr

/-! ## Board group -/

/-- A unit that a transfer brings (R436): its source device, set and logical unit, the mapping entry at its first frame, the frames that have
come, and whether it came as no location. -/
structure XferUnit where
  source : Nat
  port : Nat
  set : Nat
  lui : Nat
  entry : Nat
  frames : SMap Payload
  empty : Bool
  deriving DecidableEq, Repr

/-- The buffer's part in its board group (R414 to R444). -/
structure Group where
  /-- Peer port through which the manager was last heard, and the hops to it (R421). -/
  mgrPort : Nat := 2
  mgrHops : Nat := 1
  /-- Buffers on the ring, once a broadcast of the manager has come back to it (R421). -/
  ringSize : Option Nat := none
  /-- Generation of the own Grant (R421). -/
  grantGen : Nat := 0
  /-- A JoinRequest has been sent and no Grant taken (R415). -/
  asked : Bool := false
  /-- Time of the last packet heard, by device (R422). -/
  heard : SMap Nat := []
  /-- The pending barrier: time of arrival, whether EQX_N is to be driven low again, and a join of a running group (R428, R430). -/
  arrivedAt : Nat := 0
  rearm : Bool := false
  joining : Bool := false
  /-- Orderly reset: this member drains, has reported, and the members that have reported to the manager (R434). -/
  preparing : Bool := false
  reported : Bool := false
  drained : List Nat := []
  /-- Outstanding relays by path: tag and device, 31 for a broadcast; next tag (R424, R425). -/
  relays : SMap (Nat × Nat) := []
  nextTag : Nat := 0
  /-- The transfer this buffer sources: number of the next unit, and destination units sent and not acknowledged (R436). -/
  xfer : Option (Nat × List Nat) := none
  /-- Units that come in by transfers (R436). -/
  arriving : List XferUnit := []
  deriving DecidableEq, Repr


/-! ## What survives a loss of supply -/

/-- Non-volatile state: the code-flash array and its one-time-programmable row, and the records that they hold, each kept
here in its structured form. Media pages are kept in `Flash`. -/
structure Nv where
  /-- Code-flash words by CFA, 26 bits: check above data (R449); a word not listed is erased. -/
  array : SMap (BitVec 26) := []
  /-- EraseCounter and Seal of a sector (R452); a sector not listed is sealed with a count of zero. -/
  hidden : SMap (BitVec 26 × BitVec 26) := []
  /-- The one-time-programmable row (R468). -/
  otp : SMap (BitVec 26) := []
  /-- Next word to append in each area, counted from the area's start (R455). -/
  areaNext : SMap Nat := []
  /-- The active half of the retained area and its number, as the committed half headers give them (R457). -/
  activeHalf : Nat := 0
  halfNumber : Nat := 0
  /-- Warden log, oldest first (R477). -/
  log : List LogRec := []
  /-- Loss log, and records declared and not durable when Cold was entered (R190). -/
  losses : List LossRec := []
  lossKept : List LossRec := []
  /-- Tear ledger: live tear records, oldest first (R378). -/
  tears : List TearRec := []
  /-- Checkpoints, newest last (R194). -/
  ckpts : List Ckpt := []
  /-- Generation records by set (R176). -/
  gens : SMap (List GenRec) := []
  /-- Durable copy of the spare map (R178). -/
  spareMap : SMap Nat := []
  /-- Last save of each counter, clock and position, by object key (R455). -/
  saved : SMap Nat := []
  savedHist : SMap Nat := []
  savedHarvest : SMap HRec := []
  savedScrub : SMap Nat := []
  /-- Code-flash erase counts as last saved, by sector of the array (R452, R455). -/
  savedErases : SMap Nat := []
  /-- Warden dump: number taken and whether one is held (R467). -/
  dumpNumber : Nat := 0
  /-- Minute of the last rewrite of a calibration record, by number, 0 to 122 (R332). -/
  calRewritten : SMap Nat := []
  /-- Density named with the generation records, 0 while there is none (R202). -/
  moduleDensity : Nat := 0
  /-- Journal records on media and JournalDurable, as of the last loss of supply (R125). -/
  journal : SMap JRec := []
  journalDurable : Nat := 0
  /-- Sequence that the next record would have taken (R382). -/
  journalEnd : Nat := 0
  /-- Mapping saves begun, by 2,048 × set + slot, oldest first: the JournalSequence at each one's start and the entries by unit (R347). Which of them are
  whole the media says (R348). -/
  mapSaves : SMap (List (Nat × SMap Nat)) := []
  /-- Dump designation: its number and, by channel, die and die-block of dies A, B and C (R373). -/
  designation : Nat := 0
  dumpDies : SMap (List (Nat × Nat)) := []
  vigilEntry : Option VigilEntry := none
  /-- The dump of the last Vigil until its units are placed. -/
  dump : Option Dump := none
  deriving DecidableEq, Repr

/-- Faults of a step. None: the manual describes what the block does at every error it names, so no command stops the
machine with a fault. -/
inductive Fault where
  deriving DecidableEq, Repr

/-- Refusals of a step. -/
inductive Refusal where
  /-- Raised by `exec` for a command that has no meaning yet; safe: nothing can be proved of its effect. -/
  | notModelled (mnemonic : String)
  deriving DecidableEq, Repr

/-- The state of the block. -/
structure State where
  /-- Values of the Almanac's objects, by key; an object not listed holds its default (R44). -/
  objs : SMap Nat
  /-- Words of TEXT and BLOB objects, by key. -/
  blobs : SMap (List Word)
  /-- Commands that wait, first in first out (the model's own). -/
  pending : List Instr
  /-- What the block has sent, oldest first (the model's own record of its outputs). -/
  out : List Out
  /-- Microseconds of the reference oscillator, and their number at the last Cold entry. -/
  now : Nat
  coldAt : Nat
  /-- Number of free values drawn (the model's own). -/
  freeIdx : Nat
  paths : SMap PathState
  ports : SMap Port
  cf : CodeFlash
  rings : Rings
  win : Window
  ev : Events
  wr : WritePath
  fl : Flash
  dram : Dram
  cal : Cal
  pw : Power
  mon : Monitor
  sb : SMap SbPort
  grp : Group
  nv : Nv
  deriving DecidableEq, Repr

/-- A row word as it reads: data in [19:0], its check in [25:20], the number of zeros among the data bits (R449). -/
def cfEncode (w : Word) : BitVec 26 :=
  BitVec.ofNat 26 ((((List.range 20).filter (fun i => !w.getLsbD i)).length) * 1048576 + w.toNat)

/-- The machine right after reset: MOD_RST_N is low and the buffer is in Cold; every object holds its default; the pools,
the staging, the tables and the media list nothing; code flash is erased but for the row words that the manual prints
(R343, R350, R468). -/
def State.reset : State where
  objs := []
  blobs := []
  pending := []
  out := []
  now := 0
  coldAt := 0
  freeIdx := 0
  paths := []
  ports := []
  cf := {}
  rings := {}
  win := {}
  ev := {}
  wr := {}
  fl := {}
  dram := {}
  cal := {}
  pw := {}
  mon := {}
  sb := []
  grp := {}
  nv := { otp := [(0, cfEncode 0x0A7C1), (1, cfEncode 0x0D960), (2, cfEncode 0x000B0)] }

end Sys2Proof.Machine
end

