-- ==== Sys2Proof/Machine/Dict.lean ====
section
/-! DEFINITION. Dict.lean: the Almanac's object dictionary (R34 to R38, R59 to R62): every object row of the
manual's object tables with its type, access kind, class mask, default and range, and a name for every object's key.
An object's key is 256 times its index plus its subindex; the copy that a path of its own holds (R60) has the path's
offset added. -/

namespace Sys2Proof.Machine

/-- Key of the object at an index and subindex (R34). -/
abbrev key (idx sub : Nat) : Nat := 256 * idx + sub

/-- All forty bits of a duo. -/
abbrev allOnes40 : Nat := 0xFFFFFFFFFF

/-- Event sources that the manual lists (R232, R479): every channel source, and the device-level sources of R479. -/
def sourceExists (n : Nat) : Bool :=
  n < 1173 || (1176 ≤ n && n < 1184) || (1192 ≤ n && n < 1198) || (1200 ≤ n && n < 1205) || (1208 ≤ n && n < 1219)
    || (1224 ≤ n && n < 1227) || (1232 ≤ n && n < 1234)

/-- Severity of an event source (R478, R479): 0 information, 1 warning, 2 fault. -/
def evSeverityOf (n : Nat) : Nat :=
  if n < 1152 then
    (match n % 12 with
    | 0 => 0
    | 2 => 2
    | 3 => 2
    | 4 => 2
    | 5 => 2
    | _ => 1)
  else if n < 1160 then 1
  else if n < 1168 then 2
  else match n with
    | 1168 => 2
    | 1170 => 2
    | 1171 => 0
    | 1172 => 0
    | 1176 => 0
    | 1178 => 2
    | 1179 => 2
    | 1180 => 2
    | 1192 => 2
    | 1195 => 2
    | 1200 => 0
    | 1201 => 2
    | 1218 => 2
    | 1224 => 0
    | 1225 => 0
    | _ => 1

/-- Index 0x1000. -/
def rowsX1000 : List ObjRow :=
  [⟨"DeviceCode", 1, 1, .w20, .const, 15, .lit 55648, .full, allOnes40, 1⟩,
   ⟨"SiliconRevision", 2, 2, .u8, .const, 15, .lit 176, .full, allOnes40, 1⟩,
   ⟨"SerialNumber", 3, 3, .text, .ro, 15, .lit 0, .full, allOnes40, 32⟩]

/-- Index 0x1002. -/
def rowsX1002 : List ObjRow :=
  [⟨"EchoConstant", 1, 1, .w20, .const, 15, .lit 678965, .full, allOnes40, 1⟩]

/-- Index 0x1003. -/
def rowsX1003 : List ObjRow :=
  [⟨"PathClasses", 1, 1, .w20, .ro, 15, .lit 0, .full, allOnes40, 1⟩,
   ⟨"PathMaxWords", 2, 2, .w20, .ro, 15, .lit 0, .full, allOnes40, 1⟩]

/-- Index 0x1004. -/
def rowsX1004 : List ObjRow :=
  [⟨"QueryIndex", 1, 1, .w20, .rw, 15, .lit 0, .full, 0xFFFF, 1⟩,
   ⟨"QuerySubindex", 2, 2, .u8, .rw, 15, .lit 0, .full, allOnes40, 1⟩,
   ⟨"QueryResult", 3, 3, .w40, .ro, 15, .lit 0, .full, allOnes40, 1⟩]

/-- Index 0x1010. -/
def rowsX1010 : List ObjRow :=
  [⟨"RetainedAccepted", 1, 1, .w20, .ro, 15, .lit 0, .full, allOnes40, 1⟩,
   ⟨"RetainedDurable", 2, 2, .w20, .ro, 15, .lit 0, .full, allOnes40, 1⟩]

/-- Index 0x1011. -/
def rowsX1011 : List ObjRow :=
  [⟨"RestoreDefaults", 1, 1, .w20, .wo, 3, .lit 0, .oneOf [0x0DEF0], allOnes40, 1⟩,
   ⟨"RestoreSkipped", 2, 2, .w20, .ro, 15, .lit 0, .full, allOnes40, 1⟩]

/-- Index 0x1E00. -/
def rowsX1E00 : List ObjRow :=
  [⟨"TestNonce", 1, 1, .blob, .ro, 3, .lit 0, .full, allOnes40, 20⟩,
   ⟨"TestPublicKey", 2, 2, .blob, .wo, 3, .lit 0, .full, allOnes40, 39⟩,
   ⟨"TestSignature", 3, 3, .blob, .wo, 3, .lit 0, .full, allOnes40, 39⟩,
   ⟨"TestUnlock", 4, 4, .bool, .wo, 3, .lit 0, .full, allOnes40, 1⟩,
   ⟨"TestState", 5, 5, .u8, .ro, 11, .lit 0, .full, allOnes40, 1⟩,
   ⟨"TestLock", 6, 6, .bool, .wo, 11, .lit 0, .full, allOnes40, 1⟩]

/-- Channel block offset +0x00 (R62). -/
def rowsCh00 : List ObjRow :=
  [⟨"ChannelNumber", 1, 1, .u8, .const, 15, .chan, .full, allOnes40, 1⟩,
   ⟨"DiesFitted", 2, 2, .w20, .ro, 15, .lit 0, .full, allOnes40, 1⟩,
   ⟨"DieDensity", 3, 3, .u8, .ro, 15, .lit 0, .full, allOnes40, 1⟩,
   ⟨"EventBase", 4, 4, .w20, .const, 15, .chan12, .full, allOnes40, 1⟩]

/-- Channel block offset +0x01 (R62). -/
def rowsCh01 : List ObjRow :=
  [⟨"State", 1, 1, .u8, .ro, 15, .lit 0, .full, allOnes40, 1⟩,
   ⟨"StripeSet", 2, 2, .u8, .ro, 15, .lit 255, .full, allOnes40, 1⟩,
   ⟨"MemberPosition", 3, 3, .u8, .ro, 15, .lit 255, .full, allOnes40, 1⟩,
   ⟨"AdminIsolate", 4, 4, .bool, .rw, 3, .lit 0, .full, allOnes40, 1⟩]

/-- Channel block offset +0x02 (R62). -/
def rowsCh02 : List ObjRow :=
  [⟨"DataRate", 1, 1, .w20, .rwp, 3, .lit 3600, .oneOf [1600, 2400, 3200, 3600], allOnes40, 1⟩,
   ⟨"DriveCode", 2, 2, .u8, .rwp, 3, .lit 2, .upTo 0 3, allOnes40, 1⟩,
   ⟨"OdtCode", 3, 3, .u8, .rwp, 3, .lit 1, .upTo 0 3, allOnes40, 1⟩]

/-- Channel block offset +0x03 (R62). -/
def rowsCh03 : List ObjRow :=
  [⟨"EyeWidth", 1, 1, .w20, .ro, 15, .lit 0, .full, allOnes40, 1⟩,
   ⟨"EyeHeight", 2, 2, .w20, .ro, 15, .lit 0, .full, allOnes40, 1⟩,
   ⟨"ResidualBer", 3, 3, .w20, .ro, 15, .lit 0, .full, allOnes40, 1⟩,
   ⟨"CalSource", 4, 4, .u8, .ro, 15, .lit 0, .full, allOnes40, 1⟩,
   ⟨"Recalibrate", 5, 5, .bool, .wo, 3, .lit 0, .full, allOnes40, 1⟩]

/-- Channel block offset +0x04 (R62). -/
def rowsCh04 : List ObjRow :=
  [⟨"DqDelay", 1, 8, .w20, .ro, 15, .lit 0, .full, allOnes40, 1⟩]

/-- Channel block offset +0x05 (R62). -/
def rowsCh05 : List ObjRow :=
  [⟨"DqsDelay", 1, 1, .w20, .ro, 15, .lit 0, .full, allOnes40, 1⟩,
   ⟨"ReDelay", 2, 2, .w20, .ro, 15, .lit 0, .full, allOnes40, 1⟩]

/-- Channel block offset +0x06 (R62). -/
def rowsCh06 : List ObjRow :=
  [⟨"ThresholdOffset", 1, 16, .s20, .ro, 15, .lit 0, .full, allOnes40, 1⟩]

/-- Channel block offset +0x08 (R62). -/
def rowsCh08 : List ObjRow :=
  [⟨"PageReads", 1, 1, .w40, .ro, 15, .lit 0, .full, allOnes40, 1⟩,
   ⟨"PagePrograms", 2, 2, .w40, .ro, 15, .lit 0, .full, allOnes40, 1⟩,
   ⟨"BlockErases", 3, 3, .w40, .ro, 15, .lit 0, .full, allOnes40, 1⟩]

/-- Channel block offset +0x09 (R62). -/
def rowsCh09 : List ObjRow :=
  [⟨"DieEraseCount", 1, 16, .w40, .ro, 15, .lit 0, .full, allOnes40, 1⟩]

/-- Channel block offset +0x0A (R62). -/
def rowsCh0A : List ObjRow :=
  [⟨"DieProgramCount", 1, 16, .w40, .ro, 15, .lit 0, .full, allOnes40, 1⟩]

/-- Channel block offset +0x0C (R62). -/
def rowsCh0C : List ObjRow :=
  [⟨"LadderCount", 1, 5, .w40, .ro, 15, .lit 0, .full, allOnes40, 1⟩]

/-- Channel block offset +0x10 (R62). -/
def rowsCh10 : List ObjRow :=
  [⟨"DieTemperature", 1, 16, .s20, .ro, 15, .lit 0, .full, allOnes40, 1⟩]

/-- Channel block offset +0x11 (R62). -/
def rowsCh11 : List ObjRow :=
  [⟨"ThrottleLimit", 1, 1, .s20, .rwp, 3, .lit 1360, .signed 960 1600, allOnes40, 1⟩,
   ⟨"ThrottleActive", 2, 2, .bool, .ro, 15, .lit 0, .full, allOnes40, 1⟩]

/-- Channel block offset +0x14 (R62). -/
def rowsCh14 : List ObjRow :=
  [⟨"ShortMask", 1, 1, .w20, .ro, 15, .lit 0, .full, allOnes40, 1⟩,
   ⟨"OpenMask", 2, 2, .w20, .ro, 15, .lit 0, .full, allOnes40, 1⟩,
   ⟨"PinCurrentPeak", 3, 3, .s20, .ro, 15, .lit 0, .full, allOnes40, 1⟩]

/-- Channel block offset +0x18 (R62). -/
def rowsCh18 : List ObjRow :=
  [⟨"DieState", 1, 16, .u8, .ro, 15, .lit 0, .full, allOnes40, 1⟩]

/-- Channel block offset +0x19 (R62). -/
def rowsCh19 : List ObjRow :=
  [⟨"DieQueueDepth", 1, 16, .u8, .ro, 15, .lit 0, .full, allOnes40, 1⟩]

/-- Index 0xA000+n. -/
def rowsXA000_n : List ObjRow :=
  [⟨"Enable", 1, 1, .bool, .rw, 9, .lit 0, .full, allOnes40, 1⟩,
   ⟨"Base", 2, 2, .w20, .rw, 9, .lit 0, .full, allOnes40, 1⟩,
   ⟨"SizeLog2", 3, 3, .u8, .rw, 9, .lit 4, .upTo 4 16, allOnes40, 1⟩,
   ⟨"Placement", 4, 4, .w40, .rw, 9, .lit 0, .full, 0xFFFF000000, 1⟩,
   ⟨"CompletionRing", 5, 5, .w20, .rw, 9, .lit 0, .upTo 0 4095, allOnes40, 1⟩,
   ⟨"Priority", 6, 6, .u8, .rw, 9, .lit 1, .upTo 0 3, allOnes40, 1⟩,
   ⟨"Weight", 7, 7, .u8, .rw, 9, .lit 4, .upTo 1 16, allOnes40, 1⟩,
   ⟨"FallbackPlacement", 8, 8, .w40, .rw, 9, .lit 0, .full, 0xFFFF000000, 1⟩,
   ⟨"Head", 9, 9, .w20, .ro, 15, .lit 0, .full, allOnes40, 1⟩,
   ⟨"Tail", 10, 10, .w20, .ro, 15, .lit 0, .full, allOnes40, 1⟩,
   ⟨"Epoch", 11, 11, .u8, .ro, 15, .lit 0, .full, allOnes40, 1⟩,
   ⟨"InFlight", 12, 12, .w20, .ro, 15, .lit 0, .full, allOnes40, 1⟩,
   ⟨"State", 13, 13, .u8, .ro, 15, .lit 0, .full, allOnes40, 1⟩,
   ⟨"AbortRing", 14, 14, .bool, .wo, 11, .lit 0, .full, allOnes40, 1⟩]

/-- Index 0xC000+m. -/
def rowsXC000_m : List ObjRow :=
  [⟨"Enable", 1, 1, .bool, .rw, 9, .lit 0, .full, allOnes40, 1⟩,
   ⟨"Base", 2, 2, .w20, .rw, 9, .lit 0, .full, allOnes40, 1⟩,
   ⟨"SizeLog2", 3, 3, .u8, .rw, 9, .lit 4, .upTo 4 16, allOnes40, 1⟩,
   ⟨"NotifyCount", 4, 4, .w20, .rw, 9, .lit 1, .full, allOnes40, 1⟩,
   ⟨"NotifyDelay", 5, 5, .w20, .rw, 9, .lit 0, .upTo 0 1000, allOnes40, 1⟩,
   ⟨"NotifyEnable", 6, 6, .bool, .rw, 9, .lit 1, .full, allOnes40, 1⟩,
   ⟨"Head", 7, 7, .w20, .ro, 15, .lit 0, .full, allOnes40, 1⟩,
   ⟨"Tail", 8, 8, .w20, .ro, 15, .lit 0, .full, allOnes40, 1⟩,
   ⟨"Phase", 9, 9, .bool, .ro, 15, .lit 1, .full, allOnes40, 1⟩,
   ⟨"Reserved", 10, 10, .w20, .ro, 15, .lit 0, .full, allOnes40, 1⟩]

/-- Index 0x5800. -/
def rowsX5800 : List ObjRow :=
  [⟨"StagingSlotsFree", 1, 1, .w20, .ro, 15, .lit 2520, .full, allOnes40, 1⟩,
   ⟨"HostSlotsInUse", 2, 2, .w20, .ro, 15, .lit 0, .full, allOnes40, 1⟩,
   ⟨"HostSlotsPeak", 3, 3, .w20, .ro, 15, .lit 0, .full, allOnes40, 1⟩,
   ⟨"RowCloseDelay", 4, 4, .w20, .rwp, 3, .lit 100, .upTo 1 10000, allOnes40, 1⟩,
   ⟨"WritesAcknowledged", 5, 5, .w40, .ro, 15, .lit 0, .full, allOnes40, 1⟩,
   ⟨"ReplaysMatched", 6, 6, .w40, .ro, 15, .lit 0, .full, allOnes40, 1⟩,
   ⟨"PartialMerges", 7, 7, .w40, .ro, 15, .lit 0, .full, allOnes40, 1⟩,
   ⟨"UnitsSuperseded", 8, 8, .w40, .ro, 15, .lit 0, .full, allOnes40, 1⟩,
   ⟨"FillerPages", 9, 9, .w40, .ro, 15, .lit 0, .full, allOnes40, 1⟩,
   ⟨"ProgramFailures", 10, 10, .w40, .ro, 15, .lit 0, .full, allOnes40, 1⟩,
   ⟨"JournalSequence", 11, 11, .w40, .ro, 15, .lit 0, .full, allOnes40, 1⟩,
   ⟨"JournalDurable", 12, 12, .w40, .ro, 15, .lit 0, .full, allOnes40, 1⟩,
   ⟨"TagWindowEntries", 13, 13, .w20, .ro, 15, .lit 0, .full, allOnes40, 1⟩,
   ⟨"ShadowInUse", 14, 14, .w20, .ro, 15, .lit 0, .full, allOnes40, 1⟩]

/-- Index 0x5810+s. -/
def rowsX5810_s : List ObjRow :=
  [⟨"OpenRows", 1, 1, .u8, .ro, 15, .lit 0, .full, allOnes40, 1⟩,
   ⟨"QueuedUnits", 2, 2, .w20, .ro, 15, .lit 0, .full, allOnes40, 1⟩,
   ⟨"RowsProgrammed", 3, 3, .w40, .ro, 15, .lit 0, .full, allOnes40, 1⟩,
   ⟨"ErasedRowBlocks", 4, 4, .w20, .ro, 15, .lit 0, .full, allOnes40, 1⟩,
   ⟨"WriteStalled", 5, 5, .bool, .ro, 15, .lit 0, .full, allOnes40, 1⟩]

/-- Index 0x5900. -/
def rowsX5900 : List ObjRow :=
  [⟨"ReadsCompleted", 1, 1, .w40, .ro, 15, .lit 0, .full, allOnes40, 1⟩,
   ⟨"BlocksDelivered", 2, 2, .w40, .ro, 15, .lit 0, .full, allOnes40, 1⟩,
   ⟨"MapCacheHits", 3, 3, .w40, .ro, 15, .lit 0, .full, allOnes40, 1⟩,
   ⟨"MapCacheMisses", 4, 4, .w40, .ro, 15, .lit 0, .full, allOnes40, 1⟩,
   ⟨"DegradedReads", 5, 5, .w40, .ro, 15, .lit 0, .full, allOnes40, 1⟩,
   ⟨"FramesReconstructed", 6, 6, .w40, .ro, 15, .lit 0, .full, allOnes40, 1⟩,
   ⟨"BlocksLost", 7, 7, .w40, .ro, 15, .lit 0, .full, allOnes40, 1⟩,
   ⟨"BlocksTorn", 8, 8, .w40, .ro, 15, .lit 0, .full, allOnes40, 1⟩,
   ⟨"ProgramHoldoff", 9, 9, .w20, .rwp, 3, .lit 60, .upTo 0 100, allOnes40, 1⟩,
   ⟨"SoftQueueDepth", 10, 10, .w20, .ro, 15, .lit 0, .full, allOnes40, 1⟩,
   ⟨"SoftQueuePeak", 11, 11, .w20, .ro, 15, .lit 0, .full, allOnes40, 1⟩,
   ⟨"ReorderPeak", 12, 12, .w20, .ro, 15, .lit 0, .full, allOnes40, 1⟩,
   ⟨"EraseWaits", 13, 13, .w40, .ro, 15, .lit 0, .full, allOnes40, 1⟩]

/-- Index 0x5901. -/
def rowsX5901 : List ObjRow :=
  [⟨"RetuneGain", 1, 1, .u8, .rwp, 3, .lit 3, .upTo 1 8, allOnes40, 1⟩,
   ⟨"DensityTolerance", 2, 2, .w20, .const, 15, .lit 40, .full, allOnes40, 1⟩,
   ⟨"SoftDelta", 3, 3, .u8, .rwp, 3, .lit 4, .upTo 1 15, allOnes40, 1⟩,
   ⟨"RetuneLearn", 4, 4, .bool, .rwp, 3, .lit 1, .full, allOnes40, 1⟩,
   ⟨"LearnWindow", 5, 5, .w20, .rwp, 3, .lit 256, .upTo 16 4096, allOnes40, 1⟩,
   ⟨"ModelGeneration", 6, 6, .w20, .ro, 15, .lit 0, .full, allOnes40, 1⟩,
   ⟨"Step2Skipped", 7, 7, .w40, .ro, 15, .lit 0, .full, allOnes40, 1⟩]

/-- Index 0x5902. -/
def rowsX5902 : List ObjRow :=
  [⟨"LdpcBaseMatrix", 1, 1, .blob, .const, 15, .lit 0, .full, allOnes40, 1859⟩,
   ⟨"HardIterationLimit", 2, 2, .u8, .const, 15, .lit 20, .full, allOnes40, 1⟩,
   ⟨"SoftIterationLimit", 3, 3, .u8, .const, 15, .lit 30, .full, allOnes40, 1⟩,
   ⟨"HardDecodes", 4, 4, .w40, .ro, 15, .lit 0, .full, allOnes40, 1⟩,
   ⟨"SoftDecodes", 5, 5, .w40, .ro, 15, .lit 0, .full, allOnes40, 1⟩,
   ⟨"LlrTable", 6, 6, .w20, .rwp, 3, .lit 3019, .upTo 0 4095, allOnes40, 1⟩]

/-- Index 0x5000. -/
def rowsX5000 : List ObjRow :=
  [⟨"SpareReserve", 1, 1, .w20, .rwp, 3, .lit 48, .upTo 16 128, allOnes40, 1⟩,
   ⟨"LossNoticeRing", 2, 2, .w20, .rw, 9, .lit 0, .upTo 0 4095, allOnes40, 1⟩,
   ⟨"LossRecordsIssued", 3, 3, .w40, .ro, 15, .lit 0, .full, allOnes40, 1⟩,
   ⟨"LossAckedThrough", 4, 4, .w40, .ro, 15, .lit 0, .full, allOnes40, 1⟩,
   ⟨"LossAck", 5, 5, .w40, .wo, 9, .lit 0, .full, allOnes40, 1⟩,
   ⟨"LossPending", 6, 6, .w20, .ro, 15, .lit 0, .full, allOnes40, 1⟩,
   ⟨"LossDetail", 7, 7, .bool, .rw, 3, .lit 1, .full, allOnes40, 1⟩]

/-- Index 0x5001. -/
def rowsX5001 : List ObjRow :=
  [⟨"LossSelect", 1, 1, .w40, .rw, 15, .lit 0, .full, allOnes40, 1⟩,
   ⟨"LossRecord", 2, 2, .blob, .ro, 15, .lit 0, .full, allOnes40, 48⟩]

/-- Index 0x5010+s. -/
def rowsX5010_s : List ObjRow :=
  [⟨"State", 1, 1, .u8, .ro, 15, .lit 0, .full, allOnes40, 1⟩,
   ⟨"Protection", 2, 2, .u8, .ro, 15, .lit 0, .full, allOnes40, 1⟩,
   ⟨"Width", 3, 3, .u8, .ro, 15, .lit 0, .full, allOnes40, 1⟩,
   ⟨"Generation", 4, 4, .w20, .ro, 15, .lit 0, .full, allOnes40, 1⟩,
   ⟨"LostLow", 5, 5, .w40, .ro, 15, .lit 0, .full, allOnes40, 1⟩,
   ⟨"LostHigh", 6, 6, .u8, .ro, 15, .lit 0, .full, allOnes40, 1⟩,
   ⟨"LogicalUnits", 7, 7, .w40, .rw, 3, .lit 0, .full, allOnes40, 1⟩,
   ⟨"HighestMapped", 8, 8, .w40, .ro, 15, .lit 0, .full, allOnes40, 1⟩,
   ⟨"MaxLogicalUnits", 9, 9, .w40, .ro, 15, .lit 0, .full, allOnes40, 1⟩,
   ⟨"RebuildFitUnits", 10, 10, .w40, .ro, 15, .lit 0, .full, allOnes40, 1⟩,
   ⟨"LiveUnits", 11, 11, .w40, .ro, 15, .lit 0, .full, allOnes40, 1⟩,
   ⟨"SetSpareReserve", 12, 12, .w20, .ro, 15, .lit 0, .full, allOnes40, 1⟩,
   ⟨"SpareFree", 13, 13, .w20, .ro, 15, .lit 0, .full, allOnes40, 1⟩,
   ⟨"WalkBoundary", 14, 14, .w40, .ro, 15, .lit 0, .full, allOnes40, 1⟩,
   ⟨"WalkRowsLeft", 15, 15, .w40, .ro, 15, .lit 0, .full, allOnes40, 1⟩,
   ⟨"WalkRate", 16, 16, .w20, .rwp, 3, .lit 40, .upTo 1 200, allOnes40, 1⟩,
   ⟨"RebuildAuto", 17, 17, .bool, .rwp, 3, .lit 1, .full, allOnes40, 1⟩,
   ⟨"RebuildStart", 18, 18, .bool, .wo, 3, .lit 0, .full, allOnes40, 1⟩,
   ⟨"BlockReason", 19, 19, .u8, .ro, 15, .lit 0, .full, allOnes40, 1⟩]

/-- Index 0x5020+s. -/
def rowsX5020_s : List ObjRow :=
  [⟨"SetMembers", 1, 48, .u8, .ro, 15, .lit 255, .full, allOnes40, 1⟩]

/-- Index 0x5030. -/
def rowsX5030 : List ObjRow :=
  [⟨"PlanSet", 1, 1, .u8, .rw, 3, .lit 0, .upTo 0 7, allOnes40, 1⟩,
   ⟨"PlanWidth", 2, 2, .u8, .rw, 3, .lit 0, .zeroOr 12 48, allOnes40, 1⟩,
   ⟨"PlanCommit", 3, 3, .bool, .wo, 3, .lit 0, .full, allOnes40, 1⟩,
   ⟨"RetireChannel", 4, 4, .u8, .rw, 3, .lit 0, .upTo 0 95, allOnes40, 1⟩,
   ⟨"RetireDie", 5, 5, .u8, .rw, 3, .lit 0, .upTo 0 15, allOnes40, 1⟩,
   ⟨"RetireCommit", 6, 6, .bool, .wo, 3, .lit 0, .full, allOnes40, 1⟩]

/-- Index 0x5031. -/
def rowsX5031 : List ObjRow :=
  [⟨"PlanMembers", 1, 48, .u8, .rw, 3, .lit 255, .upToOr 0 95 0xFF, allOnes40, 1⟩]

/-- Index 0x7800. -/
def rowsX7800 : List ObjRow :=
  [⟨"WeightValid", 1, 1, .u8, .rwp, 3, .lit 8, .full, allOnes40, 1⟩,
   ⟨"WeightAge", 2, 2, .u8, .rwp, 3, .lit 2, .full, allOnes40, 1⟩,
   ⟨"WeightWear", 3, 3, .u8, .rwp, 3, .lit 1, .full, allOnes40, 1⟩,
   ⟨"HarvestRate", 4, 4, .w20, .rwp, 3, .lit 50, .upTo 1 250, allOnes40, 1⟩,
   ⟨"HarvestUrgent", 5, 5, .w20, .rwp, 3, .lit 8, .upTo 1 32, allOnes40, 1⟩,
   ⟨"WearSpread", 6, 6, .w20, .rwp, 3, .lit 1024, .upTo 256 8192, allOnes40, 1⟩,
   ⟨"DwellLimit", 7, 7, .w20, .rwp, 3, .lit 1440, .upTo 60 10080, allOnes40, 1⟩,
   ⟨"RowBlocksReclaimed", 8, 8, .w40, .ro, 15, .lit 0, .full, allOnes40, 1⟩,
   ⟨"UnitsCopied", 9, 9, .w40, .ro, 15, .lit 0, .full, allOnes40, 1⟩,
   ⟨"CopyDiscarded", 10, 10, .w40, .ro, 15, .lit 0, .full, allOnes40, 1⟩,
   ⟨"ReclaimsAhead", 11, 11, .w40, .ro, 15, .lit 0, .full, allOnes40, 1⟩]

/-- Index 0x7810+s. -/
def rowsX7810_s : List ObjRow :=
  [⟨"HarvestState", 1, 1, .u8, .ro, 15, .lit 0, .full, allOnes40, 1⟩,
   ⟨"CurrentVictim", 2, 2, .w20, .ro, 15, .lit 1048575, .full, allOnes40, 1⟩,
   ⟨"VictimValidUnits", 3, 3, .w40, .ro, 15, .lit 0, .full, allOnes40, 1⟩,
   ⟨"CandidateCount", 4, 4, .w20, .ro, 15, .lit 0, .full, allOnes40, 1⟩]

/-- Index 0x7801. -/
def rowsX7801 : List ObjRow :=
  [⟨"CalendsNow", 1, 1, .w40, .rw, 3, .lit 0, .full, allOnes40, 1⟩,
   ⟨"ClockTrusted", 2, 2, .bool, .ro, 15, .lit 0, .full, allOnes40, 1⟩,
   ⟨"TagsMissing", 3, 3, .w20, .ro, 15, .lit 0, .full, allOnes40, 1⟩]

/-- Index 0x7802. -/
def rowsX7802 : List ObjRow :=
  [⟨"DieBlockSelect", 1, 1, .w40, .rw, 15, .lit 0, .upTo 0 3145727, allOnes40, 1⟩,
   ⟨"HarvestRecord", 2, 2, .w40, .ro, 15, .lit 0, .full, allOnes40, 1⟩,
   ⟨"CalendsTag", 3, 3, .w40, .ro, 15, .lit 0, .full, allOnes40, 1⟩]

/-- Index 0x7803. -/
def rowsX7803 : List ObjRow :=
  [⟨"ScrubEnable", 1, 1, .bool, .rwp, 3, .lit 1, .full, allOnes40, 1⟩,
   ⟨"ScrubPeriod", 2, 2, .w20, .rwp, 3, .lit 168, .upTo 24 2160, allOnes40, 1⟩,
   ⟨"ScrubRefreshStep", 3, 3, .u8, .rwp, 3, .lit 3, .upTo 2 4, allOnes40, 1⟩,
   ⟨"RefreshAge", 4, 4, .w40, .rwp, 3, .lit 525600, .zeroOr 43200 5256000, allOnes40, 1⟩,
   ⟨"ScrubProgress", 5, 5, .w20, .ro, 15, .lit 0, .full, allOnes40, 1⟩,
   ⟨"ScrubPagesRead", 6, 6, .w40, .ro, 15, .lit 0, .full, allOnes40, 1⟩,
   ⟨"RefreshFlagged", 7, 7, .w40, .ro, 15, .lit 0, .full, allOnes40, 1⟩]

/-- Index 0x7820. -/
def rowsX7820 : List ObjRow :=
  [⟨"SpareLeft", 1, 1, .w20, .ro, 15, .lit 0, .full, allOnes40, 1⟩,
   ⟨"WearUsedMean", 2, 2, .w20, .ro, 15, .lit 0, .full, allOnes40, 1⟩,
   ⟨"WearUsedMax", 3, 3, .w20, .ro, 15, .lit 0, .full, allOnes40, 1⟩,
   ⟨"RatedCycles", 4, 4, .w20, .ro, 15, .lit 0, .full, allOnes40, 1⟩,
   ⟨"SpareWarn", 5, 5, .w20, .rwp, 3, .lit 2000, .upTo 0 10000, allOnes40, 1⟩,
   ⟨"WearWarn", 6, 6, .w20, .rwp, 3, .lit 9000, .upTo 0 20000, allOnes40, 1⟩,
   ⟨"HealthFlags", 7, 7, .w20, .ro, 15, .lit 0, .full, allOnes40, 1⟩,
   ⟨"TempHistDie", 8, 8, .w20, .rw, 15, .lit 0, .upTo 0 1535, allOnes40, 1⟩,
   ⟨"TempHistogram", 9, 9, .blob, .ro, 15, .lit 0, .full, allOnes40, 16⟩]

/-- Index 0x7821. -/
def rowsX7821 : List ObjRow :=
  [⟨"LadderTotal", 1, 5, .w40, .ro, 15, .lit 0, .full, allOnes40, 1⟩]

/-- Index 0x4000. -/
def rowsX4000 : List ObjRow :=
  [⟨"DramRate", 1, 1, .w20, .rwp, 3, .lit 6400, .oneOf [4800, 5600, 6400], allOnes40, 1⟩,
   ⟨"SelfRefreshIdle", 2, 2, .w20, .rwp, 3, .lit 20, .zeroOr 2 10000, allOnes40, 1⟩,
   ⟨"RowHammerThreshold", 3, 3, .w20, .rwp, 3, .lit 2048, .upTo 256 8192, allOnes40, 1⟩,
   ⟨"CorrectableLimit", 4, 4, .w20, .rwp, 3, .lit 1024, .zeroOr 16 65535, allOnes40, 1⟩,
   ⟨"MigrationShare", 5, 5, .u8, .rwp, 3, .lit 50, .upTo 10 50, allOnes40, 1⟩,
   ⟨"SparesLeft", 6, 6, .u8, .ro, 15, .lit 0, .full, allOnes40, 1⟩,
   ⟨"MapSegmentsInUse", 7, 7, .w20, .ro, 15, .lit 0, .full, allOnes40, 1⟩,
   ⟨"NeighbourRefreshes", 8, 8, .w40, .ro, 15, .lit 0, .full, allOnes40, 1⟩,
   ⟨"PanicEpisodes", 9, 9, .w40, .ro, 15, .lit 0, .full, allOnes40, 1⟩,
   ⟨"InOrderEpisodes", 10, 10, .w40, .ro, 15, .lit 0, .full, allOnes40, 1⟩,
   ⟨"RegionRecoveries", 11, 11, .w40, .ro, 15, .lit 0, .full, allOnes40, 1⟩,
   ⟨"RecoveriesPending", 12, 12, .w20, .ro, 15, .lit 0, .full, allOnes40, 1⟩,
   ⟨"PatrolPasses", 13, 13, .w40, .ro, 15, .lit 0, .full, allOnes40, 1⟩]

/-- Index 0x4010+s. -/
def rowsX4010_s : List ObjRow :=
  [⟨"RankState0", 1, 1, .u8, .ro, 15, .lit 0, .full, allOnes40, 1⟩,
   ⟨"RankState1", 2, 2, .u8, .ro, 15, .lit 0, .full, allOnes40, 1⟩,
   ⟨"SpareHalfState", 3, 3, .u8, .ro, 15, .lit 0, .full, allOnes40, 1⟩,
   ⟨"SpareReplaces", 4, 4, .u8, .ro, 15, .lit 255, .full, allOnes40, 1⟩,
   ⟨"MigrationProgress", 5, 5, .w20, .ro, 15, .lit 0, .full, allOnes40, 1⟩,
   ⟨"CorrectedErrors", 6, 6, .w40, .ro, 15, .lit 0, .full, allOnes40, 1⟩,
   ⟨"UncorrectableErrors", 7, 7, .w40, .ro, 15, .lit 0, .full, allOnes40, 1⟩,
   ⟨"CommandParityErrors", 8, 8, .w40, .ro, 15, .lit 0, .full, allOnes40, 1⟩,
   ⟨"RetireRank", 9, 9, .u8, .wo, 3, .lit 0, .upTo 0 1, allOnes40, 1⟩,
   ⟨"EyeWidth", 10, 10, .w20, .ro, 15, .lit 0, .full, allOnes40, 1⟩,
   ⟨"EyeHeight", 11, 11, .w20, .ro, 15, .lit 0, .full, allOnes40, 1⟩,
   ⟨"ResidualBer", 12, 12, .w20, .ro, 15, .lit 0, .full, allOnes40, 1⟩,
   ⟨"CalSource", 13, 13, .u8, .ro, 15, .lit 0, .full, allOnes40, 1⟩]

/-- Index 0x4020. -/
def rowsX4020 : List ObjRow :=
  [⟨"HelperSubchannel", 1, 1, .u8, .rw, 11, .lit 0, .upTo 0 7, allOnes40, 1⟩,
   ⟨"HelperRank", 2, 2, .u8, .rw, 11, .lit 0, .upTo 0 2, allOnes40, 1⟩,
   ⟨"HelperPattern", 3, 3, .u8, .rw, 11, .lit 0, .upTo 0 3, allOnes40, 1⟩,
   ⟨"HelperFixed", 4, 4, .w40, .rw, 11, .lit 0, .full, allOnes40, 1⟩,
   ⟨"HelperReadDelay", 5, 5, .s20, .rw, 11, .lit 0, .signed (-64) 63, allOnes40, 1⟩,
   ⟨"HelperWriteDelay", 6, 6, .s20, .rw, 11, .lit 0, .signed (-64) 63, allOnes40, 1⟩,
   ⟨"HelperReadVref", 7, 7, .s20, .rw, 11, .lit 0, .signed (-32) 31, allOnes40, 1⟩,
   ⟨"HelperDramVref", 8, 8, .w20, .rw, 11, .lit 1048575, .full, allOnes40, 1⟩,
   ⟨"HelperBursts", 9, 9, .w20, .rw, 11, .lit 65536, .upTo 1 262144, allOnes40, 1⟩,
   ⟨"HelperStart", 10, 10, .bool, .wo, 11, .lit 0, .full, allOnes40, 1⟩,
   ⟨"HelperState", 11, 11, .u8, .ro, 15, .lit 0, .full, allOnes40, 1⟩,
   ⟨"HelperLaneErrors", 12, 12, .blob, .ro, 15, .lit 0, .full, allOnes40, 40⟩,
   ⟨"HelperFirstFail", 13, 13, .w40, .ro, 15, .lit 1099511627775, .full, allOnes40, 1⟩,
   ⟨"HelperBurstsDone", 14, 14, .w20, .ro, 15, .lit 0, .full, allOnes40, 1⟩]

/-- Port block offset +0x00 (R317). -/
def rowsPort00 : List ObjRow :=
  [⟨"PortNumber", 1, 1, .u8, .const, 15, .port, .full, allOnes40, 1⟩,
   ⟨"LaneCount", 2, 2, .u8, .const, 15, .lanes, .full, allOnes40, 1⟩,
   ⟨"LinkState", 3, 3, .u8, .ro, 15, .lit 0, .full, allOnes40, 1⟩,
   ⟨"Width", 4, 4, .u8, .ro, 15, .lit 0, .full, allOnes40, 1⟩,
   ⟨"LaneMap", 5, 5, .w20, .ro, 15, .lit 0, .full, allOnes40, 1⟩,
   ⟨"FailedLanes", 6, 6, .w20, .ro, 15, .lit 0, .full, allOnes40, 1⟩,
   ⟨"CalSource", 7, 7, .u8, .ro, 15, .lit 0, .full, allOnes40, 1⟩,
   ⟨"Retrain", 8, 8, .bool, .wo, 3, .lit 0, .full, allOnes40, 1⟩,
   ⟨"FullTrain", 9, 9, .bool, .wo, 3, .lit 0, .full, allOnes40, 1⟩,
   ⟨"LinkReset", 10, 10, .bool, .wo, 2, .lit 0, .full, allOnes40, 1⟩]

/-- Port block offset +0x01 (R317). -/
def rowsPort01 : List ObjRow :=
  [⟨"FlitsSent", 1, 1, .w40, .ro, 15, .lit 0, .full, allOnes40, 1⟩,
   ⟨"FlitsReceived", 2, 2, .w40, .ro, 15, .lit 0, .full, allOnes40, 1⟩,
   ⟨"CrcErrors", 3, 3, .w40, .ro, 15, .lit 0, .full, allOnes40, 1⟩,
   ⟨"SyncSymbolErrors", 4, 4, .w40, .ro, 15, .lit 0, .full, allOnes40, 1⟩,
   ⟨"NaksSent", 5, 5, .w40, .ro, 15, .lit 0, .full, allOnes40, 1⟩,
   ⟨"NaksReceived", 6, 6, .w40, .ro, 15, .lit 0, .full, allOnes40, 1⟩,
   ⟨"FlitsReplayed", 7, 7, .w40, .ro, 15, .lit 0, .full, allOnes40, 1⟩,
   ⟨"DuplicatesDropped", 8, 8, .w40, .ro, 15, .lit 0, .full, allOnes40, 1⟩,
   ⟨"Realigns", 9, 9, .w40, .ro, 15, .lit 0, .full, allOnes40, 1⟩,
   ⟨"Retrains", 10, 10, .w40, .ro, 15, .lit 0, .full, allOnes40, 1⟩,
   ⟨"LinkResets", 11, 11, .w40, .ro, 15, .lit 0, .full, allOnes40, 1⟩,
   ⟨"MalformedPackets", 12, 12, .w40, .ro, 15, .lit 0, .full, allOnes40, 1⟩]

/-- Port block offset +0x02 (R317). -/
def rowsPort02 : List ObjRow :=
  [⟨"ReplayTimeout", 1, 1, .w20, .rwp, 3, .lit 1000, .upTo 500 20000, allOnes40, 1⟩,
   ⟨"CrcRetrainLimit", 2, 2, .w20, .rwp, 3, .lit 64, .upTo 8 1024, allOnes40, 1⟩,
   ⟨"PartnerCreditP", 3, 3, .w20, .ro, 15, .lit 0, .full, allOnes40, 1⟩,
   ⟨"PartnerCreditN", 4, 4, .w20, .ro, 15, .lit 0, .full, allOnes40, 1⟩,
   ⟨"UnackedFlits", 5, 5, .w20, .ro, 15, .lit 0, .full, allOnes40, 1⟩,
   ⟨"LinkResetHost", 6, 6, .bool, .ro, 15, .lit 0, .full, allOnes40, 1⟩]

/-- Port block offset +0x03 (R317). -/
def rowsPort03 : List ObjRow :=
  [⟨"EyeWidth", 1, 1, .w20, .ro, 15, .lit 0, .full, allOnes40, 1⟩,
   ⟨"EyeHeight", 2, 2, .w20, .ro, 15, .lit 0, .full, allOnes40, 1⟩,
   ⟨"ResidualBer", 3, 3, .w20, .ro, 15, .lit 0, .full, allOnes40, 1⟩]

/-- Port block offset +0x04 (R317). -/
def rowsPort04 : List ObjRow :=
  [⟨"LaneEyeWidth", 1, 16, .w20, .ro, 15, .lit 0, .full, allOnes40, 1⟩]

/-- Port block offset +0x05 (R317). -/
def rowsPort05 : List ObjRow :=
  [⟨"LaneEyeHeight", 1, 16, .w20, .ro, 15, .lit 0, .full, allOnes40, 1⟩]

/-- Port block offset +0x06 (R317). -/
def rowsPort06 : List ObjRow :=
  [⟨"LaneResidualBer", 1, 16, .w20, .ro, 15, .lit 0, .full, allOnes40, 1⟩]

/-- Port block offset +0x07 (R317). -/
def rowsPort07 : List ObjRow :=
  [⟨"LaneTxTaps", 1, 16, .w40, .ro, 15, .lit 0, .full, allOnes40, 1⟩]

/-- Index 0x9000. -/
def rowsX9000 : List ObjRow :=
  [⟨"CalStoreMode", 1, 1, .u8, .rwp, 11, .lit 1, .upTo 0 1, allOnes40, 1⟩,
   ⟨"CalStoreHold", 2, 2, .w20, .rwp, 11, .lit 24, .upTo 1 8760, allOnes40, 1⟩,
   ⟨"ReapplyStep", 3, 3, .u8, .rwp, 11, .lit 5, .upTo 2 20, allOnes40, 1⟩,
   ⟨"SurveyEnable", 4, 4, .bool, .rwp, 11, .lit 1, .full, allOnes40, 1⟩,
   ⟨"SurveyFallbacks", 5, 5, .w40, .ro, 15, .lit 0, .full, allOnes40, 1⟩,
   ⟨"RecordsUsable", 6, 6, .w20, .ro, 15, .lit 0, .full, allOnes40, 1⟩,
   ⟨"RecordRewrites", 7, 7, .w40, .ro, 15, .lit 0, .full, allOnes40, 1⟩]

/-- Index 0x9001. -/
def rowsX9001 : List ObjRow :=
  [⟨"CalSelectKind", 1, 1, .u8, .rw, 11, .lit 1, .upTo 1 3, allOnes40, 1⟩,
   ⟨"CalSelectInstance", 2, 2, .w20, .rw, 11, .lit 0, .upTo 0 95, allOnes40, 1⟩,
   ⟨"CalSelectForm", 3, 3, .u8, .rw, 11, .lit 0, .upTo 0 1, allOnes40, 1⟩,
   ⟨"CalSelect", 4, 4, .bool, .wo, 11, .lit 0, .full, allOnes40, 1⟩,
   ⟨"CalRecordRead", 5, 5, .blob, .ro, 15, .lit 0, .full, allOnes40, 1238⟩,
   ⟨"CalImportData", 6, 6, .blob, .wo, 11, .lit 0, .full, allOnes40, 1238⟩,
   ⟨"CalImport", 7, 7, .bool, .wo, 11, .lit 0, .full, allOnes40, 1⟩,
   ⟨"CalImportState", 8, 8, .u8, .ro, 15, .lit 0, .full, allOnes40, 1⟩,
   ⟨"CalImportsAccepted", 9, 9, .w40, .ro, 15, .lit 0, .full, allOnes40, 1⟩]

/-- Index 0x9002. -/
def rowsX9002 : List ObjRow :=
  [⟨"SurveyState", 1, 1, .u8, .ro, 15, .lit 0, .full, allOnes40, 1⟩,
   ⟨"SurveyedDies", 2, 2, .w20, .ro, 15, .lit 0, .full, allOnes40, 1⟩]

/-- Index 0x2000. -/
def rowsX2000 : List ObjRow :=
  [⟨"DeviceMode", 1, 1, .u8, .ro, 15, .lit 0, .full, allOnes40, 1⟩,
   ⟨"ModeReason", 2, 2, .w20, .ro, 15, .lit 0, .full, allOnes40, 1⟩,
   ⟨"ModeChanges", 3, 3, .w40, .ro, 15, .lit 0, .full, allOnes40, 1⟩,
   ⟨"ColdEntries", 4, 4, .w40, .ro, 15, .lit 0, .full, allOnes40, 1⟩,
   ⟨"LastColdCause", 5, 5, .u8, .ro, 15, .lit 0, .full, allOnes40, 1⟩,
   ⟨"ResetDevice", 6, 6, .w20, .wo, 3, .lit 0, .oneOf [0x0C01D], allOnes40, 1⟩]

/-- Index 0x2001. -/
def rowsX2001 : List ObjRow :=
  [⟨"BringupStep", 1, 1, .u8, .ro, 15, .lit 1, .full, allOnes40, 1⟩,
   ⟨"BringupFault", 2, 2, .u8, .ro, 15, .lit 0, .full, allOnes40, 1⟩,
   ⟨"BringupElapsed", 3, 3, .time40, .ro, 15, .lit 0, .full, allOnes40, 1⟩,
   ⟨"RestoreRecords", 4, 4, .w40, .ro, 15, .lit 0, .full, allOnes40, 1⟩,
   ⟨"ReplayUnits", 5, 5, .w20, .ro, 15, .lit 0, .full, allOnes40, 1⟩,
   ⟨"SaveSweepSpan", 6, 6, .w40, .ro, 15, .lit 0, .full, allOnes40, 1⟩]

/-- Index 0x2010. -/
def rowsX2010 : List ObjRow :=
  [⟨"PowerState", 1, 1, .u8, .ro, 15, .lit 0, .full, allOnes40, 1⟩,
   ⟨"DeepestState", 2, 2, .u8, .rw, 3, .lit 3, .upTo 3 5, allOnes40, 1⟩,
   ⟨"AutoPoiseIdle", 3, 3, .w20, .rwp, 3, .lit 0, .zeroOr 10 100000, allOnes40, 1⟩,
   ⟨"PowerEntries", 4, 4, .w40, .ro, 15, .lit 0, .full, allOnes40, 1⟩,
   ⟨"PowerBlock", 5, 5, .w20, .ro, 15, .lit 0, .full, allOnes40, 1⟩,
   ⟨"WakeCause", 6, 6, .u8, .ro, 15, .lit 0, .full, allOnes40, 1⟩,
   ⟨"WakeImageValid", 7, 7, .bool, .ro, 15, .lit 0, .full, allOnes40, 1⟩]

/-- Index 0x2020. -/
def rowsX2020 : List ObjRow :=
  [⟨"VidCode", 1, 1, .u8, .ro, 15, .lit 9, .full, allOnes40, 1⟩,
   ⟨"VidRaises", 2, 2, .w40, .ro, 15, .lit 0, .full, allOnes40, 1⟩,
   ⟨"VidLowers", 3, 3, .w40, .ro, 15, .lit 0, .full, allOnes40, 1⟩,
   ⟨"RailPowerGood", 4, 4, .w20, .ro, 15, .lit 0, .full, allOnes40, 1⟩,
   ⟨"RailFaults", 5, 5, .w40, .ro, 15, .lit 0, .full, allOnes40, 1⟩,
   ⟨"JunctionWarn", 6, 6, .s20, .rwp, 3, .lit 1600, .signed 1360 1664, allOnes40, 1⟩,
   ⟨"ThermalTrips", 7, 7, .w40, .ro, 15, .lit 0, .full, allOnes40, 1⟩]

/-- Index 0x2030. -/
def rowsX2030 : List ObjRow :=
  [⟨"HoldupState", 1, 1, .u8, .ro, 15, .lit 0, .full, allOnes40, 1⟩,
   ⟨"HoldupEnergy", 2, 2, .w20, .ro, 15, .lit 0, .full, allOnes40, 1⟩,
   ⟨"HoldupVoltage", 3, 3, .s20, .ro, 15, .lit 0, .full, allOnes40, 1⟩,
   ⟨"HoldupCapacitance", 4, 4, .w20, .ro, 15, .lit 0, .full, allOnes40, 1⟩,
   ⟨"HoldupCutoff", 5, 5, .w20, .rwp, 3, .lit 12000, .upTo 5000 40000, allOnes40, 1⟩,
   ⟨"HoldupSenseRatio", 6, 6, .w20, .rwp, 3, .lit 16000, .upTo 1000 50000, allOnes40, 1⟩,
   ⟨"HoldupTestLoad", 7, 7, .w20, .rwp, 3, .lit 2000, .upTo 100 100000, allOnes40, 1⟩,
   ⟨"HoldupTestPeriod", 8, 8, .w20, .rwp, 3, .lit 24, .upTo 1 720, allOnes40, 1⟩,
   ⟨"HoldupTestStart", 9, 9, .bool, .wo, 3, .lit 0, .full, allOnes40, 1⟩,
   ⟨"VinFailLevel", 10, 10, .w20, .rwp, 3, .lit 10800, .upTo 3000 60000, allOnes40, 1⟩,
   ⟨"VinGoodLevel", 11, 11, .w20, .rwp, 3, .lit 11400, .full, allOnes40, 1⟩,
   ⟨"VinSenseRatio", 12, 12, .w20, .rwp, 3, .lit 6000, .upTo 1000 50000, allOnes40, 1⟩]

/-- Index 0x2040. -/
def rowsX2040 : List ObjRow :=
  [⟨"VigilCount", 1, 1, .w40, .ro, 15, .lit 0, .full, allOnes40, 1⟩,
   ⟨"LastVigilOutcome", 2, 2, .u8, .ro, 15, .lit 0, .full, allOnes40, 1⟩,
   ⟨"LastVigilDuration", 3, 3, .time40, .ro, 15, .lit 0, .full, allOnes40, 1⟩,
   ⟨"LastVigilMarks", 4, 4, .w20, .ro, 15, .lit 0, .full, allOnes40, 1⟩,
   ⟨"TornPages", 5, 5, .w20, .ro, 15, .lit 0, .full, allOnes40, 1⟩,
   ⟨"GapFirst", 6, 6, .w40, .ro, 15, .lit 1099511627775, .full, allOnes40, 1⟩,
   ⟨"GapLast", 7, 7, .w40, .ro, 15, .lit 1099511627775, .full, allOnes40, 1⟩,
   ⟨"DumpUnits", 8, 8, .w20, .ro, 15, .lit 0, .full, allOnes40, 1⟩,
   ⟨"LedgerFree", 9, 9, .w20, .ro, 15, .lit 0, .full, allOnes40, 1⟩]

/-- Index 0x3000. -/
def rowsX3000 : List ObjRow :=
  [⟨"ScanCount", 1, 1, .w40, .ro, 15, .lit 0, .full, allOnes40, 1⟩,
   ⟨"ScanPeriod", 2, 2, .w20, .const, 15, .lit 96, .full, allOnes40, 1⟩,
   ⟨"SettleDiscards", 3, 3, .w40, .ro, 15, .lit 0, .full, allOnes40, 1⟩,
   ⟨"JunctionMax", 4, 4, .s20, .ro, 15, .lit 0, .full, allOnes40, 1⟩,
   ⟨"ThermistorMask", 5, 5, .w20, .rwp, 3, .lit 0, .full, 0xFF, 1⟩,
   ⟨"MonitorFaults", 6, 6, .w40, .ro, 15, .lit 0, .full, allOnes40, 1⟩]

/-- Index 0x3100+i. -/
def rowsX3100_i : List ObjRow :=
  [⟨"Sample", 1, 1, .w40, .ro, 15, .lit 0, .full, allOnes40, 1⟩,
   ⟨"Value", 2, 2, .s20, .ro, 15, .lit 0, .full, allOnes40, 1⟩,
   ⟨"OverRanges", 3, 3, .w40, .ro, 15, .lit 0, .full, allOnes40, 1⟩]

/-- Index 0x3800+p. -/
def rowsX3800_p : List ObjRow :=
  [⟨"Address", 1, 1, .u8, .ro, 15, .lit 0, .full, allOnes40, 1⟩,
   ⟨"StrapLevels", 2, 2, .w20, .ro, 15, .lit 0, .full, allOnes40, 1⟩,
   ⟨"SdaHold", 3, 3, .w20, .rwp, 3, .lit 75, .upTo 0 255, allOnes40, 1⟩,
   ⟨"StartSetup", 4, 4, .w20, .rwp, 3, .lit 65, .upTo 0 255, allOnes40, 1⟩,
   ⟨"SpikeFilter", 5, 5, .w20, .rwp, 3, .lit 13, .upTo 0 31, allOnes40, 1⟩,
   ⟨"PecFailures", 6, 6, .w40, .ro, 15, .lit 0, .full, allOnes40, 1⟩,
   ⟨"PortResets", 7, 7, .w40, .ro, 15, .lit 0, .full, allOnes40, 1⟩,
   ⟨"StretchTimeouts", 8, 8, .w40, .ro, 15, .lit 0, .full, allOnes40, 1⟩,
   ⟨"SclLowTimeouts", 9, 9, .w40, .ro, 15, .lit 0, .full, allOnes40, 1⟩,
   ⟨"SdaStuckReleases", 10, 10, .w40, .ro, 15, .lit 0, .full, allOnes40, 1⟩,
   ⟨"WakeNacks", 11, 11, .w40, .ro, 15, .lit 0, .full, allOnes40, 1⟩,
   ⟨"LastResetCause", 12, 12, .u8, .ro, 15, .lit 0, .full, allOnes40, 1⟩]

/-- Index 0x3810. -/
def rowsX3810 : List ObjRow :=
  [⟨"BoardDigest", 1, 1, .w40, .ro, 15, .lit 0, .full, allOnes40, 1⟩]

/-- Index 0xF000. -/
def rowsXF000 : List ObjRow :=
  [⟨"Role", 1, 1, .u8, .ro, 15, .lit 0, .full, allOnes40, 1⟩,
   ⟨"DeviceNumber", 2, 2, .u8, .ro, 15, .lit 0, .full, allOnes40, 1⟩,
   ⟨"GroupState", 3, 3, .u8, .ro, 15, .lit 0, .full, allOnes40, 1⟩,
   ⟨"MemberCount", 4, 4, .u8, .ro, 15, .lit 1, .full, allOnes40, 1⟩,
   ⟨"RosterGeneration", 5, 5, .w20, .ro, 15, .lit 0, .full, allOnes40, 1⟩,
   ⟨"LastDeviceNumber", 6, 6, .u8, .ro, 15, .lit 0, .full, allOnes40, 1⟩,
   ⟨"GroupLeave", 7, 7, .w20, .wo, 3, .lit 0, .oneOf [0x1EA5E], allOnes40, 1⟩,
   ⟨"MisroutedPackets", 8, 8, .w40, .ro, 15, .lit 0, .full, allOnes40, 1⟩,
   ⟨"GroupWait", 9, 9, .w20, .rwp, 3, .lit 500, .upTo 0 1000, allOnes40, 1⟩]

/-- Index 0xF001. -/
def rowsXF001 : List ObjRow :=
  [⟨"RosterEntry", 1, 16, .w40, .ro, 15, .lit 0, .full, allOnes40, 1⟩]

/-- Index 0xF010. -/
def rowsXF010 : List ObjRow :=
  [⟨"BarrierNumber", 1, 1, .w20, .ro, 15, .lit 0, .full, allOnes40, 1⟩,
   ⟨"BarrierState", 2, 2, .u8, .ro, 15, .lit 0, .full, allOnes40, 1⟩,
   ⟨"EquinoxArrive", 3, 3, .w40, .wo, 7, .lit 0, .full, 0x80000FFFFF, 1⟩,
   ⟨"BarrierTimeout", 4, 4, .w20, .rw, 3, .lit 100, .upTo 1 10000, allOnes40, 1⟩,
   ⟨"SnapshotHoldLimit", 5, 5, .w20, .rw, 3, .lit 1000, .upTo 50 100000, allOnes40, 1⟩,
   ⟨"LastBarrierTime", 6, 6, .time40, .ro, 15, .lit 0, .full, allOnes40, 1⟩,
   ⟨"EqxLine", 7, 7, .bool, .ro, 15, .lit 1, .full, allOnes40, 1⟩,
   ⟨"EqxDriving", 8, 8, .bool, .ro, 15, .lit 0, .full, allOnes40, 1⟩,
   ⟨"SnapshotNumber", 9, 9, .w20, .ro, 15, .lit 1048575, .full, allOnes40, 1⟩,
   ⟨"SnapshotSequence", 10, 10, .w40, .ro, 15, .lit 0, .full, allOnes40, 1⟩,
   ⟨"SnapshotState", 11, 11, .u8, .ro, 15, .lit 0, .full, allOnes40, 1⟩,
   ⟨"StartAll", 12, 12, .w40, .wo, 3, .lit 0, .full, 0x80000FFFFF, 1⟩]

/-- Index 0xF011. -/
def rowsXF011 : List ObjRow :=
  [⟨"SnapshotTable", 1, 16, .w40, .ro, 15, .lit 1099511627775, .full, allOnes40, 1⟩,
   ⟨"SnapshotGathered", 17, 17, .w20, .ro, 15, .lit 0, .full, allOnes40, 1⟩]

/-- Index 0xF020. -/
def rowsXF020 : List ObjRow :=
  [⟨"RelayDevice", 1, 1, .u8, .rw, 3, .lit 0, .upToOr 1 15 0x1F, allOnes40, 1⟩,
   ⟨"RelayRequest", 2, 2, .blob, .wo, 3, .lit 0, .full, allOnes40, 516⟩,
   ⟨"RelayGo", 3, 3, .bool, .wo, 3, .lit 0, .full, allOnes40, 1⟩,
   ⟨"RelayState", 4, 4, .u8, .ro, 3, .lit 0, .full, allOnes40, 1⟩,
   ⟨"RelayResponse", 5, 5, .blob, .ro, 3, .lit 0, .full, allOnes40, 516⟩,
   ⟨"RelayReached", 6, 6, .w20, .ro, 3, .lit 0, .full, allOnes40, 1⟩]

/-- Index 0xF030. -/
def rowsXF030 : List ObjRow :=
  [⟨"BoardReset", 1, 1, .w20, .wo, 3, .lit 0, .oneOf [0x0B0D0, 0x0B0FF], allOnes40, 1⟩,
   ⟨"ResetState", 2, 2, .u8, .ro, 15, .lit 0, .full, allOnes40, 1⟩,
   ⟨"ResetDrainLimit", 3, 3, .w20, .rw, 3, .lit 50, .upTo 5 1000, allOnes40, 1⟩,
   ⟨"ResetStragglers", 4, 4, .w20, .ro, 15, .lit 0, .full, allOnes40, 1⟩]

/-- Index 0xF040. -/
def rowsXF040 : List ObjRow :=
  [⟨"TransferDevice", 1, 1, .u8, .rw, 3, .lit 0, .upTo 0 15, allOnes40, 1⟩,
   ⟨"TransferSourceSet", 2, 2, .u8, .rw, 3, .lit 0, .upTo 0 7, allOnes40, 1⟩,
   ⟨"TransferSourceFirst", 3, 3, .w40, .rw, 3, .lit 0, .full, allOnes40, 1⟩,
   ⟨"TransferUnits", 4, 4, .w40, .rw, 3, .lit 0, .full, allOnes40, 1⟩,
   ⟨"TransferDestSet", 5, 5, .u8, .rw, 3, .lit 0, .upTo 0 7, allOnes40, 1⟩,
   ⟨"TransferDestFirst", 6, 6, .w40, .rw, 3, .lit 0, .full, allOnes40, 1⟩,
   ⟨"TransferRate", 7, 7, .w20, .rwp, 3, .lit 200, .upTo 1 500, allOnes40, 1⟩,
   ⟨"TransferStart", 8, 8, .bool, .wo, 3, .lit 0, .full, allOnes40, 1⟩,
   ⟨"TransferState", 9, 9, .u8, .ro, 15, .lit 0, .full, allOnes40, 1⟩,
   ⟨"TransferUnitsDone", 10, 10, .w40, .ro, 15, .lit 0, .full, allOnes40, 1⟩,
   ⟨"TransferUnitsSuperseded", 11, 11, .w40, .ro, 15, .lit 0, .full, allOnes40, 1⟩,
   ⟨"TransferStop", 12, 12, .bool, .wo, 3, .lit 0, .full, allOnes40, 1⟩]

/-- Index 0xF3C2. -/
def rowsXF3C2 : List ObjRow :=
  [⟨"AllDataRate", 1, 1, .w20, .wo, 7, .lit 0, .oneOf [1600, 2400, 3200, 3600], allOnes40, 1⟩,
   ⟨"AllDriveCode", 2, 2, .u8, .wo, 7, .lit 0, .upTo 0 3, allOnes40, 1⟩,
   ⟨"AllOdtCode", 3, 3, .u8, .wo, 7, .lit 0, .upTo 0 3, allOnes40, 1⟩]

/-- Index 0xF3D1. -/
def rowsXF3D1 : List ObjRow :=
  [⟨"AllThrottleLimit", 1, 1, .s20, .wo, 7, .lit 0, .signed 960 1600, allOnes40, 1⟩]

/-- Index 0x8000. -/
def rowsX8000 : List ObjRow :=
  [⟨"ActiveSlot", 1, 1, .u8, .ro, 15, .lit 0, .full, allOnes40, 1⟩,
   ⟨"FirmwareVersion", 2, 2, .w20, .ro, 15, .lit 0, .full, allOnes40, 1⟩,
   ⟨"SecurityVersion", 3, 3, .u8, .ro, 15, .lit 0, .full, allOnes40, 1⟩,
   ⟨"SlotState", 4, 4, .w20, .ro, 15, .lit 0, .full, allOnes40, 1⟩,
   ⟨"HostGrantBase", 5, 5, .w20, .ro, 15, .lit 128, .full, allOnes40, 1⟩,
   ⟨"HostGrantLimit", 6, 6, .w20, .ro, 15, .lit 3072, .full, allOnes40, 1⟩,
   ⟨"UpdateCommit", 7, 7, .bool, .wo, 1, .lit 0, .full, allOnes40, 1⟩,
   ⟨"UpdateState", 8, 8, .u8, .ro, 15, .lit 0, .full, allOnes40, 1⟩,
   ⟨"UpdateUnitsStaged", 9, 9, .w20, .ro, 15, .lit 0, .full, allOnes40, 1⟩,
   ⟨"ProtectStandby", 10, 10, .bool, .wo, 3, .lit 0, .full, allOnes40, 1⟩]

/-- Index 0x8001. -/
def rowsX8001 : List ObjRow :=
  [⟨"QueueDepth", 1, 1, .u8, .ro, 15, .lit 0, .full, allOnes40, 1⟩,
   ⟨"OperationsDone", 2, 2, .w40, .ro, 15, .lit 0, .full, allOnes40, 1⟩,
   ⟨"OperationFails", 3, 3, .w40, .ro, 15, .lit 0, .full, allOnes40, 1⟩,
   ⟨"CheckFailsMet", 4, 4, .w40, .ro, 15, .lit 0, .full, allOnes40, 1⟩,
   ⟨"LastFault", 5, 5, .w40, .ro, 15, .lit 0, .full, allOnes40, 1⟩,
   ⟨"CfSparesLeft", 6, 6, .u8, .ro, 15, .lit 0, .full, allOnes40, 1⟩,
   ⟨"WriteProtect", 7, 7, .blob, .ro, 15, .lit 0, .full, allOnes40, 205⟩,
   ⟨"CounterSelect", 8, 8, .w20, .rw, 15, .lit 0, .upTo 0 4095, allOnes40, 1⟩,
   ⟨"SectorEraseCount", 9, 9, .w20, .ro, 15, .lit 0, .full, allOnes40, 1⟩,
   ⟨"HighestEraseCount", 10, 10, .w20, .ro, 15, .lit 0, .full, allOnes40, 1⟩]

/-- Index 0x8002. -/
def rowsX8002 : List ObjRow :=
  [⟨"CfReadAddress", 1, 1, .w40, .rw, 11, .lit 0, .full, 0x7FFFFF, 1⟩,
   ⟨"CfReadCount", 2, 2, .w20, .rw, 11, .lit 1, .upTo 1 512, allOnes40, 1⟩,
   ⟨"CfRead", 3, 3, .bool, .wo, 11, .lit 0, .full, allOnes40, 1⟩,
   ⟨"CfReadState", 4, 4, .u8, .ro, 15, .lit 0, .full, allOnes40, 1⟩,
   ⟨"CfReadData", 5, 5, .blob, .ro, 15, .lit 0, .full, allOnes40, 512⟩,
   ⟨"CfReadCheckFails", 6, 6, .w20, .ro, 15, .lit 0, .full, allOnes40, 1⟩,
   ⟨"DumpRequest", 7, 7, .bool, .wo, 11, .lit 0, .full, allOnes40, 1⟩,
   ⟨"DumpState", 8, 8, .u8, .ro, 15, .lit 0, .full, allOnes40, 1⟩,
   ⟨"DumpNumber", 9, 9, .w20, .ro, 15, .lit 0, .full, allOnes40, 1⟩,
   ⟨"DumpRelease", 10, 10, .bool, .wo, 11, .lit 0, .full, allOnes40, 1⟩]

/-- Index 0x8003. -/
def rowsX8003 : List ObjRow :=
  [⟨"LotCode", 1, 1, .text, .ro, 15, .lit 0, .full, allOnes40, 16⟩,
   ⟨"VendorKeyHash", 2, 2, .blob, .ro, 15, .lit 0, .full, allOnes40, 20⟩,
   ⟨"TestKeyHash", 3, 3, .blob, .ro, 15, .lit 0, .full, allOnes40, 20⟩,
   ⟨"CustomerKeyHash", 4, 4, .blob, .ro, 15, .lit 0, .full, allOnes40, 20⟩,
   ⟨"CustomerKeyState", 5, 5, .u8, .ro, 15, .lit 0, .full, allOnes40, 1⟩,
   ⟨"CustomerKeyData", 6, 6, .blob, .wo, 3, .lit 0, .full, allOnes40, 20⟩,
   ⟨"CustomerKeyBurn", 7, 7, .bool, .wo, 3, .lit 0, .full, allOnes40, 1⟩,
   ⟨"MinSecurityVersion", 8, 8, .u8, .ro, 15, .lit 0, .full, allOnes40, 1⟩,
   ⟨"RaiseSecurityVersion", 9, 9, .u8, .wo, 3, .lit 0, .full, allOnes40, 1⟩]

/-- Index 0xD000+n. -/
def rowsXD000_n : List ObjRow :=
  [⟨"Enable", 1, 1, .bool, .rw, 11, .evEnable, .full, allOnes40, 1⟩,
   ⟨"Ring", 2, 2, .w20, .rw, 9, .lit 0, .upTo 0 4095, allOnes40, 1⟩,
   ⟨"Latched", 3, 3, .bool, .ro, 15, .lit 0, .full, allOnes40, 1⟩,
   ⟨"Count", 4, 4, .w40, .ro, 15, .lit 0, .full, allOnes40, 1⟩,
   ⟨"LastArgument", 5, 5, .w20, .ro, 15, .lit 0, .full, allOnes40, 1⟩,
   ⟨"LastUptime", 6, 6, .w40, .ro, 15, .lit 0, .full, allOnes40, 1⟩,
   ⟨"Clear", 7, 7, .bool, .wo, 11, .lit 0, .full, allOnes40, 1⟩,
   ⟨"Severity", 8, 8, .u8, .const, 15, .evSeverity, .full, allOnes40, 1⟩,
   ⟨"Pending", 9, 9, .bool, .ro, 15, .lit 0, .full, allOnes40, 1⟩]

/-- Index 0xE000. -/
def rowsXE000 : List ObjRow :=
  [⟨"PepperEnable", 1, 1, .bool, .rw, 8, .lit 0, .full, allOnes40, 1⟩,
   ⟨"PepperActive", 2, 2, .bool, .ro, 8, .lit 0, .full, allOnes40, 1⟩,
   ⟨"PepperClearAll", 3, 3, .bool, .wo, 8, .lit 0, .full, allOnes40, 1⟩,
   ⟨"PepperSeed", 4, 4, .w20, .rw, 8, .lit 1, .upTo 1 1048575, allOnes40, 1⟩]

/-- Index 0xE010. -/
def rowsXE010 : List ObjRow :=
  [⟨"StageDelay", 1, 8, .w20, .rw, 8, .lit 0, .upTo 0 100000, allOnes40, 1⟩]

/-- Index 0xE011. -/
def rowsXE011 : List ObjRow :=
  [⟨"StageSelect", 1, 8, .w20, .rw, 8, .lit 1048575, .full, allOnes40, 1⟩]

/-- Index 0xE012. -/
def rowsXE012 : List ObjRow :=
  [⟨"StagePhases", 1, 8, .w20, .rw, 8, .lit 0, .full, allOnes40, 1⟩]

/-- Index 0xE020. -/
def rowsXE020 : List ObjRow :=
  [⟨"RingSelect", 1, 1, .w20, .rw, 8, .lit 1048575, .upToOr 0 8159 0xFFFFF, allOnes40, 1⟩,
   ⟨"FetchRefuse", 2, 2, .u8, .rw, 8, .lit 0, .upTo 0 100, allOnes40, 1⟩,
   ⟨"PostDelay", 3, 3, .w20, .rw, 8, .lit 0, .upTo 0 1000, allOnes40, 1⟩,
   ⟨"ChannelSelect", 4, 4, .u8, .rw, 8, .lit 255, .upToOr 0 95 0xFF, allOnes40, 1⟩,
   ⟨"BusWithhold", 5, 5, .u8, .rw, 8, .lit 0, .upTo 0 90, allOnes40, 1⟩,
   ⟨"DutyPeriod", 6, 6, .w20, .rw, 8, .lit 100, .upTo 10 10000, allOnes40, 1⟩]

/-- Index 0xE030. -/
def rowsXE030 : List ObjRow :=
  [⟨"BusyChannel", 1, 1, .u8, .rw, 8, .lit 255, .upToOr 0 95 0xFF, allOnes40, 1⟩,
   ⟨"BusyDieMask", 2, 2, .w20, .rw, 8, .lit 0, .full, 0xFFFF, 1⟩,
   ⟨"BusyOps", 3, 3, .u8, .rw, 8, .lit 0, .full, allOnes40, 1⟩,
   ⟨"BusyStretch", 4, 4, .w20, .rw, 8, .lit 0, .upTo 0 20000, allOnes40, 1⟩]

/-- Index 0xE040. -/
def rowsXE040 : List ObjRow :=
  [⟨"DramSubMask", 1, 1, .u8, .rw, 8, .lit 0, .full, allOnes40, 1⟩,
   ⟨"DramDelay", 2, 2, .w20, .rw, 8, .lit 0, .upTo 0 10000, allOnes40, 1⟩,
   ⟨"DramDelayShare", 3, 3, .u8, .rw, 8, .lit 0, .upTo 0 100, allOnes40, 1⟩]

/-- Index 0xE050. -/
def rowsXE050 : List ObjRow :=
  [⟨"LinkPort", 1, 1, .u8, .rw, 8, .lit 0, .upTo 0 2, allOnes40, 1⟩,
   ⟨"CrcForceInterval", 2, 2, .w20, .rw, 8, .lit 0, .zeroOr 2 1000000, allOnes40, 1⟩,
   ⟨"CrcBurst", 3, 3, .u8, .rw, 8, .lit 1, .upTo 1 16, allOnes40, 1⟩,
   ⟨"AckDropInterval", 4, 4, .w20, .rw, 8, .lit 0, .zeroOr 2 1000000, allOnes40, 1⟩,
   ⟨"ForceRealign", 5, 5, .bool, .wo, 8, .lit 0, .full, allOnes40, 1⟩,
   ⟨"CrcForced", 6, 6, .w40, .ro, 8, .lit 0, .full, allOnes40, 1⟩]

/-- Index 0xE060. -/
def rowsXE060 : List ObjRow :=
  [⟨"AdcInput", 1, 1, .u8, .rw, 8, .lit 0, .upTo 0 47, allOnes40, 1⟩,
   ⟨"AdcForce", 2, 2, .u8, .rw, 8, .lit 0, .upTo 0 2, allOnes40, 1⟩,
   ⟨"AdcConversions", 3, 3, .w20, .rw, 8, .lit 0, .upTo 0 1000, allOnes40, 1⟩,
   ⟨"AdcInjected", 4, 4, .w40, .ro, 8, .lit 0, .full, allOnes40, 1⟩]

/-- Index 0xE070. -/
def rowsXE070 : List ObjRow :=
  [⟨"EccChannel", 1, 1, .u8, .rw, 8, .lit 255, .upToOr 0 95 0xFF, allOnes40, 1⟩,
   ⟨"EccStep", 2, 2, .u8, .rw, 8, .lit 2, .upTo 2 5, allOnes40, 1⟩,
   ⟨"EccShare", 3, 3, .u8, .rw, 8, .lit 0, .upTo 0 100, allOnes40, 1⟩,
   ⟨"EccClasses", 4, 4, .u8, .rw, 8, .lit 15, .full, allOnes40, 1⟩,
   ⟨"EccForced", 5, 5, .w40, .ro, 8, .lit 0, .full, allOnes40, 1⟩]

/-- Index 0xE080. -/
def rowsXE080 : List ObjRow :=
  [⟨"EnergyOffset", 1, 1, .w20, .rw, 8, .lit 0, .upTo 0 100000, allOnes40, 1⟩,
   ⟨"VigilCutStep", 2, 2, .u8, .rw, 8, .lit 0, .zeroOr 2 9, allOnes40, 1⟩,
   ⟨"SupplyLoss", 3, 3, .bool, .wo, 8, .lit 0, .full, allOnes40, 1⟩]

/-- The rows of an index, with the instance its family gives it (R59): ring, channel, port or source number. -/
def rowsAt (idx : Nat) : Option (Nat × List ObjRow) :=
  if 0x6000 ≤ idx ∧ idx < 0x7800 then
    let off := (idx - 0x6000) % 0x40
    let c := (idx - 0x6000) / 0x40
    (match off with
    | 0 => some rowsCh00
    | 1 => some rowsCh01
    | 2 => some rowsCh02
    | 3 => some rowsCh03
    | 4 => some rowsCh04
    | 5 => some rowsCh05
    | 6 => some rowsCh06
    | 8 => some rowsCh08
    | 9 => some rowsCh09
    | 10 => some rowsCh0A
    | 12 => some rowsCh0C
    | 16 => some rowsCh10
    | 17 => some rowsCh11
    | 20 => some rowsCh14
    | 24 => some rowsCh18
    | 25 => some rowsCh19
    | _ => none).map (fun r => (c, r))
  else if 0x8800 ≤ idx ∧ idx < 0x88C0 then
    let off := (idx - 0x8800) % 0x40
    let p := (idx - 0x8800) / 0x40
    (match off with
    | 0 => some rowsPort00
    | 1 => some rowsPort01
    | 2 => some rowsPort02
    | 3 => some rowsPort03
    | 4 => some rowsPort04
    | 5 => some rowsPort05
    | 6 => some rowsPort06
    | 7 => some rowsPort07
    | _ => none).map (fun r => (p, r))
  else if 0xA000 ≤ idx ∧ idx < 0xC000 then some (idx - 0xA000, rowsXA000_n)
  else if 0xC000 ≤ idx ∧ idx < 0xD000 then some (idx - 0xC000, rowsXC000_m)
  else if 0x5810 ≤ idx ∧ idx < 0x5818 then some (idx - 0x5810, rowsX5810_s)
  else if 0x5010 ≤ idx ∧ idx < 0x5018 then some (idx - 0x5010, rowsX5010_s)
  else if 0x5020 ≤ idx ∧ idx < 0x5028 then some (idx - 0x5020, rowsX5020_s)
  else if 0x7810 ≤ idx ∧ idx < 0x7818 then some (idx - 0x7810, rowsX7810_s)
  else if 0x4010 ≤ idx ∧ idx < 0x4018 then some (idx - 0x4010, rowsX4010_s)
  else if 0x3100 ≤ idx ∧ idx < 0x3130 then some (idx - 0x3100, rowsX3100_i)
  else if 0x3800 ≤ idx ∧ idx < 0x3802 then some (idx - 0x3800, rowsX3800_p)
  else if 0xD000 ≤ idx ∧ idx < 0xD600 ∧ sourceExists (idx - 0xD000) = true then some (idx - 0xD000, rowsXD000_n)
  else (match idx with
    | 0x1000 => some rowsX1000
    | 0x1002 => some rowsX1002
    | 0x1003 => some rowsX1003
    | 0x1004 => some rowsX1004
    | 0x1010 => some rowsX1010
    | 0x1011 => some rowsX1011
    | 0x1E00 => some rowsX1E00
    | 0x5800 => some rowsX5800
    | 0x5900 => some rowsX5900
    | 0x5901 => some rowsX5901
    | 0x5902 => some rowsX5902
    | 0x5000 => some rowsX5000
    | 0x5001 => some rowsX5001
    | 0x5030 => some rowsX5030
    | 0x5031 => some rowsX5031
    | 0x7800 => some rowsX7800
    | 0x7801 => some rowsX7801
    | 0x7802 => some rowsX7802
    | 0x7803 => some rowsX7803
    | 0x7820 => some rowsX7820
    | 0x7821 => some rowsX7821
    | 0x4000 => some rowsX4000
    | 0x4020 => some rowsX4020
    | 0x9000 => some rowsX9000
    | 0x9001 => some rowsX9001
    | 0x9002 => some rowsX9002
    | 0x2000 => some rowsX2000
    | 0x2001 => some rowsX2001
    | 0x2010 => some rowsX2010
    | 0x2020 => some rowsX2020
    | 0x2030 => some rowsX2030
    | 0x2040 => some rowsX2040
    | 0x3000 => some rowsX3000
    | 0x3810 => some rowsX3810
    | 0xF000 => some rowsXF000
    | 0xF001 => some rowsXF001
    | 0xF010 => some rowsXF010
    | 0xF011 => some rowsXF011
    | 0xF020 => some rowsXF020
    | 0xF030 => some rowsXF030
    | 0xF040 => some rowsXF040
    | 0xF3C2 => some rowsXF3C2
    | 0xF3D1 => some rowsXF3D1
    | 0x8000 => some rowsX8000
    | 0x8001 => some rowsX8001
    | 0x8002 => some rowsX8002
    | 0x8003 => some rowsX8003
    | 0xE000 => some rowsXE000
    | 0xE010 => some rowsXE010
    | 0xE011 => some rowsXE011
    | 0xE012 => some rowsXE012
    | 0xE020 => some rowsXE020
    | 0xE030 => some rowsXE030
    | 0xE040 => some rowsXE040
    | 0xE050 => some rowsXE050
    | 0xE060 => some rowsXE060
    | 0xE070 => some rowsXE070
    | 0xE080 => some rowsXE080
    | _ => none).map (fun r => (0, r))

/-- Objects of which each path holds a copy of its own (R42, R60, R424, R444). -/
def perPathIndex (idx : Nat) : Bool := idx == 0x1003 || idx == 0x1004 || idx == 0x1E00 || idx == 0xF020

/-- Objects that exist on the manager only: they read zero on a worker, and every write there is out of range (R444). -/
def managerOnly (idx sub : Nat) : Bool :=
  idx == 0xF001 || (idx == 0xF010 && sub == 0x0C) || idx == 0xF011 || idx == 0xF020 || idx == 0xF030

/-- Offset between the copy of a per-path object that one path holds and that of the next (R60). -/
abbrev pathStride : Nat := 4294967296

/-- Number of a path's copy of per-path objects: 0 Urvan, 1 SB0, 2 SB1, 3 peer ring (R60). -/
def pathCode : Path → Nat
  | .urvan => 0
  | .sb0 => 1
  | .sb1 => 2
  | .peer => 3
  | .stranger => 3

/-- The key that a path reaches for an object: its own copy for a per-path object (R60). -/
def pathKey (p : Path) (idx sub : Nat) : Nat :=
  if perPathIndex idx then key idx sub + (pathCode p + 1) * pathStride else key idx sub

/-- The row of an object, with the number of its instance (R59 to R62). -/
def rowOf (idx sub : Nat) : Option (Nat × ObjRow) :=
  match rowsAt idx with
  | none => none
  | some (inst, rows) =>
    match rows.find? (fun r => r.lo ≤ sub ∧ sub ≤ r.hi) with
    | none => none
    | some r =>
      -- The lane arrays of a peer port have 4 elements (R317).
      if 0x8804 ≤ idx ∧ idx < 0x88C0 ∧ 4 ≤ (idx - 0x8800) % 0x40 ∧ 1 ≤ inst ∧ 4 < sub then none else some (inst, r)

/-- Highest subindex in use at an index, the value of subindex 0x00 (R35). -/
def highestSub (idx : Nat) : Option Nat :=
  match rowsAt idx with
  | none => none
  | some (inst, rows) =>
    let h := rows.foldl (fun m r => max m r.hi) 0
    some (if 0x8804 ≤ idx ∧ idx < 0x88C0 ∧ 4 ≤ (idx - 0x8800) % 0x40 ∧ 1 ≤ inst then 4 else h)

/-- The number a default stands for at an instance. -/
def dfltOf (inst : Nat) : Dflt → Nat
  | .lit n => n
  | .chan => inst
  | .chan12 => 12 * inst
  | .port => inst
  | .lanes => if inst = 0 then 16 else 4
  | .evEnable => if evSeverityOf inst = 0 then 0 else 1
  | .evSeverity => evSeverityOf inst

/-- The default of the object with a key (R44); 0 for a key that names no object. -/
def objDefault (k : Nat) : Nat :=
  let b := k % pathStride
  match rowOf (b / 256) (b % 256) with
  | none => 0
  | some (inst, r) => dfltOf inst r.dflt

/-! ## Names of the keys -/

/-- DeviceCode, 0x1000:01 (R60). -/
abbrev K.deviceCode : Nat := key 0x1000 (1)
/-- SiliconRevision, 0x1000:02 (R60). -/
abbrev K.siliconRevision : Nat := key 0x1000 (2)
/-- SerialNumber, 0x1000:03 (R60). -/
abbrev K.serialNumber : Nat := key 0x1000 (3)
/-- EchoConstant, 0x1002:01 (R60). -/
abbrev K.echoConstant : Nat := key 0x1002 (1)
/-- PathClasses, 0x1003:01 (R60). -/
abbrev K.pathClasses : Nat := key 0x1003 (1)
/-- PathMaxWords, 0x1003:02 (R60). -/
abbrev K.pathMaxWords : Nat := key 0x1003 (2)
/-- QueryIndex, 0x1004:01 (R60). -/
abbrev K.queryIndex : Nat := key 0x1004 (1)
/-- QuerySubindex, 0x1004:02 (R60). -/
abbrev K.querySubindex : Nat := key 0x1004 (2)
/-- QueryResult, 0x1004:03 (R60). -/
abbrev K.queryResult : Nat := key 0x1004 (3)
/-- RetainedAccepted, 0x1010:01 (R60). -/
abbrev K.retainedAccepted : Nat := key 0x1010 (1)
/-- RetainedDurable, 0x1010:02 (R60). -/
abbrev K.retainedDurable : Nat := key 0x1010 (2)
/-- RestoreDefaults, 0x1011:01 (R60). -/
abbrev K.restoreDefaults : Nat := key 0x1011 (1)
/-- RestoreSkipped, 0x1011:02 (R60). -/
abbrev K.restoreSkipped : Nat := key 0x1011 (2)
/-- TestNonce, 0x1E00:01 (R60). -/
abbrev K.testNonce : Nat := key 0x1e00 (1)
/-- TestPublicKey, 0x1E00:02 (R60). -/
abbrev K.testPublicKey : Nat := key 0x1e00 (2)
/-- TestSignature, 0x1E00:03 (R60). -/
abbrev K.testSignature : Nat := key 0x1e00 (3)
/-- TestUnlock, 0x1E00:04 (R60). -/
abbrev K.testUnlock : Nat := key 0x1e00 (4)
/-- TestState, 0x1E00:05 (R60). -/
abbrev K.testState : Nat := key 0x1e00 (5)
/-- TestLock, 0x1E00:06 (R60). -/
abbrev K.testLock : Nat := key 0x1e00 (6)
/-- ChannelNumber, +0x00:01 (R62). -/
abbrev K.chChannelNumber (c : Nat) : Nat := key (0x6000 + 0x40 * c + 0) (1)
/-- DiesFitted, +0x00:02 (R62). -/
abbrev K.chDiesFitted (c : Nat) : Nat := key (0x6000 + 0x40 * c + 0) (2)
/-- DieDensity, +0x00:03 (R62). -/
abbrev K.chDieDensity (c : Nat) : Nat := key (0x6000 + 0x40 * c + 0) (3)
/-- EventBase, +0x00:04 (R62). -/
abbrev K.chEventBase (c : Nat) : Nat := key (0x6000 + 0x40 * c + 0) (4)
/-- State, +0x01:01 (R62). -/
abbrev K.chState (c : Nat) : Nat := key (0x6000 + 0x40 * c + 1) (1)
/-- StripeSet, +0x01:02 (R62). -/
abbrev K.chStripeSet (c : Nat) : Nat := key (0x6000 + 0x40 * c + 1) (2)
/-- MemberPosition, +0x01:03 (R62). -/
abbrev K.chMemberPosition (c : Nat) : Nat := key (0x6000 + 0x40 * c + 1) (3)
/-- AdminIsolate, +0x01:04 (R62). -/
abbrev K.chAdminIsolate (c : Nat) : Nat := key (0x6000 + 0x40 * c + 1) (4)
/-- DataRate, +0x02:01 (R62). -/
abbrev K.chDataRate (c : Nat) : Nat := key (0x6000 + 0x40 * c + 2) (1)
/-- DriveCode, +0x02:02 (R62). -/
abbrev K.chDriveCode (c : Nat) : Nat := key (0x6000 + 0x40 * c + 2) (2)
/-- OdtCode, +0x02:03 (R62). -/
abbrev K.chOdtCode (c : Nat) : Nat := key (0x6000 + 0x40 * c + 2) (3)
/-- EyeWidth, +0x03:01 (R62). -/
abbrev K.chEyeWidth (c : Nat) : Nat := key (0x6000 + 0x40 * c + 3) (1)
/-- EyeHeight, +0x03:02 (R62). -/
abbrev K.chEyeHeight (c : Nat) : Nat := key (0x6000 + 0x40 * c + 3) (2)
/-- ResidualBer, +0x03:03 (R62). -/
abbrev K.chResidualBer (c : Nat) : Nat := key (0x6000 + 0x40 * c + 3) (3)
/-- CalSource, +0x03:04 (R62). -/
abbrev K.chCalSource (c : Nat) : Nat := key (0x6000 + 0x40 * c + 3) (4)
/-- Recalibrate, +0x03:05 (R62). -/
abbrev K.chRecalibrate (c : Nat) : Nat := key (0x6000 + 0x40 * c + 3) (5)
/-- DqDelay, +0x04:01–08 (R62). -/
abbrev K.chDqDelay (c k : Nat) : Nat := key (0x6000 + 0x40 * c + 4) (k + 1)
/-- DqsDelay, +0x05:01 (R62). -/
abbrev K.chDqsDelay (c : Nat) : Nat := key (0x6000 + 0x40 * c + 5) (1)
/-- ReDelay, +0x05:02 (R62). -/
abbrev K.chReDelay (c : Nat) : Nat := key (0x6000 + 0x40 * c + 5) (2)
/-- ThresholdOffset, +0x06:01–10 (R62). -/
abbrev K.chThresholdOffset (c k : Nat) : Nat := key (0x6000 + 0x40 * c + 6) (k + 1)
/-- PageReads, +0x08:01 (R62). -/
abbrev K.chPageReads (c : Nat) : Nat := key (0x6000 + 0x40 * c + 8) (1)
/-- PagePrograms, +0x08:02 (R62). -/
abbrev K.chPagePrograms (c : Nat) : Nat := key (0x6000 + 0x40 * c + 8) (2)
/-- BlockErases, +0x08:03 (R62). -/
abbrev K.chBlockErases (c : Nat) : Nat := key (0x6000 + 0x40 * c + 8) (3)
/-- DieEraseCount, +0x09:01–10 (R62). -/
abbrev K.chDieEraseCount (c k : Nat) : Nat := key (0x6000 + 0x40 * c + 9) (k + 1)
/-- DieProgramCount, +0x0A:01–10 (R62). -/
abbrev K.chDieProgramCount (c k : Nat) : Nat := key (0x6000 + 0x40 * c + 10) (k + 1)
/-- LadderCount, +0x0C:01–05 (R62). -/
abbrev K.chLadderCount (c k : Nat) : Nat := key (0x6000 + 0x40 * c + 12) (k + 1)
/-- DieTemperature, +0x10:01–10 (R62). -/
abbrev K.chDieTemperature (c k : Nat) : Nat := key (0x6000 + 0x40 * c + 16) (k + 1)
/-- ThrottleLimit, +0x11:01 (R62). -/
abbrev K.chThrottleLimit (c : Nat) : Nat := key (0x6000 + 0x40 * c + 17) (1)
/-- ThrottleActive, +0x11:02 (R62). -/
abbrev K.chThrottleActive (c : Nat) : Nat := key (0x6000 + 0x40 * c + 17) (2)
/-- ShortMask, +0x14:01 (R62). -/
abbrev K.chShortMask (c : Nat) : Nat := key (0x6000 + 0x40 * c + 20) (1)
/-- OpenMask, +0x14:02 (R62). -/
abbrev K.chOpenMask (c : Nat) : Nat := key (0x6000 + 0x40 * c + 20) (2)
/-- PinCurrentPeak, +0x14:03 (R62). -/
abbrev K.chPinCurrentPeak (c : Nat) : Nat := key (0x6000 + 0x40 * c + 20) (3)
/-- DieState, +0x18:01–10 (R62). -/
abbrev K.chDieState (c k : Nat) : Nat := key (0x6000 + 0x40 * c + 24) (k + 1)
/-- DieQueueDepth, +0x19:01–10 (R62). -/
abbrev K.chDieQueueDepth (c k : Nat) : Nat := key (0x6000 + 0x40 * c + 25) (k + 1)
/-- Enable, 0xA000+n:01 (R109). -/
abbrev K.ringEnable (n : Nat) : Nat := key (0xA000 + n) (1)
/-- Base, 0xA000+n:02 (R109). -/
abbrev K.ringBase (n : Nat) : Nat := key (0xA000 + n) (2)
/-- SizeLog2, 0xA000+n:03 (R109). -/
abbrev K.ringSizeLog2 (n : Nat) : Nat := key (0xA000 + n) (3)
/-- Placement, 0xA000+n:04 (R109). -/
abbrev K.ringPlacement (n : Nat) : Nat := key (0xA000 + n) (4)
/-- CompletionRing, 0xA000+n:05 (R109). -/
abbrev K.ringCompletionRing (n : Nat) : Nat := key (0xA000 + n) (5)
/-- Priority, 0xA000+n:06 (R109). -/
abbrev K.ringPriority (n : Nat) : Nat := key (0xA000 + n) (6)
/-- Weight, 0xA000+n:07 (R109). -/
abbrev K.ringWeight (n : Nat) : Nat := key (0xA000 + n) (7)
/-- FallbackPlacement, 0xA000+n:08 (R109). -/
abbrev K.ringFallbackPlacement (n : Nat) : Nat := key (0xA000 + n) (8)
/-- Head, 0xA000+n:09 (R109). -/
abbrev K.ringHead (n : Nat) : Nat := key (0xA000 + n) (9)
/-- Tail, 0xA000+n:0A (R109). -/
abbrev K.ringTail (n : Nat) : Nat := key (0xA000 + n) (10)
/-- Epoch, 0xA000+n:0B (R109). -/
abbrev K.ringEpoch (n : Nat) : Nat := key (0xA000 + n) (11)
/-- InFlight, 0xA000+n:0C (R109). -/
abbrev K.ringInFlight (n : Nat) : Nat := key (0xA000 + n) (12)
/-- State, 0xA000+n:0D (R109). -/
abbrev K.ringState (n : Nat) : Nat := key (0xA000 + n) (13)
/-- AbortRing, 0xA000+n:0E (R109). -/
abbrev K.ringAbortRing (n : Nat) : Nat := key (0xA000 + n) (14)
/-- Enable, 0xC000+m:01 (R110). -/
abbrev K.cringEnable (m : Nat) : Nat := key (0xC000 + m) (1)
/-- Base, 0xC000+m:02 (R110). -/
abbrev K.cringBase (m : Nat) : Nat := key (0xC000 + m) (2)
/-- SizeLog2, 0xC000+m:03 (R110). -/
abbrev K.cringSizeLog2 (m : Nat) : Nat := key (0xC000 + m) (3)
/-- NotifyCount, 0xC000+m:04 (R110). -/
abbrev K.cringNotifyCount (m : Nat) : Nat := key (0xC000 + m) (4)
/-- NotifyDelay, 0xC000+m:05 (R110). -/
abbrev K.cringNotifyDelay (m : Nat) : Nat := key (0xC000 + m) (5)
/-- NotifyEnable, 0xC000+m:06 (R110). -/
abbrev K.cringNotifyEnable (m : Nat) : Nat := key (0xC000 + m) (6)
/-- Head, 0xC000+m:07 (R110). -/
abbrev K.cringHead (m : Nat) : Nat := key (0xC000 + m) (7)
/-- Tail, 0xC000+m:08 (R110). -/
abbrev K.cringTail (m : Nat) : Nat := key (0xC000 + m) (8)
/-- Phase, 0xC000+m:09 (R110). -/
abbrev K.cringPhase (m : Nat) : Nat := key (0xC000 + m) (9)
/-- Reserved, 0xC000+m:0A (R110). -/
abbrev K.cringReserved (m : Nat) : Nat := key (0xC000 + m) (10)
/-- StagingSlotsFree, 0x5800:01 (R143). -/
abbrev K.stagingSlotsFree : Nat := key 0x5800 (1)
/-- HostSlotsInUse, 0x5800:02 (R143). -/
abbrev K.hostSlotsInUse : Nat := key 0x5800 (2)
/-- HostSlotsPeak, 0x5800:03 (R143). -/
abbrev K.hostSlotsPeak : Nat := key 0x5800 (3)
/-- RowCloseDelay, 0x5800:04 (R143). -/
abbrev K.rowCloseDelay : Nat := key 0x5800 (4)
/-- WritesAcknowledged, 0x5800:05 (R143). -/
abbrev K.writesAcknowledged : Nat := key 0x5800 (5)
/-- ReplaysMatched, 0x5800:06 (R143). -/
abbrev K.replaysMatched : Nat := key 0x5800 (6)
/-- PartialMerges, 0x5800:07 (R143). -/
abbrev K.partialMerges : Nat := key 0x5800 (7)
/-- UnitsSuperseded, 0x5800:08 (R143). -/
abbrev K.unitsSuperseded : Nat := key 0x5800 (8)
/-- FillerPages, 0x5800:09 (R143). -/
abbrev K.fillerPages : Nat := key 0x5800 (9)
/-- ProgramFailures, 0x5800:0A (R143). -/
abbrev K.programFailures : Nat := key 0x5800 (10)
/-- JournalSequence, 0x5800:0B (R143). -/
abbrev K.journalSequence : Nat := key 0x5800 (11)
/-- JournalDurable, 0x5800:0C (R143). -/
abbrev K.journalDurable : Nat := key 0x5800 (12)
/-- TagWindowEntries, 0x5800:0D (R143). -/
abbrev K.tagWindowEntries : Nat := key 0x5800 (13)
/-- ShadowInUse, 0x5800:0E (R143). -/
abbrev K.shadowInUse : Nat := key 0x5800 (14)
/-- OpenRows, 0x5810+s:01 (R143). -/
abbrev K.setOpenRows (s : Nat) : Nat := key (0x5810 + s) (1)
/-- QueuedUnits, 0x5810+s:02 (R143). -/
abbrev K.setQueuedUnits (s : Nat) : Nat := key (0x5810 + s) (2)
/-- RowsProgrammed, 0x5810+s:03 (R143). -/
abbrev K.setRowsProgrammed (s : Nat) : Nat := key (0x5810 + s) (3)
/-- ErasedRowBlocks, 0x5810+s:04 (R143). -/
abbrev K.setErasedRowBlocks (s : Nat) : Nat := key (0x5810 + s) (4)
/-- WriteStalled, 0x5810+s:05 (R143). -/
abbrev K.setWriteStalled (s : Nat) : Nat := key (0x5810 + s) (5)
/-- ReadsCompleted, 0x5900:01 (R172). -/
abbrev K.readsCompleted : Nat := key 0x5900 (1)
/-- BlocksDelivered, 0x5900:02 (R172). -/
abbrev K.blocksDelivered : Nat := key 0x5900 (2)
/-- MapCacheHits, 0x5900:03 (R172). -/
abbrev K.mapCacheHits : Nat := key 0x5900 (3)
/-- MapCacheMisses, 0x5900:04 (R172). -/
abbrev K.mapCacheMisses : Nat := key 0x5900 (4)
/-- DegradedReads, 0x5900:05 (R172). -/
abbrev K.degradedReads : Nat := key 0x5900 (5)
/-- FramesReconstructed, 0x5900:06 (R172). -/
abbrev K.framesReconstructed : Nat := key 0x5900 (6)
/-- BlocksLost, 0x5900:07 (R172). -/
abbrev K.blocksLost : Nat := key 0x5900 (7)
/-- BlocksTorn, 0x5900:08 (R172). -/
abbrev K.blocksTorn : Nat := key 0x5900 (8)
/-- ProgramHoldoff, 0x5900:09 (R172). -/
abbrev K.programHoldoff : Nat := key 0x5900 (9)
/-- SoftQueueDepth, 0x5900:0A (R172). -/
abbrev K.softQueueDepth : Nat := key 0x5900 (10)
/-- SoftQueuePeak, 0x5900:0B (R172). -/
abbrev K.softQueuePeak : Nat := key 0x5900 (11)
/-- ReorderPeak, 0x5900:0C (R172). -/
abbrev K.reorderPeak : Nat := key 0x5900 (12)
/-- EraseWaits, 0x5900:0D (R172). -/
abbrev K.eraseWaits : Nat := key 0x5900 (13)
/-- RetuneGain, 0x5901:01 (R172). -/
abbrev K.retuneGain : Nat := key 0x5901 (1)
/-- DensityTolerance, 0x5901:02 (R172). -/
abbrev K.densityTolerance : Nat := key 0x5901 (2)
/-- SoftDelta, 0x5901:03 (R172). -/
abbrev K.softDelta : Nat := key 0x5901 (3)
/-- RetuneLearn, 0x5901:04 (R172). -/
abbrev K.retuneLearn : Nat := key 0x5901 (4)
/-- LearnWindow, 0x5901:05 (R172). -/
abbrev K.learnWindow : Nat := key 0x5901 (5)
/-- ModelGeneration, 0x5901:06 (R172). -/
abbrev K.modelGeneration : Nat := key 0x5901 (6)
/-- Step2Skipped, 0x5901:07 (R172). -/
abbrev K.step2Skipped : Nat := key 0x5901 (7)
/-- LdpcBaseMatrix, 0x5902:01 (R172). -/
abbrev K.ldpcBaseMatrix : Nat := key 0x5902 (1)
/-- HardIterationLimit, 0x5902:02 (R172). -/
abbrev K.hardIterationLimit : Nat := key 0x5902 (2)
/-- SoftIterationLimit, 0x5902:03 (R172). -/
abbrev K.softIterationLimit : Nat := key 0x5902 (3)
/-- HardDecodes, 0x5902:04 (R172). -/
abbrev K.hardDecodes : Nat := key 0x5902 (4)
/-- SoftDecodes, 0x5902:05 (R172). -/
abbrev K.softDecodes : Nat := key 0x5902 (5)
/-- LlrTable, 0x5902:06 (R172). -/
abbrev K.llrTable : Nat := key 0x5902 (6)
/-- SpareReserve, 0x5000:01 (R197). -/
abbrev K.spareReserve : Nat := key 0x5000 (1)
/-- LossNoticeRing, 0x5000:02 (R197). -/
abbrev K.lossNoticeRing : Nat := key 0x5000 (2)
/-- LossRecordsIssued, 0x5000:03 (R197). -/
abbrev K.lossRecordsIssued : Nat := key 0x5000 (3)
/-- LossAckedThrough, 0x5000:04 (R197). -/
abbrev K.lossAckedThrough : Nat := key 0x5000 (4)
/-- LossAck, 0x5000:05 (R197). -/
abbrev K.lossAck : Nat := key 0x5000 (5)
/-- LossPending, 0x5000:06 (R197). -/
abbrev K.lossPending : Nat := key 0x5000 (6)
/-- LossDetail, 0x5000:07 (R197). -/
abbrev K.lossDetail : Nat := key 0x5000 (7)
/-- LossSelect, 0x5001:01 (R197). -/
abbrev K.lossSelect : Nat := key 0x5001 (1)
/-- LossRecord, 0x5001:02 (R197). -/
abbrev K.lossRecord : Nat := key 0x5001 (2)
/-- State, 0x5010+s:01 (R197). -/
abbrev K.setState (s : Nat) : Nat := key (0x5010 + s) (1)
/-- Protection, 0x5010+s:02 (R197). -/
abbrev K.setProtection (s : Nat) : Nat := key (0x5010 + s) (2)
/-- Width, 0x5010+s:03 (R197). -/
abbrev K.setWidth (s : Nat) : Nat := key (0x5010 + s) (3)
/-- Generation, 0x5010+s:04 (R197). -/
abbrev K.setGeneration (s : Nat) : Nat := key (0x5010 + s) (4)
/-- LostLow, 0x5010+s:05 (R197). -/
abbrev K.setLostLow (s : Nat) : Nat := key (0x5010 + s) (5)
/-- LostHigh, 0x5010+s:06 (R197). -/
abbrev K.setLostHigh (s : Nat) : Nat := key (0x5010 + s) (6)
/-- LogicalUnits, 0x5010+s:07 (R197). -/
abbrev K.setLogicalUnits (s : Nat) : Nat := key (0x5010 + s) (7)
/-- HighestMapped, 0x5010+s:08 (R197). -/
abbrev K.setHighestMapped (s : Nat) : Nat := key (0x5010 + s) (8)
/-- MaxLogicalUnits, 0x5010+s:09 (R197). -/
abbrev K.setMaxLogicalUnits (s : Nat) : Nat := key (0x5010 + s) (9)
/-- RebuildFitUnits, 0x5010+s:0A (R197). -/
abbrev K.setRebuildFitUnits (s : Nat) : Nat := key (0x5010 + s) (10)
/-- LiveUnits, 0x5010+s:0B (R197). -/
abbrev K.setLiveUnits (s : Nat) : Nat := key (0x5010 + s) (11)
/-- SetSpareReserve, 0x5010+s:0C (R197). -/
abbrev K.setSetSpareReserve (s : Nat) : Nat := key (0x5010 + s) (12)
/-- SpareFree, 0x5010+s:0D (R197). -/
abbrev K.setSpareFree (s : Nat) : Nat := key (0x5010 + s) (13)
/-- WalkBoundary, 0x5010+s:0E (R197). -/
abbrev K.setWalkBoundary (s : Nat) : Nat := key (0x5010 + s) (14)
/-- WalkRowsLeft, 0x5010+s:0F (R197). -/
abbrev K.setWalkRowsLeft (s : Nat) : Nat := key (0x5010 + s) (15)
/-- WalkRate, 0x5010+s:10 (R197). -/
abbrev K.setWalkRate (s : Nat) : Nat := key (0x5010 + s) (16)
/-- RebuildAuto, 0x5010+s:11 (R197). -/
abbrev K.setRebuildAuto (s : Nat) : Nat := key (0x5010 + s) (17)
/-- RebuildStart, 0x5010+s:12 (R197). -/
abbrev K.setRebuildStart (s : Nat) : Nat := key (0x5010 + s) (18)
/-- BlockReason, 0x5010+s:13 (R197). -/
abbrev K.setBlockReason (s : Nat) : Nat := key (0x5010 + s) (19)
/-- SetMembers, 0x5020+s:01–30 (R197). -/
abbrev K.setSetMembers (s k : Nat) : Nat := key (0x5020 + s) (k + 1)
/-- PlanSet, 0x5030:01 (R197). -/
abbrev K.planSet : Nat := key 0x5030 (1)
/-- PlanWidth, 0x5030:02 (R197). -/
abbrev K.planWidth : Nat := key 0x5030 (2)
/-- PlanCommit, 0x5030:03 (R197). -/
abbrev K.planCommit : Nat := key 0x5030 (3)
/-- RetireChannel, 0x5030:04 (R197). -/
abbrev K.retireChannel : Nat := key 0x5030 (4)
/-- RetireDie, 0x5030:05 (R197). -/
abbrev K.retireDie : Nat := key 0x5030 (5)
/-- RetireCommit, 0x5030:06 (R197). -/
abbrev K.retireCommit : Nat := key 0x5030 (6)
/-- PlanMembers, 0x5031:01–30 (R197). -/
abbrev K.planMembers (k : Nat) : Nat := key 0x5031 (k + 1)
/-- WeightValid, 0x7800:01 (R253). -/
abbrev K.weightValid : Nat := key 0x7800 (1)
/-- WeightAge, 0x7800:02 (R253). -/
abbrev K.weightAge : Nat := key 0x7800 (2)
/-- WeightWear, 0x7800:03 (R253). -/
abbrev K.weightWear : Nat := key 0x7800 (3)
/-- HarvestRate, 0x7800:04 (R253). -/
abbrev K.harvestRate : Nat := key 0x7800 (4)
/-- HarvestUrgent, 0x7800:05 (R253). -/
abbrev K.harvestUrgent : Nat := key 0x7800 (5)
/-- WearSpread, 0x7800:06 (R253). -/
abbrev K.wearSpread : Nat := key 0x7800 (6)
/-- DwellLimit, 0x7800:07 (R253). -/
abbrev K.dwellLimit : Nat := key 0x7800 (7)
/-- RowBlocksReclaimed, 0x7800:08 (R253). -/
abbrev K.rowBlocksReclaimed : Nat := key 0x7800 (8)
/-- UnitsCopied, 0x7800:09 (R253). -/
abbrev K.unitsCopied : Nat := key 0x7800 (9)
/-- CopyDiscarded, 0x7800:0A (R253). -/
abbrev K.copyDiscarded : Nat := key 0x7800 (10)
/-- ReclaimsAhead, 0x7800:0B (R253). -/
abbrev K.reclaimsAhead : Nat := key 0x7800 (11)
/-- HarvestState, 0x7810+s:01 (R253). -/
abbrev K.setHarvestState (s : Nat) : Nat := key (0x7810 + s) (1)
/-- CurrentVictim, 0x7810+s:02 (R253). -/
abbrev K.setCurrentVictim (s : Nat) : Nat := key (0x7810 + s) (2)
/-- VictimValidUnits, 0x7810+s:03 (R253). -/
abbrev K.setVictimValidUnits (s : Nat) : Nat := key (0x7810 + s) (3)
/-- CandidateCount, 0x7810+s:04 (R253). -/
abbrev K.setCandidateCount (s : Nat) : Nat := key (0x7810 + s) (4)
/-- CalendsNow, 0x7801:01 (R253). -/
abbrev K.calendsNow : Nat := key 0x7801 (1)
/-- ClockTrusted, 0x7801:02 (R253). -/
abbrev K.clockTrusted : Nat := key 0x7801 (2)
/-- TagsMissing, 0x7801:03 (R253). -/
abbrev K.tagsMissing : Nat := key 0x7801 (3)
/-- DieBlockSelect, 0x7802:01 (R253). -/
abbrev K.dieBlockSelect : Nat := key 0x7802 (1)
/-- HarvestRecord, 0x7802:02 (R253). -/
abbrev K.harvestRecord : Nat := key 0x7802 (2)
/-- CalendsTag, 0x7802:03 (R253). -/
abbrev K.calendsTag : Nat := key 0x7802 (3)
/-- ScrubEnable, 0x7803:01 (R253). -/
abbrev K.scrubEnable : Nat := key 0x7803 (1)
/-- ScrubPeriod, 0x7803:02 (R253). -/
abbrev K.scrubPeriod : Nat := key 0x7803 (2)
/-- ScrubRefreshStep, 0x7803:03 (R253). -/
abbrev K.scrubRefreshStep : Nat := key 0x7803 (3)
/-- RefreshAge, 0x7803:04 (R253). -/
abbrev K.refreshAge : Nat := key 0x7803 (4)
/-- ScrubProgress, 0x7803:05 (R253). -/
abbrev K.scrubProgress : Nat := key 0x7803 (5)
/-- ScrubPagesRead, 0x7803:06 (R253). -/
abbrev K.scrubPagesRead : Nat := key 0x7803 (6)
/-- RefreshFlagged, 0x7803:07 (R253). -/
abbrev K.refreshFlagged : Nat := key 0x7803 (7)
/-- SpareLeft, 0x7820:01 (R253). -/
abbrev K.spareLeft : Nat := key 0x7820 (1)
/-- WearUsedMean, 0x7820:02 (R253). -/
abbrev K.wearUsedMean : Nat := key 0x7820 (2)
/-- WearUsedMax, 0x7820:03 (R253). -/
abbrev K.wearUsedMax : Nat := key 0x7820 (3)
/-- RatedCycles, 0x7820:04 (R253). -/
abbrev K.ratedCycles : Nat := key 0x7820 (4)
/-- SpareWarn, 0x7820:05 (R253). -/
abbrev K.spareWarn : Nat := key 0x7820 (5)
/-- WearWarn, 0x7820:06 (R253). -/
abbrev K.wearWarn : Nat := key 0x7820 (6)
/-- HealthFlags, 0x7820:07 (R253). -/
abbrev K.healthFlags : Nat := key 0x7820 (7)
/-- TempHistDie, 0x7820:08 (R253). -/
abbrev K.tempHistDie : Nat := key 0x7820 (8)
/-- TempHistogram, 0x7820:09 (R253). -/
abbrev K.tempHistogram : Nat := key 0x7820 (9)
/-- LadderTotal, 0x7821:01–05 (R253). -/
abbrev K.ladderTotal (k : Nat) : Nat := key 0x7821 (k + 1)
/-- DramRate, 0x4000:01 (R281). -/
abbrev K.dramRate : Nat := key 0x4000 (1)
/-- SelfRefreshIdle, 0x4000:02 (R281). -/
abbrev K.selfRefreshIdle : Nat := key 0x4000 (2)
/-- RowHammerThreshold, 0x4000:03 (R281). -/
abbrev K.rowHammerThreshold : Nat := key 0x4000 (3)
/-- CorrectableLimit, 0x4000:04 (R281). -/
abbrev K.correctableLimit : Nat := key 0x4000 (4)
/-- MigrationShare, 0x4000:05 (R281). -/
abbrev K.migrationShare : Nat := key 0x4000 (5)
/-- SparesLeft, 0x4000:06 (R281). -/
abbrev K.sparesLeft : Nat := key 0x4000 (6)
/-- MapSegmentsInUse, 0x4000:07 (R281). -/
abbrev K.mapSegmentsInUse : Nat := key 0x4000 (7)
/-- NeighbourRefreshes, 0x4000:08 (R281). -/
abbrev K.neighbourRefreshes : Nat := key 0x4000 (8)
/-- PanicEpisodes, 0x4000:09 (R281). -/
abbrev K.panicEpisodes : Nat := key 0x4000 (9)
/-- InOrderEpisodes, 0x4000:0A (R281). -/
abbrev K.inOrderEpisodes : Nat := key 0x4000 (10)
/-- RegionRecoveries, 0x4000:0B (R281). -/
abbrev K.regionRecoveries : Nat := key 0x4000 (11)
/-- RecoveriesPending, 0x4000:0C (R281). -/
abbrev K.recoveriesPending : Nat := key 0x4000 (12)
/-- PatrolPasses, 0x4000:0D (R281). -/
abbrev K.patrolPasses : Nat := key 0x4000 (13)
/-- RankState0, 0x4010+s:01 (R281). -/
abbrev K.dramRankState0 (s : Nat) : Nat := key (0x4010 + s) (1)
/-- RankState1, 0x4010+s:02 (R281). -/
abbrev K.dramRankState1 (s : Nat) : Nat := key (0x4010 + s) (2)
/-- SpareHalfState, 0x4010+s:03 (R281). -/
abbrev K.dramSpareHalfState (s : Nat) : Nat := key (0x4010 + s) (3)
/-- SpareReplaces, 0x4010+s:04 (R281). -/
abbrev K.dramSpareReplaces (s : Nat) : Nat := key (0x4010 + s) (4)
/-- MigrationProgress, 0x4010+s:05 (R281). -/
abbrev K.dramMigrationProgress (s : Nat) : Nat := key (0x4010 + s) (5)
/-- CorrectedErrors, 0x4010+s:06 (R281). -/
abbrev K.dramCorrectedErrors (s : Nat) : Nat := key (0x4010 + s) (6)
/-- UncorrectableErrors, 0x4010+s:07 (R281). -/
abbrev K.dramUncorrectableErrors (s : Nat) : Nat := key (0x4010 + s) (7)
/-- CommandParityErrors, 0x4010+s:08 (R281). -/
abbrev K.dramCommandParityErrors (s : Nat) : Nat := key (0x4010 + s) (8)
/-- RetireRank, 0x4010+s:09 (R281). -/
abbrev K.dramRetireRank (s : Nat) : Nat := key (0x4010 + s) (9)
/-- EyeWidth, 0x4010+s:0A (R281). -/
abbrev K.dramEyeWidth (s : Nat) : Nat := key (0x4010 + s) (10)
/-- EyeHeight, 0x4010+s:0B (R281). -/
abbrev K.dramEyeHeight (s : Nat) : Nat := key (0x4010 + s) (11)
/-- ResidualBer, 0x4010+s:0C (R281). -/
abbrev K.dramResidualBer (s : Nat) : Nat := key (0x4010 + s) (12)
/-- CalSource, 0x4010+s:0D (R281). -/
abbrev K.dramCalSource (s : Nat) : Nat := key (0x4010 + s) (13)
/-- HelperSubchannel, 0x4020:01 (R281). -/
abbrev K.helperSubchannel : Nat := key 0x4020 (1)
/-- HelperRank, 0x4020:02 (R281). -/
abbrev K.helperRank : Nat := key 0x4020 (2)
/-- HelperPattern, 0x4020:03 (R281). -/
abbrev K.helperPattern : Nat := key 0x4020 (3)
/-- HelperFixed, 0x4020:04 (R281). -/
abbrev K.helperFixed : Nat := key 0x4020 (4)
/-- HelperReadDelay, 0x4020:05 (R281). -/
abbrev K.helperReadDelay : Nat := key 0x4020 (5)
/-- HelperWriteDelay, 0x4020:06 (R281). -/
abbrev K.helperWriteDelay : Nat := key 0x4020 (6)
/-- HelperReadVref, 0x4020:07 (R281). -/
abbrev K.helperReadVref : Nat := key 0x4020 (7)
/-- HelperDramVref, 0x4020:08 (R281). -/
abbrev K.helperDramVref : Nat := key 0x4020 (8)
/-- HelperBursts, 0x4020:09 (R281). -/
abbrev K.helperBursts : Nat := key 0x4020 (9)
/-- HelperStart, 0x4020:0A (R281). -/
abbrev K.helperStart : Nat := key 0x4020 (10)
/-- HelperState, 0x4020:0B (R281). -/
abbrev K.helperState : Nat := key 0x4020 (11)
/-- HelperLaneErrors, 0x4020:0C (R281). -/
abbrev K.helperLaneErrors : Nat := key 0x4020 (12)
/-- HelperFirstFail, 0x4020:0D (R281). -/
abbrev K.helperFirstFail : Nat := key 0x4020 (13)
/-- HelperBurstsDone, 0x4020:0E (R281). -/
abbrev K.helperBurstsDone : Nat := key 0x4020 (14)
/-- PortNumber, +0x00:01 (R317). -/
abbrev K.portPortNumber (p : Nat) : Nat := key (0x8800 + 0x40 * p + 0) (1)
/-- LaneCount, +0x00:02 (R317). -/
abbrev K.portLaneCount (p : Nat) : Nat := key (0x8800 + 0x40 * p + 0) (2)
/-- LinkState, +0x00:03 (R317). -/
abbrev K.portLinkState (p : Nat) : Nat := key (0x8800 + 0x40 * p + 0) (3)
/-- Width, +0x00:04 (R317). -/
abbrev K.portWidth (p : Nat) : Nat := key (0x8800 + 0x40 * p + 0) (4)
/-- LaneMap, +0x00:05 (R317). -/
abbrev K.portLaneMap (p : Nat) : Nat := key (0x8800 + 0x40 * p + 0) (5)
/-- FailedLanes, +0x00:06 (R317). -/
abbrev K.portFailedLanes (p : Nat) : Nat := key (0x8800 + 0x40 * p + 0) (6)
/-- CalSource, +0x00:07 (R317). -/
abbrev K.portCalSource (p : Nat) : Nat := key (0x8800 + 0x40 * p + 0) (7)
/-- Retrain, +0x00:08 (R317). -/
abbrev K.portRetrain (p : Nat) : Nat := key (0x8800 + 0x40 * p + 0) (8)
/-- FullTrain, +0x00:09 (R317). -/
abbrev K.portFullTrain (p : Nat) : Nat := key (0x8800 + 0x40 * p + 0) (9)
/-- LinkReset, +0x00:0A (R317). -/
abbrev K.portLinkReset (p : Nat) : Nat := key (0x8800 + 0x40 * p + 0) (10)
/-- FlitsSent, +0x01:01 (R317). -/
abbrev K.portFlitsSent (p : Nat) : Nat := key (0x8800 + 0x40 * p + 1) (1)
/-- FlitsReceived, +0x01:02 (R317). -/
abbrev K.portFlitsReceived (p : Nat) : Nat := key (0x8800 + 0x40 * p + 1) (2)
/-- CrcErrors, +0x01:03 (R317). -/
abbrev K.portCrcErrors (p : Nat) : Nat := key (0x8800 + 0x40 * p + 1) (3)
/-- SyncSymbolErrors, +0x01:04 (R317). -/
abbrev K.portSyncSymbolErrors (p : Nat) : Nat := key (0x8800 + 0x40 * p + 1) (4)
/-- NaksSent, +0x01:05 (R317). -/
abbrev K.portNaksSent (p : Nat) : Nat := key (0x8800 + 0x40 * p + 1) (5)
/-- NaksReceived, +0x01:06 (R317). -/
abbrev K.portNaksReceived (p : Nat) : Nat := key (0x8800 + 0x40 * p + 1) (6)
/-- FlitsReplayed, +0x01:07 (R317). -/
abbrev K.portFlitsReplayed (p : Nat) : Nat := key (0x8800 + 0x40 * p + 1) (7)
/-- DuplicatesDropped, +0x01:08 (R317). -/
abbrev K.portDuplicatesDropped (p : Nat) : Nat := key (0x8800 + 0x40 * p + 1) (8)
/-- Realigns, +0x01:09 (R317). -/
abbrev K.portRealigns (p : Nat) : Nat := key (0x8800 + 0x40 * p + 1) (9)
/-- Retrains, +0x01:0A (R317). -/
abbrev K.portRetrains (p : Nat) : Nat := key (0x8800 + 0x40 * p + 1) (10)
/-- LinkResets, +0x01:0B (R317). -/
abbrev K.portLinkResets (p : Nat) : Nat := key (0x8800 + 0x40 * p + 1) (11)
/-- MalformedPackets, +0x01:0C (R317). -/
abbrev K.portMalformedPackets (p : Nat) : Nat := key (0x8800 + 0x40 * p + 1) (12)
/-- ReplayTimeout, +0x02:01 (R317). -/
abbrev K.portReplayTimeout (p : Nat) : Nat := key (0x8800 + 0x40 * p + 2) (1)
/-- CrcRetrainLimit, +0x02:02 (R317). -/
abbrev K.portCrcRetrainLimit (p : Nat) : Nat := key (0x8800 + 0x40 * p + 2) (2)
/-- PartnerCreditP, +0x02:03 (R317). -/
abbrev K.portPartnerCreditP (p : Nat) : Nat := key (0x8800 + 0x40 * p + 2) (3)
/-- PartnerCreditN, +0x02:04 (R317). -/
abbrev K.portPartnerCreditN (p : Nat) : Nat := key (0x8800 + 0x40 * p + 2) (4)
/-- UnackedFlits, +0x02:05 (R317). -/
abbrev K.portUnackedFlits (p : Nat) : Nat := key (0x8800 + 0x40 * p + 2) (5)
/-- LinkResetHost, +0x02:06 (R317). -/
abbrev K.portLinkResetHost (p : Nat) : Nat := key (0x8800 + 0x40 * p + 2) (6)
/-- EyeWidth, +0x03:01 (R317). -/
abbrev K.portEyeWidth (p : Nat) : Nat := key (0x8800 + 0x40 * p + 3) (1)
/-- EyeHeight, +0x03:02 (R317). -/
abbrev K.portEyeHeight (p : Nat) : Nat := key (0x8800 + 0x40 * p + 3) (2)
/-- ResidualBer, +0x03:03 (R317). -/
abbrev K.portResidualBer (p : Nat) : Nat := key (0x8800 + 0x40 * p + 3) (3)
/-- LaneEyeWidth, +0x04:01–10 (R317). -/
abbrev K.portLaneEyeWidth (p k : Nat) : Nat := key (0x8800 + 0x40 * p + 4) (k + 1)
/-- LaneEyeHeight, +0x05:01–10 (R317). -/
abbrev K.portLaneEyeHeight (p k : Nat) : Nat := key (0x8800 + 0x40 * p + 5) (k + 1)
/-- LaneResidualBer, +0x06:01–10 (R317). -/
abbrev K.portLaneResidualBer (p k : Nat) : Nat := key (0x8800 + 0x40 * p + 6) (k + 1)
/-- LaneTxTaps, +0x07:01–10 (R317). -/
abbrev K.portLaneTxTaps (p k : Nat) : Nat := key (0x8800 + 0x40 * p + 7) (k + 1)
/-- CalStoreMode, 0x9000:01 (R338). -/
abbrev K.calStoreMode : Nat := key 0x9000 (1)
/-- CalStoreHold, 0x9000:02 (R338). -/
abbrev K.calStoreHold : Nat := key 0x9000 (2)
/-- ReapplyStep, 0x9000:03 (R338). -/
abbrev K.reapplyStep : Nat := key 0x9000 (3)
/-- SurveyEnable, 0x9000:04 (R338). -/
abbrev K.surveyEnable : Nat := key 0x9000 (4)
/-- SurveyFallbacks, 0x9000:05 (R338). -/
abbrev K.surveyFallbacks : Nat := key 0x9000 (5)
/-- RecordsUsable, 0x9000:06 (R338). -/
abbrev K.recordsUsable : Nat := key 0x9000 (6)
/-- RecordRewrites, 0x9000:07 (R338). -/
abbrev K.recordRewrites : Nat := key 0x9000 (7)
/-- CalSelectKind, 0x9001:01 (R338). -/
abbrev K.calSelectKind : Nat := key 0x9001 (1)
/-- CalSelectInstance, 0x9001:02 (R338). -/
abbrev K.calSelectInstance : Nat := key 0x9001 (2)
/-- CalSelectForm, 0x9001:03 (R338). -/
abbrev K.calSelectForm : Nat := key 0x9001 (3)
/-- CalSelect, 0x9001:04 (R338). -/
abbrev K.calSelect : Nat := key 0x9001 (4)
/-- CalRecordRead, 0x9001:05 (R338). -/
abbrev K.calRecordRead : Nat := key 0x9001 (5)
/-- CalImportData, 0x9001:06 (R338). -/
abbrev K.calImportData : Nat := key 0x9001 (6)
/-- CalImport, 0x9001:07 (R338). -/
abbrev K.calImport : Nat := key 0x9001 (7)
/-- CalImportState, 0x9001:08 (R338). -/
abbrev K.calImportState : Nat := key 0x9001 (8)
/-- CalImportsAccepted, 0x9001:09 (R338). -/
abbrev K.calImportsAccepted : Nat := key 0x9001 (9)
/-- SurveyState, 0x9002:01 (R338). -/
abbrev K.surveyState : Nat := key 0x9002 (1)
/-- SurveyedDies, 0x9002:02 (R338). -/
abbrev K.surveyedDies : Nat := key 0x9002 (2)
/-- DeviceMode, 0x2000:01 (R354). -/
abbrev K.deviceMode : Nat := key 0x2000 (1)
/-- ModeReason, 0x2000:02 (R354). -/
abbrev K.modeReason : Nat := key 0x2000 (2)
/-- ModeChanges, 0x2000:03 (R354). -/
abbrev K.modeChanges : Nat := key 0x2000 (3)
/-- ColdEntries, 0x2000:04 (R354). -/
abbrev K.coldEntries : Nat := key 0x2000 (4)
/-- LastColdCause, 0x2000:05 (R354). -/
abbrev K.lastColdCause : Nat := key 0x2000 (5)
/-- ResetDevice, 0x2000:06 (R354). -/
abbrev K.resetDevice : Nat := key 0x2000 (6)
/-- BringupStep, 0x2001:01 (R354). -/
abbrev K.bringupStep : Nat := key 0x2001 (1)
/-- BringupFault, 0x2001:02 (R354). -/
abbrev K.bringupFault : Nat := key 0x2001 (2)
/-- BringupElapsed, 0x2001:03 (R354). -/
abbrev K.bringupElapsed : Nat := key 0x2001 (3)
/-- RestoreRecords, 0x2001:04 (R354). -/
abbrev K.restoreRecords : Nat := key 0x2001 (4)
/-- ReplayUnits, 0x2001:05 (R354). -/
abbrev K.replayUnits : Nat := key 0x2001 (5)
/-- SaveSweepSpan, 0x2001:06 (R354). -/
abbrev K.saveSweepSpan : Nat := key 0x2001 (6)
/-- PowerState, 0x2010:01 (R387). -/
abbrev K.powerState : Nat := key 0x2010 (1)
/-- DeepestState, 0x2010:02 (R387). -/
abbrev K.deepestState : Nat := key 0x2010 (2)
/-- AutoPoiseIdle, 0x2010:03 (R387). -/
abbrev K.autoPoiseIdle : Nat := key 0x2010 (3)
/-- PowerEntries, 0x2010:04 (R387). -/
abbrev K.powerEntries : Nat := key 0x2010 (4)
/-- PowerBlock, 0x2010:05 (R387). -/
abbrev K.powerBlock : Nat := key 0x2010 (5)
/-- WakeCause, 0x2010:06 (R387). -/
abbrev K.wakeCause : Nat := key 0x2010 (6)
/-- WakeImageValid, 0x2010:07 (R387). -/
abbrev K.wakeImageValid : Nat := key 0x2010 (7)
/-- VidCode, 0x2020:01 (R387). -/
abbrev K.vidCode : Nat := key 0x2020 (1)
/-- VidRaises, 0x2020:02 (R387). -/
abbrev K.vidRaises : Nat := key 0x2020 (2)
/-- VidLowers, 0x2020:03 (R387). -/
abbrev K.vidLowers : Nat := key 0x2020 (3)
/-- RailPowerGood, 0x2020:04 (R387). -/
abbrev K.railPowerGood : Nat := key 0x2020 (4)
/-- RailFaults, 0x2020:05 (R387). -/
abbrev K.railFaults : Nat := key 0x2020 (5)
/-- JunctionWarn, 0x2020:06 (R387). -/
abbrev K.junctionWarn : Nat := key 0x2020 (6)
/-- ThermalTrips, 0x2020:07 (R387). -/
abbrev K.thermalTrips : Nat := key 0x2020 (7)
/-- HoldupState, 0x2030:01 (R387). -/
abbrev K.holdupState : Nat := key 0x2030 (1)
/-- HoldupEnergy, 0x2030:02 (R387). -/
abbrev K.holdupEnergy : Nat := key 0x2030 (2)
/-- HoldupVoltage, 0x2030:03 (R387). -/
abbrev K.holdupVoltage : Nat := key 0x2030 (3)
/-- HoldupCapacitance, 0x2030:04 (R387). -/
abbrev K.holdupCapacitance : Nat := key 0x2030 (4)
/-- HoldupCutoff, 0x2030:05 (R387). -/
abbrev K.holdupCutoff : Nat := key 0x2030 (5)
/-- HoldupSenseRatio, 0x2030:06 (R387). -/
abbrev K.holdupSenseRatio : Nat := key 0x2030 (6)
/-- HoldupTestLoad, 0x2030:07 (R387). -/
abbrev K.holdupTestLoad : Nat := key 0x2030 (7)
/-- HoldupTestPeriod, 0x2030:08 (R387). -/
abbrev K.holdupTestPeriod : Nat := key 0x2030 (8)
/-- HoldupTestStart, 0x2030:09 (R387). -/
abbrev K.holdupTestStart : Nat := key 0x2030 (9)
/-- VinFailLevel, 0x2030:0A (R387). -/
abbrev K.vinFailLevel : Nat := key 0x2030 (10)
/-- VinGoodLevel, 0x2030:0B (R387). -/
abbrev K.vinGoodLevel : Nat := key 0x2030 (11)
/-- VinSenseRatio, 0x2030:0C (R387). -/
abbrev K.vinSenseRatio : Nat := key 0x2030 (12)
/-- VigilCount, 0x2040:01 (R387). -/
abbrev K.vigilCount : Nat := key 0x2040 (1)
/-- LastVigilOutcome, 0x2040:02 (R387). -/
abbrev K.lastVigilOutcome : Nat := key 0x2040 (2)
/-- LastVigilDuration, 0x2040:03 (R387). -/
abbrev K.lastVigilDuration : Nat := key 0x2040 (3)
/-- LastVigilMarks, 0x2040:04 (R387). -/
abbrev K.lastVigilMarks : Nat := key 0x2040 (4)
/-- TornPages, 0x2040:05 (R387). -/
abbrev K.tornPages : Nat := key 0x2040 (5)
/-- GapFirst, 0x2040:06 (R387). -/
abbrev K.gapFirst : Nat := key 0x2040 (6)
/-- GapLast, 0x2040:07 (R387). -/
abbrev K.gapLast : Nat := key 0x2040 (7)
/-- DumpUnits, 0x2040:08 (R387). -/
abbrev K.dumpUnits : Nat := key 0x2040 (8)
/-- LedgerFree, 0x2040:09 (R387). -/
abbrev K.ledgerFree : Nat := key 0x2040 (9)
/-- ScanCount, 0x3000:01 (R413). -/
abbrev K.scanCount : Nat := key 0x3000 (1)
/-- ScanPeriod, 0x3000:02 (R413). -/
abbrev K.scanPeriod : Nat := key 0x3000 (2)
/-- SettleDiscards, 0x3000:03 (R413). -/
abbrev K.settleDiscards : Nat := key 0x3000 (3)
/-- JunctionMax, 0x3000:04 (R413). -/
abbrev K.junctionMax : Nat := key 0x3000 (4)
/-- ThermistorMask, 0x3000:05 (R413). -/
abbrev K.thermistorMask : Nat := key 0x3000 (5)
/-- MonitorFaults, 0x3000:06 (R413). -/
abbrev K.monitorFaults : Nat := key 0x3000 (6)
/-- Sample, 0x3100+i:01 (R413). -/
abbrev K.adcSample (i : Nat) : Nat := key (0x3100 + i) (1)
/-- Value, 0x3100+i:02 (R413). -/
abbrev K.adcValue (i : Nat) : Nat := key (0x3100 + i) (2)
/-- OverRanges, 0x3100+i:03 (R413). -/
abbrev K.adcOverRanges (i : Nat) : Nat := key (0x3100 + i) (3)
/-- Address, 0x3800+p:01 (R413). -/
abbrev K.sbAddress (p : Nat) : Nat := key (0x3800 + p) (1)
/-- StrapLevels, 0x3800+p:02 (R413). -/
abbrev K.sbStrapLevels (p : Nat) : Nat := key (0x3800 + p) (2)
/-- SdaHold, 0x3800+p:03 (R413). -/
abbrev K.sbSdaHold (p : Nat) : Nat := key (0x3800 + p) (3)
/-- StartSetup, 0x3800+p:04 (R413). -/
abbrev K.sbStartSetup (p : Nat) : Nat := key (0x3800 + p) (4)
/-- SpikeFilter, 0x3800+p:05 (R413). -/
abbrev K.sbSpikeFilter (p : Nat) : Nat := key (0x3800 + p) (5)
/-- PecFailures, 0x3800+p:06 (R413). -/
abbrev K.sbPecFailures (p : Nat) : Nat := key (0x3800 + p) (6)
/-- PortResets, 0x3800+p:07 (R413). -/
abbrev K.sbPortResets (p : Nat) : Nat := key (0x3800 + p) (7)
/-- StretchTimeouts, 0x3800+p:08 (R413). -/
abbrev K.sbStretchTimeouts (p : Nat) : Nat := key (0x3800 + p) (8)
/-- SclLowTimeouts, 0x3800+p:09 (R413). -/
abbrev K.sbSclLowTimeouts (p : Nat) : Nat := key (0x3800 + p) (9)
/-- SdaStuckReleases, 0x3800+p:0A (R413). -/
abbrev K.sbSdaStuckReleases (p : Nat) : Nat := key (0x3800 + p) (10)
/-- WakeNacks, 0x3800+p:0B (R413). -/
abbrev K.sbWakeNacks (p : Nat) : Nat := key (0x3800 + p) (11)
/-- LastResetCause, 0x3800+p:0C (R413). -/
abbrev K.sbLastResetCause (p : Nat) : Nat := key (0x3800 + p) (12)
/-- BoardDigest, 0x3810:01 (R413). -/
abbrev K.boardDigest : Nat := key 0x3810 (1)
/-- Role, 0xF000:01 (R444). -/
abbrev K.role : Nat := key 0xf000 (1)
/-- DeviceNumber, 0xF000:02 (R444). -/
abbrev K.deviceNumber : Nat := key 0xf000 (2)
/-- GroupState, 0xF000:03 (R444). -/
abbrev K.groupState : Nat := key 0xf000 (3)
/-- MemberCount, 0xF000:04 (R444). -/
abbrev K.memberCount : Nat := key 0xf000 (4)
/-- RosterGeneration, 0xF000:05 (R444). -/
abbrev K.rosterGeneration : Nat := key 0xf000 (5)
/-- LastDeviceNumber, 0xF000:06 (R444). -/
abbrev K.lastDeviceNumber : Nat := key 0xf000 (6)
/-- GroupLeave, 0xF000:07 (R444). -/
abbrev K.groupLeave : Nat := key 0xf000 (7)
/-- MisroutedPackets, 0xF000:08 (R444). -/
abbrev K.misroutedPackets : Nat := key 0xf000 (8)
/-- GroupWait, 0xF000:09 (R444). -/
abbrev K.groupWait : Nat := key 0xf000 (9)
/-- RosterEntry, 0xF001:01–10 (R444). -/
abbrev K.rosterEntry (k : Nat) : Nat := key 0xf001 (k + 1)
/-- BarrierNumber, 0xF010:01 (R444). -/
abbrev K.barrierNumber : Nat := key 0xf010 (1)
/-- BarrierState, 0xF010:02 (R444). -/
abbrev K.barrierState : Nat := key 0xf010 (2)
/-- EquinoxArrive, 0xF010:03 (R444). -/
abbrev K.equinoxArrive : Nat := key 0xf010 (3)
/-- BarrierTimeout, 0xF010:04 (R444). -/
abbrev K.barrierTimeout : Nat := key 0xf010 (4)
/-- SnapshotHoldLimit, 0xF010:05 (R444). -/
abbrev K.snapshotHoldLimit : Nat := key 0xf010 (5)
/-- LastBarrierTime, 0xF010:06 (R444). -/
abbrev K.lastBarrierTime : Nat := key 0xf010 (6)
/-- EqxLine, 0xF010:07 (R444). -/
abbrev K.eqxLine : Nat := key 0xf010 (7)
/-- EqxDriving, 0xF010:08 (R444). -/
abbrev K.eqxDriving : Nat := key 0xf010 (8)
/-- SnapshotNumber, 0xF010:09 (R444). -/
abbrev K.snapshotNumber : Nat := key 0xf010 (9)
/-- SnapshotSequence, 0xF010:0A (R444). -/
abbrev K.snapshotSequence : Nat := key 0xf010 (10)
/-- SnapshotState, 0xF010:0B (R444). -/
abbrev K.snapshotState : Nat := key 0xf010 (11)
/-- StartAll, 0xF010:0C (R444). -/
abbrev K.startAll : Nat := key 0xf010 (12)
/-- SnapshotTable, 0xF011:01–10 (R444). -/
abbrev K.snapshotTable (k : Nat) : Nat := key 0xf011 (k + 1)
/-- SnapshotGathered, 0xF011:11 (R444). -/
abbrev K.snapshotGathered : Nat := key 0xf011 (17)
/-- RelayDevice, 0xF020:01 (R444). -/
abbrev K.relayDevice : Nat := key 0xf020 (1)
/-- RelayRequest, 0xF020:02 (R444). -/
abbrev K.relayRequest : Nat := key 0xf020 (2)
/-- RelayGo, 0xF020:03 (R444). -/
abbrev K.relayGo : Nat := key 0xf020 (3)
/-- RelayState, 0xF020:04 (R444). -/
abbrev K.relayState : Nat := key 0xf020 (4)
/-- RelayResponse, 0xF020:05 (R444). -/
abbrev K.relayResponse : Nat := key 0xf020 (5)
/-- RelayReached, 0xF020:06 (R444). -/
abbrev K.relayReached : Nat := key 0xf020 (6)
/-- BoardReset, 0xF030:01 (R444). -/
abbrev K.boardReset : Nat := key 0xf030 (1)
/-- ResetState, 0xF030:02 (R444). -/
abbrev K.resetState : Nat := key 0xf030 (2)
/-- ResetDrainLimit, 0xF030:03 (R444). -/
abbrev K.resetDrainLimit : Nat := key 0xf030 (3)
/-- ResetStragglers, 0xF030:04 (R444). -/
abbrev K.resetStragglers : Nat := key 0xf030 (4)
/-- TransferDevice, 0xF040:01 (R444). -/
abbrev K.transferDevice : Nat := key 0xf040 (1)
/-- TransferSourceSet, 0xF040:02 (R444). -/
abbrev K.transferSourceSet : Nat := key 0xf040 (2)
/-- TransferSourceFirst, 0xF040:03 (R444). -/
abbrev K.transferSourceFirst : Nat := key 0xf040 (3)
/-- TransferUnits, 0xF040:04 (R444). -/
abbrev K.transferUnits : Nat := key 0xf040 (4)
/-- TransferDestSet, 0xF040:05 (R444). -/
abbrev K.transferDestSet : Nat := key 0xf040 (5)
/-- TransferDestFirst, 0xF040:06 (R444). -/
abbrev K.transferDestFirst : Nat := key 0xf040 (6)
/-- TransferRate, 0xF040:07 (R444). -/
abbrev K.transferRate : Nat := key 0xf040 (7)
/-- TransferStart, 0xF040:08 (R444). -/
abbrev K.transferStart : Nat := key 0xf040 (8)
/-- TransferState, 0xF040:09 (R444). -/
abbrev K.transferState : Nat := key 0xf040 (9)
/-- TransferUnitsDone, 0xF040:0A (R444). -/
abbrev K.transferUnitsDone : Nat := key 0xf040 (10)
/-- TransferUnitsSuperseded, 0xF040:0B (R444). -/
abbrev K.transferUnitsSuperseded : Nat := key 0xf040 (11)
/-- TransferStop, 0xF040:0C (R444). -/
abbrev K.transferStop : Nat := key 0xf040 (12)
/-- AllDataRate, 0xF3C2:01 (R444). -/
abbrev K.allDataRate : Nat := key 0xf3c2 (1)
/-- AllDriveCode, 0xF3C2:02 (R444). -/
abbrev K.allDriveCode : Nat := key 0xf3c2 (2)
/-- AllOdtCode, 0xF3C2:03 (R444). -/
abbrev K.allOdtCode : Nat := key 0xf3c2 (3)
/-- AllThrottleLimit, 0xF3D1:01 (R444). -/
abbrev K.allThrottleLimit : Nat := key 0xf3d1 (1)
/-- ActiveSlot, 0x8000:01 (R471). -/
abbrev K.activeSlot : Nat := key 0x8000 (1)
/-- FirmwareVersion, 0x8000:02 (R471). -/
abbrev K.firmwareVersion : Nat := key 0x8000 (2)
/-- SecurityVersion, 0x8000:03 (R471). -/
abbrev K.securityVersion : Nat := key 0x8000 (3)
/-- SlotState, 0x8000:04 (R471). -/
abbrev K.slotState : Nat := key 0x8000 (4)
/-- HostGrantBase, 0x8000:05 (R471). -/
abbrev K.hostGrantBase : Nat := key 0x8000 (5)
/-- HostGrantLimit, 0x8000:06 (R471). -/
abbrev K.hostGrantLimit : Nat := key 0x8000 (6)
/-- UpdateCommit, 0x8000:07 (R471). -/
abbrev K.updateCommit : Nat := key 0x8000 (7)
/-- UpdateState, 0x8000:08 (R471). -/
abbrev K.updateState : Nat := key 0x8000 (8)
/-- UpdateUnitsStaged, 0x8000:09 (R471). -/
abbrev K.updateUnitsStaged : Nat := key 0x8000 (9)
/-- ProtectStandby, 0x8000:0A (R471). -/
abbrev K.protectStandby : Nat := key 0x8000 (10)
/-- QueueDepth, 0x8001:01 (R471). -/
abbrev K.queueDepth : Nat := key 0x8001 (1)
/-- OperationsDone, 0x8001:02 (R471). -/
abbrev K.operationsDone : Nat := key 0x8001 (2)
/-- OperationFails, 0x8001:03 (R471). -/
abbrev K.operationFails : Nat := key 0x8001 (3)
/-- CheckFailsMet, 0x8001:04 (R471). -/
abbrev K.checkFailsMet : Nat := key 0x8001 (4)
/-- LastFault, 0x8001:05 (R471). -/
abbrev K.lastFault : Nat := key 0x8001 (5)
/-- CfSparesLeft, 0x8001:06 (R471). -/
abbrev K.cfSparesLeft : Nat := key 0x8001 (6)
/-- WriteProtect, 0x8001:07 (R471). -/
abbrev K.writeProtect : Nat := key 0x8001 (7)
/-- CounterSelect, 0x8001:08 (R471). -/
abbrev K.counterSelect : Nat := key 0x8001 (8)
/-- SectorEraseCount, 0x8001:09 (R471). -/
abbrev K.sectorEraseCount : Nat := key 0x8001 (9)
/-- HighestEraseCount, 0x8001:0A (R471). -/
abbrev K.highestEraseCount : Nat := key 0x8001 (10)
/-- CfReadAddress, 0x8002:01 (R471). -/
abbrev K.cfReadAddress : Nat := key 0x8002 (1)
/-- CfReadCount, 0x8002:02 (R471). -/
abbrev K.cfReadCount : Nat := key 0x8002 (2)
/-- CfRead, 0x8002:03 (R471). -/
abbrev K.cfRead : Nat := key 0x8002 (3)
/-- CfReadState, 0x8002:04 (R471). -/
abbrev K.cfReadState : Nat := key 0x8002 (4)
/-- CfReadData, 0x8002:05 (R471). -/
abbrev K.cfReadData : Nat := key 0x8002 (5)
/-- CfReadCheckFails, 0x8002:06 (R471). -/
abbrev K.cfReadCheckFails : Nat := key 0x8002 (6)
/-- DumpRequest, 0x8002:07 (R471). -/
abbrev K.dumpRequest : Nat := key 0x8002 (7)
/-- DumpState, 0x8002:08 (R471). -/
abbrev K.dumpState : Nat := key 0x8002 (8)
/-- DumpNumber, 0x8002:09 (R471). -/
abbrev K.dumpNumber : Nat := key 0x8002 (9)
/-- DumpRelease, 0x8002:0A (R471). -/
abbrev K.dumpRelease : Nat := key 0x8002 (10)
/-- LotCode, 0x8003:01 (R471). -/
abbrev K.lotCode : Nat := key 0x8003 (1)
/-- VendorKeyHash, 0x8003:02 (R471). -/
abbrev K.vendorKeyHash : Nat := key 0x8003 (2)
/-- TestKeyHash, 0x8003:03 (R471). -/
abbrev K.testKeyHash : Nat := key 0x8003 (3)
/-- CustomerKeyHash, 0x8003:04 (R471). -/
abbrev K.customerKeyHash : Nat := key 0x8003 (4)
/-- CustomerKeyState, 0x8003:05 (R471). -/
abbrev K.customerKeyState : Nat := key 0x8003 (5)
/-- CustomerKeyData, 0x8003:06 (R471). -/
abbrev K.customerKeyData : Nat := key 0x8003 (6)
/-- CustomerKeyBurn, 0x8003:07 (R471). -/
abbrev K.customerKeyBurn : Nat := key 0x8003 (7)
/-- MinSecurityVersion, 0x8003:08 (R471). -/
abbrev K.minSecurityVersion : Nat := key 0x8003 (8)
/-- RaiseSecurityVersion, 0x8003:09 (R471). -/
abbrev K.raiseSecurityVersion : Nat := key 0x8003 (9)
/-- Enable, 0xD000+n:01 (R489). -/
abbrev K.evEnable (n : Nat) : Nat := key (0xD000 + n) (1)
/-- Ring, 0xD000+n:02 (R489). -/
abbrev K.evRing (n : Nat) : Nat := key (0xD000 + n) (2)
/-- Latched, 0xD000+n:03 (R489). -/
abbrev K.evLatched (n : Nat) : Nat := key (0xD000 + n) (3)
/-- Count, 0xD000+n:04 (R489). -/
abbrev K.evCount (n : Nat) : Nat := key (0xD000 + n) (4)
/-- LastArgument, 0xD000+n:05 (R489). -/
abbrev K.evLastArgument (n : Nat) : Nat := key (0xD000 + n) (5)
/-- LastUptime, 0xD000+n:06 (R489). -/
abbrev K.evLastUptime (n : Nat) : Nat := key (0xD000 + n) (6)
/-- Clear, 0xD000+n:07 (R489). -/
abbrev K.evClear (n : Nat) : Nat := key (0xD000 + n) (7)
/-- Severity, 0xD000+n:08 (R489). -/
abbrev K.evSeverity (n : Nat) : Nat := key (0xD000 + n) (8)
/-- Pending, 0xD000+n:09 (R489). -/
abbrev K.evPending (n : Nat) : Nat := key (0xD000 + n) (9)
/-- PepperEnable, 0xE000:01 (R490). -/
abbrev K.pepperEnable : Nat := key 0xe000 (1)
/-- PepperActive, 0xE000:02 (R490). -/
abbrev K.pepperActive : Nat := key 0xe000 (2)
/-- PepperClearAll, 0xE000:03 (R490). -/
abbrev K.pepperClearAll : Nat := key 0xe000 (3)
/-- PepperSeed, 0xE000:04 (R490). -/
abbrev K.pepperSeed : Nat := key 0xe000 (4)
/-- StageDelay, 0xE010:01–08 (R490). -/
abbrev K.stageDelay (k : Nat) : Nat := key 0xe010 (k + 1)
/-- StageSelect, 0xE011:01–08 (R490). -/
abbrev K.stageSelect (k : Nat) : Nat := key 0xe011 (k + 1)
/-- StagePhases, 0xE012:01–08 (R490). -/
abbrev K.stagePhases (k : Nat) : Nat := key 0xe012 (k + 1)
/-- RingSelect, 0xE020:01 (R490). -/
abbrev K.ringSelect : Nat := key 0xe020 (1)
/-- FetchRefuse, 0xE020:02 (R490). -/
abbrev K.fetchRefuse : Nat := key 0xe020 (2)
/-- PostDelay, 0xE020:03 (R490). -/
abbrev K.postDelay : Nat := key 0xe020 (3)
/-- ChannelSelect, 0xE020:04 (R490). -/
abbrev K.channelSelect : Nat := key 0xe020 (4)
/-- BusWithhold, 0xE020:05 (R490). -/
abbrev K.busWithhold : Nat := key 0xe020 (5)
/-- DutyPeriod, 0xE020:06 (R490). -/
abbrev K.dutyPeriod : Nat := key 0xe020 (6)
/-- BusyChannel, 0xE030:01 (R490). -/
abbrev K.busyChannel : Nat := key 0xe030 (1)
/-- BusyDieMask, 0xE030:02 (R490). -/
abbrev K.busyDieMask : Nat := key 0xe030 (2)
/-- BusyOps, 0xE030:03 (R490). -/
abbrev K.busyOps : Nat := key 0xe030 (3)
/-- BusyStretch, 0xE030:04 (R490). -/
abbrev K.busyStretch : Nat := key 0xe030 (4)
/-- DramSubMask, 0xE040:01 (R490). -/
abbrev K.dramSubMask : Nat := key 0xe040 (1)
/-- DramDelay, 0xE040:02 (R490). -/
abbrev K.dramDelay : Nat := key 0xe040 (2)
/-- DramDelayShare, 0xE040:03 (R490). -/
abbrev K.dramDelayShare : Nat := key 0xe040 (3)
/-- LinkPort, 0xE050:01 (R490). -/
abbrev K.linkPort : Nat := key 0xe050 (1)
/-- CrcForceInterval, 0xE050:02 (R490). -/
abbrev K.crcForceInterval : Nat := key 0xe050 (2)
/-- CrcBurst, 0xE050:03 (R490). -/
abbrev K.crcBurst : Nat := key 0xe050 (3)
/-- AckDropInterval, 0xE050:04 (R490). -/
abbrev K.ackDropInterval : Nat := key 0xe050 (4)
/-- ForceRealign, 0xE050:05 (R490). -/
abbrev K.forceRealign : Nat := key 0xe050 (5)
/-- CrcForced, 0xE050:06 (R490). -/
abbrev K.crcForced : Nat := key 0xe050 (6)
/-- AdcInput, 0xE060:01 (R490). -/
abbrev K.adcInput : Nat := key 0xe060 (1)
/-- AdcForce, 0xE060:02 (R490). -/
abbrev K.adcForce : Nat := key 0xe060 (2)
/-- AdcConversions, 0xE060:03 (R490). -/
abbrev K.adcConversions : Nat := key 0xe060 (3)
/-- AdcInjected, 0xE060:04 (R490). -/
abbrev K.adcInjected : Nat := key 0xe060 (4)
/-- EccChannel, 0xE070:01 (R490). -/
abbrev K.eccChannel : Nat := key 0xe070 (1)
/-- EccStep, 0xE070:02 (R490). -/
abbrev K.eccStep : Nat := key 0xe070 (2)
/-- EccShare, 0xE070:03 (R490). -/
abbrev K.eccShare : Nat := key 0xe070 (3)
/-- EccClasses, 0xE070:04 (R490). -/
abbrev K.eccClasses : Nat := key 0xe070 (4)
/-- EccForced, 0xE070:05 (R490). -/
abbrev K.eccForced : Nat := key 0xe070 (5)
/-- EnergyOffset, 0xE080:01 (R490). -/
abbrev K.energyOffset : Nat := key 0xe080 (1)
/-- VigilCutStep, 0xE080:02 (R490). -/
abbrev K.vigilCutStep : Nat := key 0xe080 (2)
/-- SupplyLoss, 0xE080:03 (R490). -/
abbrev K.supplyLoss : Nat := key 0xe080 (3)
end Sys2Proof.Machine
end

