-- ==== Sys2Proof/Machine/Ops.lean ====
section
/-! DEFINITION. Ops.lean: the named operations over keyed stores and over the object store: reading and writing an object,
counting, free values, outputs and the modes and limits every unit asks for. -/

namespace Sys2Proof

/-- Value at a key of a store, if it is listed. -/
def SMap.find? {α : Type} : SMap α → Nat → Option α
  | [], _ => none
  | (j, v) :: r, k => if j = k then some v else SMap.find? r k

/-- Value at a key, or a default. -/
def SMap.getD {α : Type} (m : SMap α) (k : Nat) (d : α) : α := (SMap.find? m k).getD d

/-- Enters a value at its place in ascending key order, replacing the one there. -/
def SMap.insert {α : Type} : SMap α → Nat → α → SMap α
  | [], k, v => [(k, v)]
  | (j, w) :: r, k, v =>
    if k < j then (k, v) :: (j, w) :: r else if k = j then (k, v) :: r else (j, w) :: SMap.insert r k v

/-- Removes a key. -/
def SMap.erase {α : Type} (m : SMap α) (k : Nat) : SMap α := m.filter (fun e => e.1 ≠ k)

/-- Writes a value into a store whose unlisted keys read as `d`: writing `d` removes the key. -/
def SMap.put {α : Type} [DecidableEq α] (d : α) (m : SMap α) (k : Nat) (v : α) : SMap α :=
  if v = d then SMap.erase m k else SMap.insert m k v

/-- Canonical form: keys strictly rising. -/
def SMap.wf {α : Type} (m : SMap α) : Bool :=
  match m with
  | [] => true
  | [_] => true
  | (j, _) :: (k, w) :: r => decide (j < k) && SMap.wf ((k, w) :: r)

/-- Canonical form of a store whose unlisted keys read as `d`: keys strictly rising, and no entry equal to `d`. -/
def SMap.canonical {α : Type} [DecidableEq α] (d : α) (m : SMap α) : Bool := SMap.wf m && m.all (fun e => decide (e.2 ≠ d))

/-- Changes the value at a key. -/
def SMap.modify {α : Type} (m : SMap α) (k : Nat) (d : α) (f : α → α) : SMap α := SMap.insert m k (f (SMap.getD m k d))

end Sys2Proof

namespace Sys2Proof.Machine

/-- The outcome type of a command. -/
abbrev Res := Host.Outcome State Fault Refusal

/-! ## Objects -/

/-- Value of an object: the one written last, or its default (R44). -/
def State.get (s : State) (k : Nat) : Nat := (SMap.find? s.objs k).getD (objDefault k)

/-- Sets an object. -/
def State.set (s : State) (k v : Nat) : State := { s with objs := SMap.insert s.objs k v }

/-- Adds to a counter. -/
def State.add (s : State) (k n : Nat) : State := s.set k (s.get k + n)

/-- Counts one. -/
def State.inc (s : State) (k : Nat) : State := s.add k 1

/-- Takes from a counter of things held. -/
def State.sub (s : State) (k n : Nat) : State := s.set k (s.get k - n)

/-- An object as a truth value. -/
def State.flag (s : State) (k : Nat) : Bool := s.get k ≠ 0

/-- Counts one modulo 2^20. -/
def State.inc20 (s : State) (k : Nat) : State := s.set k ((s.get k + 1) % 1048576)

/-- Words of a TEXT or BLOB object. -/
def State.blob (s : State) (k : Nat) : List Word := SMap.getD s.blobs k []

/-- Sets the words of a TEXT or BLOB object. -/
def State.setBlob (s : State) (k : Nat) (ws : List Word) : State := { s with blobs := SMap.insert s.blobs k ws }

/-- Two's complement of 20 bits as a number (R37). -/
def s20 (n : Nat) : Int := if n % 1048576 < 524288 then (n % 1048576 : Nat) else ((n % 1048576 : Nat) : Int) - 1048576

/-- A number as 20 bits of two's complement (R37). -/
def to20 (i : Int) : Nat := (i % 1048576).toNat

/-! ## Outputs and free values -/

/-- Sends an output. -/
def State.emit (s : State) (o : Out) : State := { s with out := s.out ++ [o] }

/-- Draws a free value: the index that names it, and the state past it. -/
def State.free (s : State) : Nat × State := (s.freeIdx, { s with freeIdx := s.freeIdx + 1 })

/-! ## Lists -/

/-- Replaces the elements that satisfy a test. -/
def mapIf {α : Type} (p : α → Bool) (f : α → α) (l : List α) : List α := l.map (fun x => if p x then f x else x)

/-- Element of a list by number, or a default. -/
def nth {α : Type} (l : List α) (i : Nat) (d : α) : α := (l[i]?).getD d

/-- Enters an element at its place in ascending order of a key. -/
def insertBy {α : Type} (k : α → Nat) (a : α) : List α → List α
  | [] => [a]
  | b :: r => if k a ≤ k b then a :: b :: r else b :: insertBy k a r

/-- A list in ascending order of a key. -/
def sortBy {α : Type} (k : α → Nat) (l : List α) : List α := l.foldr (insertBy k) []

/-- Folds a state change over a list. -/
def State.over {α : Type} (s : State) (l : List α) (f : State → α → State) : State := l.foldl f s

/-- Changes the state only if a condition holds. -/
def State.when (s : State) (c : Bool) (f : State → State) : State := if c then f s else s

/-! ## Modes -/

/-- Major modes as DeviceMode codes them (R339): 0 Cold, 1 Bringup, 2 Service, 3 Degraded, 4 Recovery, 5 Vigil. -/
abbrev State.mode (s : State) : Nat := s.get K.deviceMode

/-- A serving mode: Service, Degraded or Recovery. -/
def State.serving (s : State) : Bool := 2 ≤ s.mode ∧ s.mode ≤ 4

/-- Microseconds since the last Cold entry. -/
def State.uptime (s : State) : Nat := s.now - s.coldAt

/-! ## Geometry -/

/-- Density code of the module: that of the lowest channel with dies (R202); 1 for 2 Tbit, 2 for 4 Tbit. -/
def State.density (s : State) : Nat :=
  match (List.range 96).find? (fun c => s.get (K.chDiesFitted c) ≠ 0) with
  | some c => s.get (K.chDieDensity c)
  | none => 1

/-- Blocks per plane (R29). -/
def State.blocksPerPlane (s : State) : Nat := if s.density = 2 then 4096 else 2048

/-- Word lines per die-block, L (R177). -/
def State.wordLines (s : State) : Nat := if s.density = 2 then 1024 else 512

/-- A die is fitted (R202). -/
def State.fitted (s : State) (c d : Nat) : Bool := c < 96 && d < 16 && (s.get (K.chDiesFitted c)).testBit d

/-- The die's number over the device: 16 × channel + die. -/
abbrev dieKey (c d : Nat) : Nat := 16 * c + d

/-- A physical media address from its fields (R28). -/
def pmaOf (dev c d plane block page : Nat) : Nat :=
  dev * 68719476736 + c * 536870912 + d * 33554432 + plane * 8388608 + block * 2048 + page

/-- Fields of a physical media address (R28). -/
abbrev pmaDev (p : Nat) : Nat := p / 68719476736 % 16
abbrev pmaCh (p : Nat) : Nat := p / 536870912 % 128
abbrev pmaDie (p : Nat) : Nat := p / 33554432 % 16
abbrev pmaPlane (p : Nat) : Nat := p / 8388608 % 4
abbrev pmaBlock (p : Nat) : Nat := p / 2048 % 4096
abbrev pmaPage (p : Nat) : Nat := p % 2048

/-- The page's place on this buffer's media: the address without its Device field. -/
abbrev pmaPlace (p : Nat) : Nat := p % 68719476736

/-- The PMA is outside the buffer's range (R29). -/
def State.pmaOutside (s : State) (p : Nat) : Bool :=
  decide (pmaDev p ≠ s.get K.deviceNumber) || decide (95 < pmaCh p) || !s.fitted (pmaCh p) (pmaDie p)
    || decide (s.blocksPerPlane ≤ pmaBlock p)

/-- Die-block number of a block (R238). -/
def State.dieBlock (s : State) (c d block : Nat) : Nat :=
  32768 * c + 2048 * d + (if s.density = 2 then block / 2 else block)

/-- Entry encodings of R122. -/
abbrev noLoc : Nat := 0xFFFFFFFFFF
abbrev stagedLoc (k : Nat) : Nat := 0xFFC0000000 + k
abbrev shadowLoc (j : Nat) : Nat := 0xFFA0000000 + j

/-- The state of a mapping entry (R122). -/
inductive Loc where
  | none | staged (k : Nat) | shadow (j : Nat) | media (pma : Nat)
  deriving DecidableEq, Repr

/-- Reads a mapping entry (R122). -/
def locOf (e : Nat) : Loc :=
  if e = noLoc then .none
  else if stagedLoc 0 ≤ e ∧ e < stagedLoc 2520 then .staged (e - stagedLoc 0)
  else if shadowLoc 0 ≤ e ∧ e < shadowLoc 65536 then .shadow (e - shadowLoc 0)
  else .media e

/-- Key of a unit of a set in the mapping table. -/
abbrev mapKey (set lui : Nat) : Nat := set * 34359738368 + lui

/-- Mapping entry of a unit. -/
def State.entry (s : State) (set lui : Nat) : Nat := SMap.getD s.wr.map (mapKey set lui) noLoc

/-! ## Substructures -/

/-- A stripe set's structure before anything is known of it. -/
def StripeSet.empty : StripeSet :=
  { queue := [], rows := [], nextRow := 0, nextDie := 0, walk := none, paused := none, scanAt := 0, ckptNext := 0, gens := [], owed := none, lossPending := [],
    flushes := [], victim := none, victimSeq := 0, wearAt := none, scrub := 0 }

def State.sset (s : State) (n : Nat) : StripeSet := SMap.getD s.wr.sets n StripeSet.empty
def State.modSet (s : State) (n : Nat) (f : StripeSet → StripeSet) : State :=
  { s with wr := { s.wr with sets := SMap.insert s.wr.sets n (f (s.sset n)) } }
def State.port (s : State) (p : Nat) : Port := SMap.getD s.ports p {}
def State.modPort (s : State) (p : Nat) (f : Port → Port) : State :=
  { s with ports := SMap.insert s.ports p (f (s.port p)) }
def State.pathState (s : State) (p : Path) : PathState := SMap.getD s.paths (pathCode p) {}
def State.modPath (s : State) (p : Path) (f : PathState → PathState) : State :=
  { s with paths := SMap.insert s.paths (pathCode p) (f (s.pathState p)) }
def State.die (s : State) (c d : Nat) : Die := SMap.getD s.fl.dies (dieKey c d) {}
def State.modDie (s : State) (c d : Nat) (f : Die → Die) : State :=
  { s with fl := { s.fl with dies := SMap.insert s.fl.dies (dieKey c d) (f (s.die c d)) } }
def State.chan (s : State) (c : Nat) : Channel := SMap.getD s.fl.chans c {}
def State.modChan (s : State) (c : Nat) (f : Channel → Channel) : State :=
  { s with fl := { s.fl with chans := SMap.insert s.fl.chans c (f (s.chan c)) } }

def State.modWr (s : State) (f : WritePath → WritePath) : State := { s with wr := f s.wr }
def State.modFl (s : State) (f : Flash → Flash) : State := { s with fl := f s.fl }
def State.modRings (s : State) (f : Rings → Rings) : State := { s with rings := f s.rings }
def State.modCf (s : State) (f : CodeFlash → CodeFlash) : State := { s with cf := f s.cf }
def State.modEv (s : State) (f : Events → Events) : State := { s with ev := f s.ev }
def State.modNv (s : State) (f : Nv → Nv) : State := { s with nv := f s.nv }

end Sys2Proof.Machine
end

