-- ==== Sys2Proof/Machine/Codec.lean ====
section
/-! DEFINITION. Codec.lean: the bit-level formats: check codes, packing, parity arithmetic, the scrambler, the layout of pages,
journal records, completions, loss records, checkpoints, generation records, descriptors and transaction headers. -/

namespace Sys2Proof.Machine

/-! ## Check codes -/

/-- Bits of the low `n` bits of a number, most significant first. -/
def bitsMsb (n v : Nat) : List Bool := (List.range n).map (fun i => v.testBit (n - 1 - i))

/-- A shift-register CRC of `w` bits, most significant bit first. -/
def crcMsb (w poly init : Nat) (bits : List Bool) : Nat :=
  bits.foldl (fun r b => (if (r.testBit (w - 1)) != b then (r * 2) ^^^ poly else r * 2) % 2 ^ w) init

/-- CRC-20 of R124 over words, each from its most significant bit down. -/
def crc20Words (ws : List Word) : Word :=
  BitVec.ofNat 20 (crcMsb 20 9 0xFFFFF (ws.flatMap (fun w => bitsMsb 20 w.toNat)))

/-- CRC-20 of R124 over whole duos and then the upper word of one more. -/
def crc20Duos (ds : List Nat) (last : Nat) : Nat :=
  crcMsb 20 9 0xFFFFF (ds.flatMap (bitsMsb 40) ++ bitsMsb 20 (last / 1048576))

/-- CRC-32C (Castagnoli) of `n` bytes held in a number, least significant bit first (R133, R294). -/
def crc32c (n v : Nat) : Nat :=
  let r := (List.range (8 * n)).foldl
    (fun r i => if (r.testBit 0) != v.testBit i then (r / 2) ^^^ 0x82F63B78 else r / 2) 0xFFFFFFFF
  r ^^^ 0xFFFFFFFF

/-- The SMBus packet error code over bytes: x^8 + x^2 + x + 1, initial value zero (R56). -/
def pec (bs : List Byte) : Byte := BitVec.ofNat 8 (crcMsb 8 7 0 (bs.flatMap (fun b => bitsMsb 8 b.toNat)))

/-! ## Packing (R6) -/

/-- Words packed from the least significant end. -/
def wordsNat : List Word → Nat
  | [] => 0
  | w :: r => w.toNat + 1048576 * wordsNat r

/-- Bytes packed from the least significant end. -/
def bytesNat : List Byte → Nat
  | [] => 0
  | b :: r => b.toNat + 256 * bytesNat r

/-- Words of a number, lowest first. -/
def natWords : Nat → Nat → List Word
  | 0, _ => []
  | n + 1, v => BitVec.ofNat 20 v :: natWords n (v / 1048576)

/-- Bytes of a number, lowest first. -/
def natBytes : Nat → Nat → List Byte
  | 0, _ => []
  | n + 1, v => BitVec.ofNat 8 v :: natBytes n (v / 256)

/-- Duos packed from the least significant end. -/
def duosNat : List Nat → Nat
  | [] => 0
  | d :: r => d % 1099511627776 + 1099511627776 * duosNat r

/-- Bytes that a transaction of `h` words occupies (R54). -/
abbrev transactionBytes (h : Nat) : Nat := (20 * h + 7) / 8

/-! ## Transaction headers (R47, R48) -/

/-- The two duos of a request header. -/
def headerDuos (op : Nat) (r : ReqHeader) : Duo × Duo :=
  (BitVec.ofNat 40 (op * 2 ^ 38 + r.tag.toNat * 2 ^ 30 + r.index.toNat * 2 ^ 14 + r.sub.toNat * 2 ^ 6 + r.typ.toNat * 4
      + r.rsvd0.toNat),
   BitVec.ofNat 40 (r.offset.toNat * 2 ^ 20 + r.rsvd1.toNat * 2 ^ 9 + r.count.toNat))

/-- Op and header fields of two duos. -/
def headerOf (d0 d1 : Duo) : Nat × ReqHeader :=
  (d0.toNat / 2 ^ 38,
   { tag := BitVec.ofNat 8 (d0.toNat / 2 ^ 30), index := BitVec.ofNat 16 (d0.toNat / 2 ^ 14),
     sub := BitVec.ofNat 8 (d0.toNat / 2 ^ 6), typ := BitVec.ofNat 4 (d0.toNat / 4), rsvd0 := BitVec.ofNat 2 d0.toNat,
     offset := BitVec.ofNat 20 (d1.toNat / 2 ^ 20), rsvd1 := BitVec.ofNat 11 (d1.toNat / 2 ^ 9),
     count := BitVec.ofNat 9 d1.toNat })

/-! ## Descriptors (R79, R80) and completions (R84) -/

/-- Duo k of a descriptor. -/
def descDuo (d : Descriptor) (k : Nat) : Nat := d.toNat / 2 ^ (40 * k) % 2 ^ 40

/-- Fields of a descriptor. -/
abbrev descOpcode (d : Descriptor) : Nat := descDuo d 0 / 2 ^ 34
abbrev descBarrier (d : Descriptor) : Bool := (descDuo d 0).testBit 33
abbrev descCommandId (d : Descriptor) : Nat := descDuo d 0 % 2 ^ 20
abbrev descTag (d : Descriptor) : Nat := descDuo d 1
abbrev descLba (d : Descriptor) : Nat := descDuo d 2
abbrev descCount (d : Descriptor) : Nat := descDuo d 3 % 2 ^ 20
abbrev descHost (d : Descriptor) : Nat := descDuo d 4

/-- A completion entry without its Phase bit (R84). -/
def completionBits (kind epoch ring slot cmd status ladder : Nat) (degraded unmapped staged : Bool) (moved detail : Nat) :
    Completion :=
  BitVec.ofNat 160 (duosNat
    [kind * 2 ^ 35 + epoch * 2 ^ 31 + ring * 2 ^ 18 + slot,
     cmd * 2 ^ 20 + status * 2 ^ 16 + ladder * 2 ^ 13 + (if degraded then 2 ^ 12 else 0) + (if unmapped then 2 ^ 11 else 0)
       + (if staged then 2 ^ 10 else 0),
     moved, detail])

/-- A completion entry with its Phase bit. -/
def withPhase (c : Completion) (phase : Bool) : Completion := if phase then c ||| BitVec.ofNat 160 (2 ^ 39) else c

/-- Event completion Detail (R476). -/
abbrev eventDetail (source coalesced arg : Nat) : Nat := source * 2 ^ 29 + coalesced * 2 ^ 20 + arg

/-! ## Parity arithmetic (R130, R131, R179): GF(2^10) in every 10-bit lane of a payload -/

/-- Bit 0 of every lane. -/
def laneOnes : Payload := BitVec.ofNat 33280 ((2 ^ 33280 - 1) / 1023)

/-- Bit 9 of every lane. -/
def laneTops : Payload := BitVec.ofNat 33280 ((2 ^ 33280 - 1) / 1023 * 512)

/-- Multiplication of every lane by g: a left shift, and an XOR with 0x409 where bit 10 is then set. -/
def mulG (x : Payload) : Payload :=
  let carry := (x &&& laneTops) >>> 9
  ((x &&& ~~~laneTops) <<< 1) ^^^ carry ^^^ (carry <<< 3)

/-- Multiplication of every lane by a power of g. -/
def mulGPow : Nat → Payload → Payload
  | 0, x => x
  | n + 1, x => mulG (mulGPow n x)

/-- Multiplication of one symbol by g. -/
def gShift (a : Nat) : Nat := if 512 ≤ a then (a * 2) ^^^ 0x409 else a * 2

/-- g to a power, as a symbol. -/
def gPow : Nat → Nat
  | 0 => 1
  | n + 1 => gShift (gPow n)

/-- The logarithm of a non-zero symbol to the base g, searched from 0. -/
def gLog (a : Nat) : Nat := ((List.range 1023).find? (fun n => gPow n = a)).getD 0

/-- Multiplication of every lane by the inverse of a non-zero symbol (a^1022, that is g^(1023 − log a)). -/
def divSymbol (a : Nat) (x : Payload) : Payload := mulGPow ((1023 - gLog a) % 1023) x

/-- Division of every lane by g^x (R179). -/
def divGPow (n : Nat) (x : Payload) : Payload := mulGPow ((1023 - n % 1023) % 1023) x

/-- P of data members given with their indices (R131). -/
def parityP (data : List (Nat × Payload)) : Payload := data.foldl (fun a e => a ^^^ e.2) 0

/-- Q of data members given with their indices (R131). -/
def parityQ (data : List (Nat × Payload)) : Payload := data.foldl (fun a e => a ^^^ mulGPow e.1 e.2) 0

/-- The data of one or two erased members (R179): `live` lists the data members that are not erased, `x` is wanted and `y`
the other erased data member; `p` and `q` are the parity frames that are not erased. -/
def recoverData (x : Nat) (y : Option Nat) (live : List (Nat × Payload)) (p q : Option Payload) : Option Payload :=
  match y, p, q with
  | none, some p, _ => some (p ^^^ parityP live)
  | none, none, some q => some (divGPow x (q ^^^ parityQ live))
  | some y, some p, some q =>
    let pxy := p ^^^ parityP live
    let qxy := q ^^^ parityQ live
    some (divSymbol (gPow x ^^^ gPow y) (mulGPow y pxy ^^^ qxy))
  | _, _, _ => none

/-! ## Scrambler (R136) -/

/-- Next state of the scrambler x^23 + x^5 + 1; bit i of the state is a(k + i). -/
def scramblerNext (st : Nat) : Nat := st / 2 + (if (st.testBit 5) != st.testBit 0 then 4194304 else 0)

/-- The first `n` output bits from a state, bit k of the number being a(k). -/
def scramblerBits : Nat → Nat → Nat
  | 0, _ => 0
  | n + 1, st => st % 2 + 2 * scramblerBits n (scramblerNext st)

/-- Initial state for a frame of a page (R136). -/
def scramblerInit (pma f : Nat) : Nat :=
  let i := (pma % 8388608) ^^^ (f * 2097152)
  if i = 0 then 0x7FFFFF else i

/-- The sequence that scrambles a frame's payload. -/
def scrambleSeq (pma f : Nat) : Payload := BitVec.ofNat 33280 (scramblerBits 33280 (scramblerInit pma f))

/-! ## LDPC code (R153, R154) -/

/-- Entry (r, c) of the base matrix as a word: a shift from 0 to 255, or 0xFFFFF for the all-zero circulant (R154). The parity part is dual-diagonal: row r has
a circulant in column 130 + r, and, after the first row, one in column 129 + r (R153; DEDUCED, log entry 139). -/
def ldpcEntry (r c : Nat) : Word :=
  let word := fun (v : Option (BitVec 8)) => match v with | some x => BitVec.ofNat 20 x.toNat | none => 0xFFFFF
  if c < 130 then word (Config.ldpcShift r c)
  else if c = 130 + r then word (some (Config.ldpcDiagonal r))
  else if c + 1 = 130 + r then word (some (Config.ldpcBeside r))
  else 0xFFFFF

/-- Row r of the base matrix: its 143 entries (R154). -/
def ldpcRow (r : Nat) : List Word := (List.range 143).map (ldpcEntry r)

/-- LdpcBaseMatrix: 1,859 words, entry (r, c) being word 143 r + c (R154, R172). -/
def ldpcBaseMatrix : List Word := (List.range 13).flatMap ldpcRow

/-- A circulant times a block: the identity shifted by an entry below 256, in which row i has its one in column (i + s) mod 256; the all-zero
circulant for any other entry (R154). -/
def circulant (entry : Word) (x : BitVec 256) : BitVec 256 := if entry.toNat < 256 then x.rotateRight entry.toNat else 0

/-- A row of H times the blocks of a codeword, or of the part of it that is known. -/
def ldpcRowSum (row : List Word) (blocks : List (BitVec 256)) : BitVec 256 :=
  (row.zip blocks).foldl (fun a e => a ^^^ circulant e.1 e.2) 0

/-- The 256-bit blocks of n base columns, codeword bit 256·c + i being bit i of block c (R153). -/
def ldpcBlocks (n : Nat) (v : Nat) : List (BitVec 256) := (List.range n).map (fun c => BitVec.ofNat 256 (v / 2 ^ (256 * c)))

/-- A frame satisfies H·c = 0 (R153). -/
def ldpcHolds (frame : BitVec 36608) : Bool :=
  (List.range 13).all (fun r => decide (ldpcRowSum (ldpcRow r) (ldpcBlocks 143 frame.toNat) = 0))

/-- The parity of a scrambled payload: the encoder solves H·c = 0 row by row in one pass, as the dual-diagonal parity part allows, row r giving
the block of base column 130 + r (R153; DEDUCED, log entry 139). -/
def ldpcParity (p : Payload) : Parity :=
  let all := (List.range 13).foldl (fun (bs : List (BitVec 256)) r =>
    let row := ldpcRow r
    bs ++ [(ldpcRowSum row bs).rotateLeft ((nth row (130 + r) 0).toNat % 256)]) (ldpcBlocks 130 p.toNat)
  BitVec.ofNat 3328 ((all.drop 130).foldr (fun b a => b.toNat + 2 ^ 256 * a) 0)

/-! ## Page layout (R132 to R135) -/

/-- A frame as it lies on media: the scrambled payload and its LDPC parity (R136, R153). -/
def encodeFrame (pma f : Nat) (p : Payload) : BitVec 36608 :=
  let s := p ^^^ scrambleSeq pma f
  ldpcParity s ++ s

/-- A page of four payloads and a header (R132). -/
def encodePage (pma : Nat) (ps : List Payload) (h : PageHeader) : BitVec 147456 :=
  h ++ (encodeFrame pma 3 (nth ps 3 0) ++ (encodeFrame pma 2 (nth ps 2 0) ++ (encodeFrame pma 1 (nth ps 1 0)
    ++ encodeFrame pma 0 (nth ps 0 0))))

/-- The 4,576 bytes of a frame of a page (R132). -/
def pageFrame (page : BitVec 147456) (f : Nat) : BitVec 36608 := page.extractLsb' (36608 * f) 36608

/-- The payload that a successful decode of a frame gives: its information bits, descrambled (R136, R153). -/
def decodeFrame (pma f : Nat) (page : BitVec 147456) : Payload :=
  (pageFrame page f).extractLsb' 0 33280 ^^^ scrambleSeq pma f

/-- The page header bytes (R132). -/
def pageHeader (page : BitVec 147456) : PageHeader := page.extractLsb' 146432 1024

/-- The page of an erased place: all ones. -/
def erasedPage : BitVec 147456 := BitVec.allOnes 147456

/-- The 4,096 data bytes of a payload. -/
def payloadData (p : Payload) : Block := p.extractLsb' 0 32768

/-- Frame metadata (R133). -/
structure Meta where
  lba : Nat
  tag : Nat
  seq : Nat
  crc : Nat
  kind : Nat
  deriving DecidableEq, Repr

/-- A payload from its data and its metadata. -/
def payloadOf (data : Block) (m : Meta) : Payload :=
  BitVec.ofNat 512 (m.lba * 2 ^ 472 + m.tag * 2 ^ 432 + m.seq * 2 ^ 392 + m.crc * 2 ^ 360 + m.kind * 2 ^ 356) ++ data

/-- The metadata of a payload. -/
def metaOf (p : Payload) : Meta :=
  let m := p.toNat / 2 ^ 32768
  { lba := m / 2 ^ 472 % 2 ^ 40, tag := m / 2 ^ 432 % 2 ^ 40, seq := m / 2 ^ 392 % 2 ^ 40, crc := m / 2 ^ 360 % 2 ^ 32,
    kind := m / 2 ^ 356 % 16 }

/-- A payload of data with its DataCrc (R133). -/
def dataPayload (data : Block) (lba tag seq kind : Nat) : Payload :=
  payloadOf data { lba := lba, tag := tag, seq := seq, crc := crc32c 4096 data.toNat, kind := kind }

/-- The DataCrc of a payload matches its data (R134). -/
def dataCrcOk (p : Payload) : Bool := (metaOf p).crc = crc32c 4096 (payloadData p).toNat

/-- A payload with the Sequence of the Place record that places it (R133). -/
def setSeq (p : Payload) (seq : Nat) : Payload := payloadOf (payloadData p) { metaOf p with seq := seq }

/-- A carried loss: data words all 0xFFFFF and Kind 0x8 (R117). -/
def carriedLoss (lba : Nat) : Payload := dataPayload (BitVec.allOnes 32768) lba 0 0 8

/-- A filler frame (R128). -/
def fillerPayload : Payload := dataPayload 0 0 0 0 4

/-- A zero block that the buffer itself writes: a TRIM's partly covered blocks and unwritten blocks of a unit (R83, R117). -/
def zeroPayload (lba : Nat) : Payload := dataPayload 0 lba 0 0 1

/-- Page header body fields (R135). -/
structure HeaderBody where
  kind : Nat
  set : Nat
  position : Nat
  width : Nat
  index : Nat
  calends : Nat
  generation : Nat
  row : Nat
  lui : Nat
  tag : Nat
  seq : Nat
  deriving DecidableEq, Repr

/-- Duos 0 to 10 of a header body (R135). -/
def headerBodyDuos (h : HeaderBody) : List Nat :=
  [h.kind * 2 ^ 36 + 2 ^ 32 + h.set * 2 ^ 29 + h.position * 2 ^ 23 + h.width * 2 ^ 17 + h.index * 2 ^ 11, h.calends,
   h.generation * 2 ^ 20, h.row, h.lui, h.tag, h.seq, 0, 0, 0, 0]

/-- A page header: two copies of the body with its check (R135). -/
def encodeHeader (h : HeaderBody) : PageHeader :=
  let ds := headerBodyDuos h
  let body := duosNat (ds ++ [crc20Duos ds 0])
  BitVec.ofNat 1024 (body + body * 2 ^ 480)

/-- One copy of a body, if its check is valid. -/
def bodyOf (v : Nat) : Option HeaderBody :=
  let duo := fun k => v / 2 ^ (40 * k) % 2 ^ 40
  if crc20Duos ((List.range 11).map duo) (duo 11) = duo 11 % 2 ^ 20 then
    some { kind := duo 0 / 2 ^ 36, set := duo 0 / 2 ^ 29 % 8, position := duo 0 / 2 ^ 23 % 64, width := duo 0 / 2 ^ 17 % 64,
           index := duo 0 / 2 ^ 11 % 64, calends := duo 1, generation := duo 2 / 2 ^ 20, row := duo 3,
           lui := duo 4 % 2 ^ 35, tag := duo 5, seq := duo 6 }
  else none

/-- The header body that a reader uses: copy A when its check is valid, copy B otherwise (R135). -/
def readHeader (h : PageHeader) : Option HeaderBody :=
  match bodyOf (h.toNat % 2 ^ 480) with
  | some b => some b
  | none => bodyOf (h.toNat / 2 ^ 480 % 2 ^ 480)

/-! ## Records -/

/-- A journal record's four duos (R124). -/
def journalDuos (r : JRec) : List Nat :=
  let kind := match r.kind with | .stage => 0 | .place => 1 | .trim => 2 | .relocate => 3
  let ds := [kind * 2 ^ 38 + r.set * 2 ^ 35 + r.lui, r.tag, r.loc]
  let last := r.count * 2 ^ 29 + r.first * 2 ^ 27
  ds ++ [last + crc20Duos ds last]

/-- A loss record's 24 duos (R189). -/
def lossDuos (r : LossRec) : List Nat :=
  let duo4 := r.die * 2 ^ 36 + r.plane * 2 ^ 34 + r.block * 2 ^ 22 + r.page * 2 ^ 11 + r.frame * 2 ^ 9
  let ranges := (List.range 8).flatMap (fun j => [(nth r.ranges j (0, 0)).1, (nth r.ranges j (0, 0)).2 * 2 ^ 29])
  let ds := [r.number,
    r.cause * 2 ^ 37 + r.set * 2 ^ 34 + r.ranges.length * 2 ^ 30 + (if r.more then 2 ^ 29 else 0) + r.erasures * 2 ^ 23,
    r.minute * 2 ^ 12, r.generation * 2 ^ 20, duo4, r.erased % 2 ^ 40, r.erased / 2 ^ 40 * 2 ^ 32] ++ ranges
  ds ++ [crc20Duos ds 0]

/-- A checkpoint's 8 duos (R194). -/
def ckptDuos (c : Ckpt) : List Nat :=
  let ds := [c.set * 2 ^ 37 + c.kind * 2 ^ 35 + c.number, c.target * 2 ^ 20, c.boundary, c.endRow, c.seq, c.rowsLeft, 0]
  ds ++ [crc20Duos ds 0]

/-- A generation record's 40 duos (R176). -/
def genDuos (set : Nat) (g : GenRec) : List Nat :=
  let ch := fun k => nth g.channels k 127
  let d1 := (List.range 12).map (fun j =>
    ch (4 * j) + ch (4 * j + 1) * 2 ^ 10 + ch (4 * j + 2) * 2 ^ 20 + ch (4 * j + 3) * 2 ^ 30)
  let d2 := (List.range 24).map (fun j => nth g.absent (2 * j) 0 + nth g.absent (2 * j + 1) 0 * 2 ^ 20)
  let ds := [g.num * 2 ^ 20 + set * 2 ^ 17 + g.width * 2 ^ 11, g.firstRow] ++ d1 ++ d2 ++ [0]
  ds ++ [crc20Duos ds 0]

/-- Words of duos, word 0 of each first. -/
def duoWords (ds : List Nat) : List Word := ds.flatMap (fun d => [BitVec.ofNat 20 d, BitVec.ofNat 20 (d / 1048576)])

/-- A retained entry's words (R456). -/
def retainedWords (kind key : Nat) (value : List Word) (seq : Nat) : List Word :=
  let ws := [BitVec.ofNat 20 (kind * 65536 + key / 256), BitVec.ofNat 20 (key % 256 * 4096 + value.length)] ++ value
    ++ [BitVec.ofNat 20 seq]
  ws ++ [crc20Words ws, 0]

/-- A warden log record's four duos (R477). -/
def logDuos (r : LogRec) : List Nat :=
  let ds := [r.source * 2 ^ 29 + r.arg, r.minute * 2 ^ 12 + r.cold % 4096, r.uptime % 2 ^ 40]
  ds ++ [crc20Duos ds 0]

/-! ## Code-flash words (R449, R450) -/

/-- The erased word. -/
abbrev cfErased : BitVec 26 := BitVec.allOnes 26

/-- The word that a stored value reads, or none for CHECKFAIL (R449, R450). -/
def cfDecode (b : BitVec 26) : Option Word :=
  let w : Word := b.extractLsb' 0 20
  if b = cfErased then some 0xFFFFF else if cfEncode w = b then some w else none

/-- What a read delivers: the word, or 0xFFFFF for CHECKFAIL (R450). -/
def cfRead (b : BitVec 26) : Word := (cfDecode b).getD 0xFFFFF

/-! ## Packets -/

/-- Beats of a packet: one header beat and its data (R304). -/
def packetBytes : Packet → Nat
  | .memWrite _ _ _ _ n _ => n
  | .memReadReq _ _ _ _ => 0
  | .memReadData _ _ n _ => n
  | .mgmtResponse _ _ ws => transactionBytes (4 + ws.length)
  | .notice _ _ _ => 0
  | .peer p => if p.typ = 0x14 then (if p.status = 2 then 0 else 4160) else if p.words = [] then 0 else transactionBytes p.words.length

def packetBeats (p : Packet) : Nat := 1 + (packetBytes p + 39) / 40

/-- Virtual channel of a packet: 0 P, 1 N, 2 C (R305, R420). -/
def packetChannel : Packet → Nat
  | .memWrite _ _ _ _ _ _ => 0
  | .memReadReq _ _ _ _ => 1
  | .memReadData _ _ _ _ => 2
  | .mgmtResponse _ _ _ => 2
  | .notice _ _ _ => 0
  | .peer p => if p.typ = 0x10 then 1 else if p.typ = 0x11 then 2 else 0

/-- Pieces of a write or read of host memory, none of which crosses a 4,096-byte boundary: address, bytes, offset (R307). -/
def hostPieces : Nat → Nat → Nat → Nat → List (Nat × Nat × Nat)
  | 0, _, _, _ => []
  | fuel + 1, addr, n, off =>
    if n = 0 then []
    else
      let m := min n (4096 - addr % 4096)
      (addr, m, off) :: hostPieces fuel (addr + m) (n - m) (off + m)

end Sys2Proof.Machine
end

