-- ==== Sys2Proof/Machine/Flit.lean ====
section
/-! DEFINITION. Machine/Flit.lean: the flits that a port sends and receives, bit by bit: sync header, link control, payload and CRC (R290 to
R294), and the packet stream that their beat slots carry (R304, R419). -/

namespace Sys2Proof.Machine

/-- The sync header that every flit begins with (R291). -/
def syncHeader : BitVec 32 := 0x6C9C9363#32

/-- Symbols of a received sync header that differ (R291). -/
def syncDiffs (h : BitVec 32) : Nat :=
  ((List.range 16).filter (fun j => decide (h.extractLsb' (2 * j) 2 ≠ syncHeader.extractLsb' (2 * j) 2))).length

/-- Fields of link control (R292). -/
abbrev ctlKind (c : FlitCtl) : Nat := (c.control.extractLsb' 60 4).toNat
abbrev ctlSeq (c : FlitCtl) : Nat := (c.control.extractLsb' 48 12).toNat
abbrev ctlAckSeq (c : FlitCtl) : Nat := (c.control.extractLsb' 36 12).toNat
abbrev ctlAckKind (c : FlitCtl) : Nat := (c.control.extractLsb' 34 2).toNat
abbrev ctlCreditP (c : FlitCtl) : Nat := (c.control.extractLsb' 20 12).toNat
abbrev ctlCreditN (c : FlitCtl) : Nat := (c.control.extractLsb' 8 12).toNat

/-- The link control word that a port sends: its kind, Seq and acknowledgement, and the credits released so far (R292). -/
def controlWord (pt : Port) (kind seq ackKind ackSeq : Nat) : BitVec 64 :=
  BitVec.ofNat 64 (kind * 2 ^ 60 + seq * 2 ^ 48 + ackSeq * 2 ^ 36 + ackKind * 2 ^ 34 + pt.releasedP % 4096 * 2 ^ 20 + pt.releasedN % 4096 * 2 ^ 8)

/-- The CRC of a flit over its bytes 4 to 251: link control and payload (R294). -/
def flitCrc (control : BitVec 64) (payload : BitVec 1920) : BitVec 32 :=
  BitVec.ofNat 32 (crc32c 248 (control.toNat + payload.toNat * 2 ^ 64))

/-- A received flit passes its CRC (R294). -/
def ctlCrcGood (c : FlitCtl) (payload : BitVec 1920) : Bool := decide (c.crc = flitCrc c.control payload)

/-- A flit as a sender makes it: a whole sync header, and the CRC of its contents. -/
def sealFlit (control : BitVec 64) (payload : BitVec 1920) : FlitCtl :=
  { sync := syncHeader, control := control, crc := flitCrc control payload }

/-- The 256 bytes of a flit (R290). -/
def flitBits (control : BitVec 64) (payload : BitVec 1920) : BitVec 2048 :=
  flitCrc control payload ++ payload ++ control ++ syncHeader

/-- Symbol j of a flit: its bits 2j and 2j + 1 (R290). -/
def flitSymbol (bits : BitVec 2048) (j : Nat) : BitVec 2 := bits.extractLsb' (2 * j) 2

/-- Symbols of a flit that lane l of a link of width w carries, in the order sent: symbol j goes on lane j mod w (R290). -/
def laneSymbols (w l : Nat) (bits : BitVec 2048) : List (BitVec 2) := (List.range (1024 / w)).map (fun i => flitSymbol bits (w * i + l))

/-- Payload of a flit of six beat slots (R290). -/
def beatsPayload (bs : List Beat) : BitVec 1920 := BitVec.ofNat 1920 (bs.foldr (fun b n => b.toNat + n * 2 ^ 320) 0)

/-- Payload of a Param flit (R293). -/
def paramPayload (creditP creditN : BitVec 12) (role : BitVec 2) (reset : Bool) (width : BitVec 5) : BitVec 1920 :=
  BitVec.ofNat 1920 (creditP.toNat * 2 ^ 28 + creditN.toNat * 2 ^ 16 + role.toNat * 2 ^ 14 + (if reset then 2 ^ 13 else 0) + width.toNat * 2 ^ 8)

/-- Payload of a Power flit (R293, R313). -/
def powerPayload (code : Nat) : BitVec 1920 := BitVec.ofNat 1920 code

/-! ## The packet stream (R304, R305, R419, R420) -/

/-- Duo 0 of a header beat (R304). -/
def headerDuo0 (typ cls tag status bytes : Nat) : Nat := typ * 2 ^ 35 + cls * 2 ^ 33 + tag * 2 ^ 20 + status * 2 ^ 18 + bytes

/-- The header beat of a packet as a number: duo k at bit 40 k (R304, R305, R419). -/
def packetHeader (k : Packet) : Nat :=
  match k with
  | .memWrite _ cls _ addr n _ => headerDuo0 1 cls 0 0 n + addr * 2 ^ 40
  | .memReadReq cls tag addr n => headerDuo0 2 cls tag 0 n + addr * 2 ^ 40
  | .memReadData tag addr n _ => headerDuo0 3 0 tag 0 n + addr * 2 ^ 40
  | .mgmtResponse _ _ _ => headerDuo0 5 0 0 0 (packetBytes k)
  | .notice cls ring tail => headerDuo0 6 cls 0 0 0 + (ring * 2 ^ 28 + tail) * 2 ^ 80
  | .peer p =>
    headerDuo0 p.typ 0 p.tag p.status (packetBytes k) + p.duo1 * 2 ^ 40
      + (p.source * 2 ^ 36 + p.dest * 2 ^ 32 + (if p.broadcast then 2 ^ 31 else 0) + (if p.west then 2 ^ 30 else 0) + p.hops * 2 ^ 26
          + p.generation) * 2 ^ 120
      + (p.subtype * 2 ^ 32 + p.argument) * 2 ^ 160

/-- The data bytes of a packet as a number, its first byte lowest (R304); a transaction's words in the packing of R6. -/
def packetData (k : Packet) : Nat :=
  match k with
  | .memWrite _ _ _ _ n v | .memReadData _ _ n v => v.toNat % 2 ^ (8 * n)
  | .mgmtResponse d0 d1 ws => d0.toNat + d1.toNat * 2 ^ 40 + wordsNat ws * 2 ^ 80
  | .memReadReq .. | .notice .. => 0
  | .peer p => if p.typ = 0x14 then p.frame.toNat else wordsNat p.words

/-- Beats i to i + n − 1 of a packet as a number, the first lowest (R304). -/
def packetSlots (k : Packet) (i n : Nat) : Nat := (packetHeader k + packetData k * 2 ^ 320) / 2 ^ (320 * i) % 2 ^ (320 * n)

/-- The beats of a flit's slots as a number (R290, R304). -/
def runsNat : List BeatRun → Nat
  | [] => 0
  | r :: l => packetSlots r.packet r.first r.count + runsNat l * 2 ^ (320 * r.count)

/-- The payload of a flit: the beats in its slots, null beats past them (R290, R304). -/
def flitPayload (f : TxFlit) : BitVec 1920 := BitVec.ofNat 1920 (runsNat f.beats)

/-- A payload flit as a port sends it now (R292, R300). -/
def sentFlit (p : Nat) (pt : Port) (f : TxFlit) : Out := .flit p (controlWord pt 1 f.seq 0 0) f

/-- The 256 bytes of a payload flit that was sent. -/
def sentBits (control : BitVec 64) (f : TxFlit) : BitVec 2048 := flitBits control (flitPayload f)

/-- A Power flit and a Param flit as a port sends them: their Seq is that of the next payload flit (R292, R293). -/
def powerFlit (p code : Nat) (pt : Port) : Out := .power p (controlWord pt 3 pt.txSeq 0 0) code
def paramFlit (p creditP creditN : Nat) (reset : Bool) (width : Nat) (pt : Port) : Out :=
  .param p (controlWord pt 2 pt.txSeq 0 0) creditP creditN 1 reset width

/-- An Idle flit that carries an acknowledgement, AckKind 1, or a NAK, AckKind 2, of the last flit received in order (R293, R299). -/
def reportFlit (p ackKind : Nat) (pt : Port) : Out := .idle p (controlWord pt 0 pt.txSeq ackKind ((pt.rxSeq + 4095) % 4096))

end Sys2Proof.Machine
end

