-- ==== Sys2Proof/Machine/Fabric.lean ====
section
/-! DEFINITION. Fabric.lean: the shared operations that every unit uses: sending packets with credits and replay (R297, R309,
R310), queueing code-flash work (R463 to R466), posting completions and notices (R84 to R87), and event occurrences with
their log records (R472 to R477). -/

namespace Sys2Proof.Machine

/-! ## Sending packets -/

/-- Flits that the replay buffer of a port holds (R297, R315). -/
abbrev replayCap (p : Nat) : Nat := if p = 0 then 1024 else 256

/-- The partner has room for the packet on its channel (R309); channel C uses no credit. -/
def creditFor (pt : Port) (initP initN : Nat) (k : Packet) : Bool :=
  match packetChannel k with
  | 0 => pt.sentP + packetBeats k ≤ initP + pt.partnerP
  | 1 => pt.sentN + packetBeats k ≤ initN + pt.partnerN
  | _ => true

/-- The first waiting packet that the ordering rules and the credits let go, and what waits without it (R309, R310); the flags say whether a P, an N
or a C packet stands before. -/
def nextPacket (initP initN : Nat) (pt : Port) : List Packet → Bool → Bool → Bool → Option (Packet × List Packet)
  | [], _, _, _ => none
  | k :: r, bP, bN, bC =>
    let ch := packetChannel k
    let blocked := if ch = 0 then bP else if ch = 1 then bP || bN else bP || bC
    if !blocked && creditFor pt initP initN k then some (k, r)
    else (nextPacket initP initN pt r (bP || ch = 0) (bN || ch = 1) (bC || ch = 2)).map (fun e => (e.1, k :: e.2))

/-- A packet starts on the stream: its beats are taken from the partner's room (R309). -/
def startPacket (k : Packet) (waiting : List Packet) (pt : Port) : Port :=
  let ch := packetChannel k
  { pt with waiting := waiting, sending := some (k, 0), sentP := if ch = 0 then pt.sentP + packetBeats k else pt.sentP,
            sentN := if ch = 1 then pt.sentN + packetBeats k else pt.sentN }

/-- Fills the slots left of a flit: packets follow one another without gaps (R304). -/
def fillFlit (initP initN : Nat) : Nat → Nat → Port → List BeatRun × Port
  | 0, _, pt => ([], pt)
  | n + 1, room, pt =>
    if room = 0 then ([], pt)
    else match pt.sending with
      | some (k, i) =>
        let c := min room (packetBeats k - i)
        let (l, pt') := fillFlit initP initN n (room - c) { pt with sending := if packetBeats k ≤ i + c then none else some (k, i + c) }
        (⟨k, i, c⟩ :: l, pt')
      | none =>
        match nextPacket initP initN pt pt.waiting false false false with
        | none => ([], pt)
        | some (k, w) => fillFlit initP initN n room (startPacket k w pt)

/-- A beat whose parity the transmitter finds wrong before it makes the CRC is never sent: BUS_GRANT reports it for read data as a mismatch of a fabric stage
of class 7, and the operation stops before the port has the beat (R12, R294). Sends payload flits while there are beats to send and the replay buffer has room for a flit (R297): the port after, and the flits. -/
def pumpGo (cap initP initN now : Nat) : Nat → Port → Port × List TxFlit
  | 0, pt => (pt, [])
  | n + 1, pt =>
    if cap ≤ pt.replay.length then (pt, [])
    else
      let (l, pt') := fillFlit initP initN 13 6 pt
      if l.isEmpty then (pt, [])
      else
        let f : TxFlit := { seq := pt.txSeq, beats := l, sentAt := now }
        let (pt'', fs) := pumpGo cap initP initN now n { pt' with replay := pt.replay ++ [f], txSeq := (pt.txSeq + 1) % 4096 }
        (pt'', f :: fs)

/-- Beats that a port has still to send. -/
def Port.beatsLeft (pt : Port) : Nat :=
  (pt.waiting.map packetBeats).sum + (match pt.sending with | some (k, i) => packetBeats k - i | none => 0)

/-- A port's transmitter runs: the link is up, or its receiver alone hunts for the flit boundary (R296). -/
def State.portRuns (s : State) (p : Nat) : Bool := s.get (K.portLinkState p) = 2 || s.get (K.portLinkState p) = 3

/-- Sends what can be sent of a port's waiting packets: only while the link is up, not during a recovery, not in Vigil
(R297, R301, R314). -/
def pumpOnce (p : Nat) (s : State) : State :=
  let pt := s.port p
  if s.portRuns p ∧ pt.recovery = 0 ∧ s.mode ≠ 5 then
    let (pt', sent) := pumpGo (replayCap p) (s.get (K.portPartnerCreditP p)) (s.get (K.portPartnerCreditN p)) s.now pt.beatsLeft pt
    -- While the replay buffer is full Idle flits go out in place of new payload flits (R297); one stands for them (log entry 88).
    let idles := if replayCap p ≤ pt'.replay.length ∧ pt'.beatsLeft ≠ 0 then [Out.idle p (controlWord pt' 0 pt'.txSeq 0 0)] else []
    let s := s.modPort p (fun _ => pt')
    let s := s.add (K.portFlitsSent p) (sent.length + idles.length)
    { s with out := s.out ++ sent.map (sentFlit p pt') ++ idles }
  else s

/-- A packet of the through queue. -/
def Packet.forwarded : Packet → Bool
  | .peer k => k.through
  | _ => false

/-- Sends a flit that carries no packet, and counts it (R317). -/
def sendControlFlit (p : Nat) (o : Port → Out) (s : State) : State := (s.emit (o (s.port p))).inc (K.portFlitsSent p)

/-- The whole packet fits into the through queue of its channel, of 128 beats, and none of that channel waits before it (R421). -/
def throughFits (sending waiting : List Packet) (before : List PeerPacket) (k : PeerPacket) : Bool :=
  let ch := packetChannel (.peer k)
  decide ((((sending ++ waiting).filter (fun x => x.forwarded && decide (packetChannel x = ch))).map packetBeats).sum + packetBeats (.peer k) ≤ 128)
    && !before.any (fun x => decide (packetChannel (.peer x) = ch))

/-- A forwarded packet stands ahead of those of the same channel that this buffer originates (R421). -/
def joinThrough (k : PeerPacket) (l : List Packet) : List Packet :=
  let first := fun (x : Packet) => !x.forwarded && decide (packetChannel x = packetChannel (.peer k))
  l.takeWhile (fun x => !first x) ++ [.peer k] ++ l.dropWhile (fun x => !first x)

/-- Accepts into the through queue what fits of the packets that wait for room (R421). -/
def acceptThrough (pt : Port) : Port :=
  let (w, kept) := pt.through.foldl (fun (a : List Packet × List PeerPacket) k =>
    if throughFits (pt.sending.toList.map (fun e => e.1)) a.1 a.2 k then (joinThrough k a.1, a.2) else (a.1, a.2 ++ [k])) (pt.waiting, [])
  { pt with waiting := w, through := kept }

/-- Sends what can be sent, and what the room in the through queue then lets in. -/
def pump (p : Nat) (s : State) : State :=
  let s := pumpOnce p s
  s.over (s.port p).through (fun s _ => pumpOnce p (s.modPort p acceptThrough))

/-- A waiting packet is data of a read of a lower class. -/
def Packet.yields (cls : Nat) : Packet → Bool
  | .memWrite _ c _ _ _ _ => decide (cls < c)
  | _ => false

/-- Where a packet joins those that wait: read data has not entered the transmit queue, and goes ahead of waiting read data of lower
classes, deadline first; everything else goes behind (R171, R310). -/
def joinWaiting (k : Packet) (l : List Packet) : List Packet :=
  match k with
  | .memWrite _ cls _ _ _ _ => l.takeWhile (fun x => !x.yields cls) ++ k :: l.dropWhile (fun x => !x.yields cls)
  | _ => l ++ [k]

/-- Hands a packet to a port. -/
def sendPacket (p : Nat) (k : Packet) (s : State) : State :=
  if s.mode = 5 ∨ s.mode = 0 then s
  else pump p (s.modPort p (fun pt => { pt with waiting := joinWaiting k pt.waiting }))

/-- Writes bytes of an operation's data to host memory, in pieces that cross no 4,096-byte boundary (R307); `buf` marks a frame that keeps its
frame buffer until its last piece is sent (R151). -/
def hostWrite (op cls : Nat) (buf : Bool) (addr n : Nat) (v : Nat) (s : State) : State :=
  s.over (hostPieces (n / 4096 + 2) addr n 0)
    (fun s e => sendPacket 0 (.memWrite op cls (buf && decide (e.2.2 + e.2.1 = n)) e.1 e.2.1
      (BitVec.ofNat 32768 (v / 2 ^ (8 * e.2.2) % 2 ^ (8 * e.2.1)))) s)

/-- Packets not sent whole: the one whose beats are partly sent, and those that wait. -/
def Port.unsent (pt : Port) : List Packet := (match pt.sending with | some (k, _) => [k] | none => []) ++ pt.waiting

/-- Frame buffers whose frames wait to be sent: those of deadline reads, or of the other classes (R151). -/
def State.waitingBuffers (s : State) (deadline : Bool) : Nat :=
  ((s.port 0).unsent.filter (fun k => match k with | .memWrite _ cls buf _ _ _ => buf && decide (decide (cls = 0) = deadline) | _ => false)).length

/-- Data writes of an operation wait to be sent (R88). -/
def State.writesUnsent (s : State) (op : Nat) : Bool :=
  (s.port 0).unsent.any (fun k => match k with | .memWrite o _ _ _ _ _ => decide (o = op) | _ => false)

/-! ## Code-flash queue -/

/-- First sector and sectors of an area (R455). -/
def areaSpan : Area → Nat × Nat
  | .calibration => (1920, 256)
  | .retained => (2176, 64)
  | .ledger => (2240, 16)
  | .lossLog => (2256, 64)
  | .checkpoint set => (2320 + 8 * set, 8)
  | .generation set => (2384 + 8 * set, 8)
  | .spareMap => (2448, 512)
  | .history => (2960, 256)
  | .wakeImage => (3216, 16)
  | .dump => (3232, 256)
  | .log => (3488, 512)

/-- The oldest descriptor of the lowest class starts on an idle array; in Vigil only classes 0 and 1 do (R465). -/
def cfNext (s : State) : State :=
  match s.cf.cur with
  | some _ => s
  | none =>
    let classes := if s.mode = 5 then [0, 1] else [0, 1, 2, 3]
    match classes.findSome? (fun c => s.cf.queue.find? (fun d => d.cls = c)) with
    | some d => { s with cf := { s.cf with cur := some d, queue := s.cf.queue.erase d } }
    | none => s

/-- Queues a descriptor; an idle array starts it at once (R463, R465). Descriptors beyond the 32 of the queue wait with the
warden, in order (DESIGN CHOICE, log entry 10). -/
def cfPush (opcode cls addr count sram : Nat) (data : List Word) (why : CfPurpose) (s : State) : State :=
  let d : CfDesc :=
    { slot := s.cf.nextSlot, opcode := opcode, cls := cls, addr := addr, count := count, sram := sram, data := data, purpose := why }
  cfNext { s with cf := { s.cf with nextSlot := (s.cf.nextSlot + 1) % 32, queue := s.cf.queue ++ [d] } }

/-- Appends words to an area: they lie in one sector; a sector entered anew is erased first (R455). -/
def cfAppend (a : Area) (cls : Nat) (ws : List Word) (why : CfPurpose) (s : State) : State :=
  let (base, n) := areaSpan a
  let p := SMap.getD s.nv.areaNext base 0
  let p := if 2048 < p % 2048 + ws.length then (p / 2048 + 1) * 2048 else p
  let p := p % (2048 * n)
  let s := s.when (p % 2048 = 0) (cfPush 3 cls (2048 * base + p) 1 0 [] .areaErase)
  let s := { s with nv := { s.nv with areaNext := SMap.insert s.nv.areaNext base (p + ws.length) } }
  cfPush 2 cls (2048 * base + p) ws.length 0 ws why s

/-- A save in a format private to the warden: one word whose value the manual does not give (R455). -/
def cfSave (k : SaveKind) (s : State) : State :=
  let (i, s) := s.free
  cfAppend .history 2 [BitVec.ofNat 20 (Config.freeNat i), 0] (.save k) s

/-! ## Completion rings -/

/-- Slots of a completion ring. -/
abbrev State.cringSize (s : State) (m : Nat) : Nat := 2 ^ s.get (K.cringSizeLog2 m)

/-- Slots free for a new reservation or for a completion of kind 0x2 or 0x3 (R69, R86). -/
def State.cringFree (s : State) (m : Nat) : Nat :=
  let size := s.cringSize m
  (size - 1) - (s.get (K.cringTail m) + size - s.get (K.cringHead m)) % size - s.get (K.cringReserved m)

/-- Class that a notice of a completion carries: that of the ring that an operation or a migration completes, 0 of an event or a loss notice (R73, R304; DESIGN CHOICE, log
entry 167). -/
def State.noticeClass (s : State) (c : Completion) : Nat :=
  if c.toNat / 2 ^ 35 % 16 ≤ 1 then s.get (K.ringPriority (c.toNat / 2 ^ 18 % 8192)) else 0

/-- Sends a completion notice of a ring, with the class of the newest completion that it covers, and counts its completions as covered (R87, R304). -/
def sendNotice (m : Nat) (s : State) : State :=
  let (_, _, cls) := SMap.getD s.rings.unnoticed m (0, 0, 0)
  let s := { s with rings := { s.rings with unnoticed := SMap.erase s.rings.unnoticed m } }
  sendPacket 0 (.notice cls m (s.get (K.cringTail m))) s

/-- Writes a completion at the ring's Tail with its Phase, and sends a notice when NotifyCount is reached or NotifyDelay is
0 (R84 to R87); in Vigil none is posted (R386). -/
def postEntry (m : Nat) (c : Completion) (s : State) : State :=
  if s.mode = 5 then s else
  let size := s.cringSize m
  let tail := s.get (K.cringTail m)
  let phase := s.flag (K.cringPhase m)
  let pool := SMap.put 0 s.rings.cplPool (s.get (K.cringBase m) + tail) (withPhase c phase)
  let s := { s with rings := { s.rings with cplPool := pool } }
  let s := s.set (K.cringTail m) ((tail + 1) % size)
  let s := s.when (tail + 1 = size) (fun s => s.set (K.cringPhase m) (if phase then 0 else 1))
  let (n, since, _) := SMap.getD s.rings.unnoticed m (0, s.now, 0)
  let s := { s with rings := { s.rings with unnoticed := SMap.insert s.rings.unnoticed m (n + 1, since, s.noticeClass c) } }
  s.when (s.flag (K.cringNotifyEnable m) && (s.get (K.cringNotifyCount m) ≤ n + 1 || s.get (K.cringNotifyDelay m) = 0))
    (sendNotice m)

/-! ## Events -/

/-- Counts, latches and queues one occurrence (R472), without its log record. -/
def occurQuiet (n arg : Nat) (s : State) : State :=
  let s := s.inc (K.evCount n)
  let s := s.set (K.evLastArgument n) arg
  let s := s.set (K.evLastUptime n) (s.uptime % 2 ^ 40)
  let s := if s.flag (K.evLatched n) then s
    else (s.set (K.evLatched n) 1).when (1152 ≤ n) (fun s => { s with ev := { s.ev with changeCount := s.ev.changeCount + 1 } })
  -- Occurrences before step 3 of start-up queue nothing (R475).
  if s.flag (K.evEnable n) ∧ ¬(s.mode ≤ 1 ∧ s.get K.bringupStep < 3) then
    if s.flag (K.evPending n) then
      { s with ev := { s.ev with coalesced := SMap.modify s.ev.coalesced n 0 (fun c => min 511 (c + 1)) } }
    else
      let s := s.set (K.evPending n) 1
      { s with ev := { s.ev with coalesced := SMap.insert s.ev.coalesced n 0,
                                 queue := s.ev.queue ++ [(s.get (K.evRing n), n, arg)] } }
  else s

/-- A log record beyond the limit is an occurrence of LogThrottled, itself never logged (R477). -/
def logThrottled (s : State) : State := occurQuiet 1172 0 s

/-- Appends a log record to code flash within 16 in any second (R477). -/
def logWrite (n arg : Nat) (s : State) : State :=
  let recent := s.cf.logTimes.filter (fun t => s.now < t + 1000000)
  if recent.length < 16 then
    let r : LogRec :=
      { source := n, arg := arg, minute := s.get K.calendsNow, cold := s.get K.coldEntries % 4096, uptime := s.uptime % 2 ^ 40 }
    let s := { s with cf := { s.cf with logTimes := recent ++ [s.now] } }
    cfAppend .log 2 (duoWords (logDuos r)) (.log r.source r.arg r.minute r.cold r.uptime) s
  else logThrottled { s with cf := { s.cf with logTimes := recent } }

/-- Logs an occurrence: not in Vigil; kept in SRAM, at most 64, before step 3 of start-up (R477). -/
def logEvent (n arg : Nat) (s : State) : State :=
  if s.mode = 5 then s
  else if s.mode ≤ 1 ∧ s.get K.bringupStep < 3 then
    (if s.cf.logHeld.length < 64 then { s with cf := { s.cf with logHeld := s.cf.logHeld ++ [(n, arg, s.uptime)] } }
     else logThrottled s)
  else logWrite n arg s

/-- An occurrence of an event source (R472): logged at a latch, and at every occurrence of a severity-2 source. -/
def occur (n arg : Nat) (s : State) : State :=
  let logged := !s.flag (K.evLatched n) || evSeverityOf n = 2
  let s := occurQuiet n arg s
  s.when (logged && n ≠ 1172) (logEvent n arg)

/-! ## Modes (R339, R340, R350) -/

/-- A field of BoardDigest has changed: ChangeCount counts it (R410). -/
def digestChanged (s : State) : State := s.modEv (fun e => { e with changeCount := e.changeCount + 1 })

/-- Sets an object that BoardDigest shows (R410). -/
def State.report (s : State) (k v : Nat) : State := if s.get k = v then s else digestChanged (s.set k v)

/-- Enters a mode: ModeChanges and ModeChange (R350, R479). -/
def changeMode (m : Nat) (s : State) : State :=
  let old := s.mode
  let s := (s.report K.deviceMode m).inc K.modeChanges
  occur 1176 (m + 8 * old + 64 * (s.get K.modeReason % 128)) s

/-- Conditions of R340 that hold, as ModeReason reports them (R354). -/
def State.modeReasons (s : State) : Nat :=
  let some_ := fun (p : Nat → Bool) => (List.range 8).any p
  (if some_ (fun n => s.get (K.setProtection n) ≠ 0 && s.get (K.setState n) ≠ 0) then 1 else 0)
    + (if some_ (fun n => s.get (K.setState n) = 2) then 2 else 0) + (if some_ (fun n => s.get (K.setState n) = 3) then 4 else 0)
    + (if some_ (fun n => s.get (K.setState n) = 4) then 8 else 0) + (if some_ (fun n => s.get (K.setState n) = 5) then 16 else 0)
    + (if 0 < s.get K.replayUnits then 32 else 0) + (if s.ev.wedged ≠ [] ∨ s.ev.fenced ≠ [] then 64 else 0)

/-- The serving mode that the conditions select (R340). -/
def servingMode (reasons : Nat) : Nat := if 2 ≤ reasons then 4 else if reasons = 1 then 3 else 2

/-- Derives the mode anew; outside the serving modes nothing is derived (R340). -/
def deriveMode (s : State) : State :=
  if s.serving then
    let s := s.set K.modeReason s.modeReasons
    let m := servingMode s.modeReasons
    if m = s.mode then s else changeMode m s
  else s

/-! ## TEST on a path -/

/-- A path loses TEST: its TestState returns to 0 and TestUnlocked is raised if it held TEST (R41, R479); an attempt that is being verified is dropped,
and its nonce replaced (R43, R412; that TestLock and a link recovery do so to an attempt is a DESIGN CHOICE, log entry 174). -/
def loseTest (p : Path) (s : State) : State :=
  let held := (s.pathState p).test
  let verifying := decide (s.get (pathKey p 0x1E00 5) = 1)
  let s := s.modPath p (fun ps => { ps with test := false, nonce := if verifying then [] else ps.nonce })
  let s := s.set (pathKey p 0x1E00 5) 0
  s.when held (occur 1232 (pathCode p + 4))

/-! ## Warden dump and integrity faults (R467, R480) -/

/-- Starts a warden dump: the dump area is erased sector by sector, then written (R467). -/
def startDump (s : State) : State :=
  if s.get K.dumpState = 1 then s
  else
    let s := { s with nv := { s.nv with saved := SMap.erase s.nv.saved K.dumpState } }
    cfPush 3 3 (2048 * 3232) 1 0 [] (.dump 0) (s.set K.dumpState 1)

/-- A fault takes a dump only while none is held (R467, R480). -/
def faultDump (s : State) : State := if s.get K.dumpState = 2 then s else startDump s

/-- Event k of a channel (R232). -/
def chEvent (c k arg : Nat) (s : State) : State := occur (12 * c + k) arg s

/-- A fabric parity mismatch found by a stage: IntegrityError, and a dump at the third within 1 s (R12, R479, R480). -/
def integrityError (cls stage : Nat) (s : State) : State :=
  let recent := s.ev.integrityTimes.filter (fun t => s.now < t + 1000000) ++ [s.now]
  let s := occur 1168 (cls + 8 * stage) { s with ev := { s.ev with integrityTimes := recent } }
  s.when (3 ≤ recent.length) faultDump

/-! ## Pepper (R485, R490) -/

/-- Keys of the perturbation objects. -/
def pepperKeys : List Nat :=
  [0xE010, 0xE011, 0xE012, 0xE020, 0xE030, 0xE040, 0xE050, 0xE060, 0xE070, 0xE080].flatMap (fun idx =>
    match rowsAt idx with
    | some (_, rows) => rows.flatMap (fun r => if r.acc = .rw then (List.range (r.hi + 1 - r.lo)).map (fun k => key idx (r.lo + k)) else [])
    | none => [])

/-- PepperActive (R485). -/
def State.pepperActive (s : State) : Bool := s.flag K.pepperEnable && pepperKeys.any (fun k => decide (s.get k ≠ objDefault k))

/-- Raises PepperChange if PepperActive is no longer what it was (R479). -/
def pepperChanged (was : Bool) (s : State) : State :=
  if s.pepperActive = was then s else occur 1233 (if s.pepperActive then 1 else 0) s

/-- Returns objects to their defaults. -/
def pepperDefaults (ks : List Nat) (s : State) : State := s.over ks (fun s k => s.set k (objDefault k))

/-! ## VDD_CORE (R14, R15, R362) -/

/-- Changes the VID code and records when. -/
def vidSet (code : Nat) (s : State) : State :=
  { s.set K.vidCode code with ev := { s.ev with vidAt := some s.now, vidPending := false, vidTarget := none } }

/-- The code changed less than 10 µs ago (R14, R362). -/
def State.vidRecent (s : State) : Bool := match s.ev.vidAt with | some t => decide (s.now < t + 10) | none => false

/-- Moves to a code that a mode or a power state asks for: at once, or 10 µs after the last change (R362; log entry 166). -/
def vidMove (code : Nat) (s : State) : State :=
  if s.get K.vidCode = code then s.modEv (fun e => { e with vidTarget := none })
  else if s.vidRecent then s.modEv (fun e => { e with vidTarget := some code })
  else vidSet code s

/-- The wait for a code is over (R362). -/
def vidDue (s : State) : State :=
  match s.ev.vidTarget with
  | some code => if s.vidRecent then s else vidSet code s
  | none => s

end Sys2Proof.Machine
end

