-- ==== Sys2Proof/Machine/Dram.lean ====
section
/-! DEFINITION. Dram.lean: the DRAM controller (R254 to R281): addresses and regions, bank queues and picks, panic, refresh,
row disturbance, retirement of ranks and the copy to a spare half, recovery by region and the margining helpers. What DRAM holds
(the mapping table, the shadows, the indexes) stands in its own tables of the state; here stands the traffic that reaches it. -/

namespace Sys2Proof.Machine

/-! ## Substructures -/

def State.dsub (s : State) (n : Nat) : DramSub := SMap.getD s.dram.subs n {}
def State.drank (s : State) (n r : Nat) : DramRank := SMap.getD s.dram.ranks (3 * n + r) {}
def State.modDram (s : State) (f : Dram → Dram) : State := { s with dram := f s.dram }
def State.modDsub (s : State) (n : Nat) (f : DramSub → DramSub) : State :=
  s.modDram (fun x => { x with subs := SMap.insert x.subs n (f (s.dsub n)) })
def State.modDrank (s : State) (n r : Nat) (f : DramRank → DramRank) : State :=
  s.modDram (fun x => { x with ranks := SMap.insert x.ranks (3 * n + r) (f (s.drank n r)) })

/-! ## Addressing (R258 to R260) -/

/-- Fields of a DRAM address (R258). -/
abbrev daRow (a : Nat) : Nat := a / 4194304 % 65536
abbrev daCol (a : Nat) : Nat := a / 32768 % 128
abbrev daBank (a : Nat) : Nat := a / 8192 % 4
abbrev daRank (a : Nat) : Nat := a / 4096 % 2
abbrev daGroup (a : Nat) : Nat := a / 512 % 8
abbrev daSub (a : Nat) : Nat := a / 64 % 8

/-- A DRAM address from its fields (R258). -/
def daOf (row col bank rank group sub : Nat) : Nat :=
  4194304 * row + 32768 * col + 8192 * bank + 4096 * rank + 512 * group + 64 * sub

/-- Index of a bank-row: 32 × row + 4 × bank group + bank (R274). -/
abbrev daBankRow (a : Nat) : Nat := 32 * daRow a + 4 * daGroup a + daBank a

/-- Place of a bank queue in the rotation: bank group fastest, then bank, then rank (R264). -/
abbrev daTurn (a : Nat) : Nat := daGroup a + 8 * daBank a + 32 * daRank a

/-- Bank of a rank, as its activate-count table is numbered. -/
abbrev daBankNo (a : Nat) : Nat := daGroup a + 8 * daBank a

/-- Segments of the mapping table (R259). -/
def State.mapSegments (s : State) : Nat := if s.density = 2 then 3072 else 1536

/-- Segments that the directories name. -/
def State.segmentsUsed (s : State) : List Nat := s.dram.directory.flatMap (fun e => e.2)

/-- Sets the directory of a set to the slots that n logical units need: a rise takes the lowest free segments, a fall returns
those above the count (R259). -/
def fillDirectory (set n : Nat) (s : State) : State :=
  let slots := (n + 16777215) / 16777216
  let old := SMap.getD s.dram.directory set []
  let used := s.segmentsUsed
  let free := (List.range s.mapSegments).filter (fun k => !used.contains k)
  let new := old.take slots ++ free.take (slots - old.length)
  let s := s.modDram (fun x => { x with directory := SMap.put [] x.directory set new })
  -- A segment that the directory names no longer has no save (R347).
  let kept := fun (k : Nat) => decide (k / 2048 ≠ set) || decide (k % 2048 < slots)
  let s := s.modNv (fun n => { n with mapSaves := n.mapSaves.filter (fun e => kept e.1) })
  let s := s.modWr (fun w => { w with savedFrom := w.savedFrom.filter (fun e => kept e.1), save := w.save.filter (fun v => kept v.seg) })
  s.set K.mapSegmentsInUse s.segmentsUsed.length

/-- DRAM address of the entry of a unit of a set (R259), if the set's directory names its segment. -/
def State.entryDa (s : State) (set lui : Nat) : Option Nat :=
  ((SMap.getD s.dram.directory set [])[lui / 16777216]?).map (fun k => 83886080 * k + 5 * (lui % 16777216))

/-- First byte of program shadow entry j (R260). -/
abbrev shadowDa (j : Nat) : Nat := 0x3C00000000 + 16640 * j

/-- Region of an address, numbered by row of the table of R277 from 1; 0 for unallocated and unused space. -/
def State.daRegion (s : State) (a : Nat) : Nat :=
  if a < 83886080 * s.mapSegments then (if s.segmentsUsed.contains (a / 83886080) then 1 else 2)
  else if a < 0x3C00000000 then 0
  else if a < 0x3C41000000 then 3
  else if a < 0x3C43000000 then 4
  else if a < 0x3C44000000 then 5
  else if a < 0x3C45000000 then 6
  else if a < 0x3C46000000 then 7
  else if a < 0x3C47000000 then 8
  else if a < 0x3C80000000 then 0
  else if a < 0x3DC0000000 then 9
  else if a < 0x3FF0000000 then 0
  else 10

/-! ## Requests (R263, R265, R266) -/

/-- Hands an access to the sub-channels that it touches, one extent for each (R258, R263). -/
def dramAccess (cls : Nat) (write : Bool) (first n : Nat) (src : DramSrc) (s : State) : State :=
  let past := first + n
  let b0 := first / 64
  s.over (List.range (min 8 ((past + 63) / 64 - b0))) (fun s i =>
    s.modDsub ((b0 + i) % 8) (fun x =>
      { x with held := x.held ++ [{ cls := cls, write := write, first := first, past := past, next := b0 + i, src := src }] }))

/-- A burst of an access has not been issued (R263). -/
def State.dramPending (s : State) (src : DramSrc) : Bool :=
  s.dram.subs.any (fun e => e.2.held.any (fun x => decide (x.src = src)) || e.2.queue.any (fun x => decide (x.src = src)))

/-- The request of an extent's next burst; a write that does not fill its burst is a read-modify-write (R265). -/
def DramExtent.request (e : DramExtent) : DramReq :=
  { cls := e.cls, write := e.write, rmw := e.write && (decide (64 * e.next < e.first) || decide (e.past < 64 * e.next + 64)),
    da := 64 * e.next, src := e.src }

/-- The bank queue of a request has a free place of its 16 (R263). -/
def DramSub.roomFor (x : DramSub) (r : DramReq) : Bool :=
  decide ((x.queue.filter (fun q => daTurn q.da = daTurn r.da)).length < 16)

/-- A read names the same row as a write pending in its bank queue (R266). -/
def DramSub.rowMatch (x : DramSub) (r : DramReq) : Bool :=
  !r.write && x.queue.any (fun q => q.write && decide (daTurn q.da = daTurn r.da) && decide (daRow q.da = daRow r.da))

/-- Lets the bursts of one extent enter their bank queues while there is room: the sub-channel, what is left of the extent, and
the in-order episodes that began (R263, R266). -/
def enterExtent : Nat → DramExtent → DramSub → DramSub × Option DramExtent × Nat
  | 0, e, x => (x, some e, 0)
  | n + 1, e, x =>
    if e.past ≤ 64 * e.next then (x, none, 0)
    else
      let r := e.request
      if x.roomFor r then
        let (x', e', k) := enterExtent n { e with next := e.next + 8 } { x with queue := x.queue ++ [r] }
        (x', e', k + (if x.rowMatch r then 1 else 0))
      else (x, some e, 0)

/-- Lets held accesses enter the bank queues; a full queue holds back no other bank (R263). -/
def enterHeld (n : Nat) (s : State) : State :=
  let x := s.dsub n
  let (x', held, k) := x.held.foldl (fun (acc : DramSub × List DramExtent × Nat) e =>
    let (x, held, k) := acc
    let (x, rest, i) := enterExtent 40 e x
    (x, (match rest with | some e => held ++ [e] | none => held), k + i)) (x, [], 0)
  (s.modDsub n (fun _ => { x' with held := held })).add K.inOrderEpisodes k

/-- A request of a sub-channel waits: for the recovery of the burst that it reads (R277), or, at bank-row M of a migration, for that bank-row's
copy (R274, R275), which Vigil stops. -/
def State.reqWaits (s : State) (sub : Nat) (r : DramReq) : Bool :=
  ((!r.write || r.rmw) && s.dram.recoveries.contains r.da)
  || (decide (s.mode ≠ 5) && decide (s.get (K.dramSpareHalfState sub) = 2) && decide (s.get (K.dramSpareReplaces sub) = daRank r.da)
    && decide (daBankRow r.da = (s.dsub sub).copyRow))

/-- The panic write of a queue that goes first: by arrival, and where more than 24 panics stand, those of the panic raised first (R267). -/
def panicHead (order : List (Nat × Nat)) (q : List DramReq) : Option DramReq :=
  match order.findSome? (fun p => q.find? (fun r => decide (r.cls = 1) && decide (r.src = .shadow p.1 p.2))) with
  | some r => some r
  | none => q.find? (fun r => decide (r.cls = 1))

/-- The request of a bank queue that may go next in a direction of the bus: by class and then by arrival, strictly by arrival while a
read stands behind a write to its row (R263, R266). One that `waits` holds back goes not (R275, R277). -/
def bankHead (waits : DramReq → Bool) (order : List (Nat × Nat)) (q : List DramReq) (write : Bool) : Option DramReq :=
  let strict := (q.zip (List.range q.length)).any (fun e => !e.1.write &&
    ((q.take e.2).any (fun w => w.write && decide (daRow w.da = daRow e.1.da))))
  let ready := fun (r : DramReq) => r.write == write && !waits r
  if strict then q.head?.bind (fun r => if ready r then some r else none)
  else
    match (if write then panicHead order (q.filter ready) else none) with
    | some r => some r
    | none => [1, 2, 3, 4, 5].findSome? (fun k => q.find? (fun r => decide (r.cls = k) && ready r))

/-- Direction of the bus at a pick (R264): a panic write turns it at once; it turns to writes at 48 pending or with no read pending, and
back to reads after 32 or with no write pending. -/
def DramSub.direction (x : DramSub) : Bool :=
  let w := (x.queue.filter (fun r => r.write)).length
  let r := x.queue.length - w
  if x.queue.any (fun r => r.cls = 1) then true
  else if x.writing then decide (w ≠ 0) && (decide (x.run < 32) || decide (r = 0))
  else decide (w ≠ 0) && (decide (48 ≤ w) || decide (r = 0))

/-- Heads of the bank queues in the order of the rotation, from the bank after the last one served (R264). -/
def DramSub.heads (x : DramSub) (waits : DramReq → Bool) (order : List (Nat × Nat)) (write : Bool) : List DramReq :=
  (List.range 64).filterMap (fun i =>
    bankHead waits order (x.queue.filter (fun r => daTurn r.da = (x.last + 1 + i) % 64)) write)

/-- The pick (R264, R267, R268): the first bank in rotation whose head is of the highest class present; while panic writes are pending, one
pick in eight goes to a mapping read. `waits` holds requests back; `order` are the panics, where more than 24 stand. -/
def DramSub.pick (x : DramSub) (waits : DramReq → Bool) (order : List (Nat × Nat)) : Option DramReq :=
  let panic := x.queue.any (fun r => r.cls = 1)
  let mapping := (x.heads waits order false).find? (fun r => r.cls = 2)
  let usual := fun (w : Bool) =>
    let h := x.heads waits order w
    match panicHead order h with
    | some r => some r
    | none => [1, 2, 3, 4, 5].findSome? (fun k => h.find? (fun r => r.cls = k))
  match (if panic && decide (7 ≤ x.panicRun) then mapping else none) with
  | some r => some r
  | none =>
    match usual x.direction with
    | some r => some r
    | none => usual (!x.direction)

/-! ## Ranks (R254, R275) -/

/-- State object of an active rank. -/
def rankStateKey (sub r : Nat) : Nat := if r = 0 then K.dramRankState0 sub else K.dramRankState1 sub

/-- The rank, active or spare (2), where a request of an active rank goes: below M of a migration and after it, the spare half (R275). -/
def State.rankFor (s : State) (sub a : Nat) : Nat :=
  let r := daRank a
  if s.get (K.dramSpareReplaces sub) ≠ r then r
  else if s.get (K.dramSpareHalfState sub) = 2 then (if daBankRow a < (s.dsub sub).copyRow then 2 else r)
  else 2

/-- Argument of an event that names a rank (R479). -/
abbrev rankArg (sub r : Nat) : Nat := sub + 8 * r

/-- Recounts the spare halves ready and not in use (R281). -/
def countSpares (s : State) : State :=
  s.set K.sparesLeft ((List.range 8).filter (fun n => s.get (K.dramSpareHalfState n) = 1)).length

/-- Programs a mode register of a rank; for `part` above 0 that of component part − 1, through PDA (R256, R257). -/
def writeMode (sub r reg part : Nat) (contents : ModeContents) (s : State) : State :=
  (s.modDrank sub r (fun x => { x with modeRegs := SMap.insert x.modeRegs (if part = 0 then reg else 1024 + (part - 1)) contents })).emit
    (.dramMode sub r reg part contents)

/-- Sets VrefDQ of every component of a spare half through PDA (R257, R279). -/
def setVrefDq (sub : Nat) (code : Nat → ModeContents) (s : State) : State := s.over (List.range 10) (fun s j => writeMode sub 2 10 (j + 1) (code j) s)

/-- The trained VrefDQ comes back after a helper run that set another (R279). -/
def restoreVrefDq (sub : Nat) (s : State) : State :=
  let old := s.dram.helperVref
  s.when (old ≠ []) (fun s => (setVrefDq sub (fun j => nth old j .resetValue) s).modDram (fun x => { x with helperVref := [] }))

/-- A retirement stops a helper run on the rank (R280). -/
def stopHelper (sub r : Nat) (s : State) : State :=
  if s.dram.helper = some (sub, r) then
    let s := restoreVrefDq sub s
    let (i, s) := s.free
    let n := Config.freeNat i % (s.get K.helperBursts + 1)
    (s.set K.helperState 3).set K.helperBurstsDone n |>.modDram (fun x => { x with helper := none })
  else s

/-- Retirement of a rank (R272, R274, R276): with a ready spare half its migration starts, otherwise it runs suspect; a rank that is
not in service, and a suspect one, retires no more. Causes: 1 uncorrectable, 2 limit, 3 command parity, 4 RetireRank. -/
def retire (sub r cause : Nat) (s : State) : State :=
  if r = 2 then
    if s.get (K.dramSpareHalfState sub) = 3 then
      occur 1195 (rankArg sub 2) ((stopHelper sub r s).set (K.dramSpareHalfState sub) 4)
    else s
  else if s.get (rankStateKey sub r) ≠ 1 then s
  else
    let s := stopHelper sub r s
    if s.get (K.dramSpareHalfState sub) = 1 then
      let s := (s.set (rankStateKey sub r) 2).set (K.dramSpareHalfState sub) 2
      let s := (s.set (K.dramSpareReplaces sub) r).set (K.dramMigrationProgress sub) 0
      let s := s.modDsub sub (fun x => { x with copyRow := 0 })
      countSpares (occur 1193 (rankArg sub r + 32 * cause) s)
    else occur 1195 (rankArg sub r) (s.set (rankStateKey sub r) 4)

/-! ## Row disturbance (R271) -/

/-- The table of a bank after an activate of a row, before any refresh: an entry of the table counts up; another row takes the place of
the entry with the lowest count, and its count plus 1. -/
def countActivate (l : List (Nat × Nat)) (row : Nat) : List (Nat × Nat) :=
  if l.any (fun e => e.1 = row) then l.map (fun e => if e.1 = row then (e.1, e.2 + 1) else e)
  else if l.length < 32 then l ++ [(row, 1)]
  else
    let low := l.foldl (fun m e => min m e.2) ((l.head?.map (fun e => e.2)).getD 0)
    let i := l.findIdx (fun e => e.2 = low)
    l.set i (row, low + 1)

/-- One activate of a row of a rank: the count and, at the threshold, the refresh of its neighbours (R271). -/
def activate (sub r bank row : Nat) (s : State) : State :=
  let l := countActivate (SMap.getD (s.drank sub r).activates bank []) row
  let hit := l.any (fun e => decide (e.1 = row) && decide (s.get K.rowHammerThreshold ≤ e.2))
  let l := if hit then l.map (fun e => if e.1 = row then (e.1, 0) else e) else l
  let s := s.modDrank sub r (fun x => { x with activates := SMap.insert x.activates bank l })
  s.when hit (fun s =>
    let s := s.over ([row - 2, row - 1].filter (fun x => x < row ∧ 2 ≤ row) ++ (if row = 1 then [0] else [])
        ++ [row + 1, row + 2].filter (fun x => x < 65536))
      (fun s x => s.emit (.dramCommand sub r 4 (daOf x 0 (bank / 8) 0 (bank % 8) sub)))
    s.inc K.neighbourRefreshes)

/-! ## Commands to a rank (R265, R270) -/

/-- A rank leaves self-refresh for a request (R270). -/
def wakeRank (sub k : Nat) (s : State) : State :=
  s.when (s.drank sub k).selfRefresh (fun s =>
    (s.modDrank sub k (fun x => { x with selfRefresh := false })).emit (.dramCommand sub k 6 0))

/-- A column command to a rank: the exit of self-refresh where it is needed, its own activate, since every column command carries auto-precharge,
and the command (R265, R270, R271). -/
def columnCommand (sub k op a : Nat) (s : State) : State :=
  activate sub k (daBankNo a) (daRow a) ((wakeRank sub k s).emit (.dramCommand sub k op a))

/-- Issues a request to its rank: the exit of self-refresh, the activate of each column command (every one carries auto-precharge,
R265), and the commands (R270, R271). Commands: 1 read, 2 write, 3 REFab, 4 neighbour refresh, 5 self-refresh entry, 6 exit,
7 mode register read, 8 ZQ calibration, 9 mode register write (register + 1,024 × part, part j + 1 for component j through PDA), 10 power-down
entry, 11 exit, 12 the training commands of a step (its number), 13 release of reset. -/
def issueDram (sub : Nat) (r : DramReq) (s : State) : State :=
  let k := s.rankFor sub r.da
  let s := s.when (!r.write || r.rmw) (columnCommand sub k 1 r.da)
  s.when r.write (columnCommand sub k 2 r.da)

/-! ## Checked reads (R262, R277) -/

/-- Starts the recovery of a burst: it is counted and pending until its end (R277). Unused space and the margin window have none. -/
def startRecovery (a : Nat) (s : State) : State :=
  if s.daRegion a = 0 ∨ s.daRegion a = 10 ∨ s.dram.recoveries.contains a = true then s
  else
    let l := s.dram.recoveries ++ [a]
    ((s.modDram (fun x => { x with recoveries := l })).inc K.regionRecoveries).set K.recoveriesPending l.length

/-- Acts on the check of a burst read from a rank: a corrected one is written back to its place (R262, R272, R273). -/
def dramChecked (sub r a : Nat) (c : BurstCheck) (s : State) : State :=
  match c with
  | .good => s
  | .corrected =>
    let s := (columnCommand sub r 2 a s).inc (K.dramCorrectedErrors sub)
    let l := (s.drank sub r).corrections.filter (fun t => s.now < t + 86400000000) ++ [s.now]
    let s := s.modDrank sub r (fun x => { x with corrections := l })
    s.when (s.flag K.correctableLimit && decide (s.get K.correctableLimit < l.length)) (retire sub r 2)
  | .uncorrectable =>
    let s := s.inc (K.dramUncorrectableErrors sub)
    let s := occur 1192 (rankArg sub r + 32 * s.daRegion a) s
    retire sub r 1 (startRecovery a s)
  | .commandParity =>
    let s := s.inc (K.dramCommandParityErrors sub)
    let again := match (s.drank sub r).parityAt with | some t => decide (s.now < t + 86400000000) | none => false
    let s := s.modDrank sub r (fun x => { x with parityAt := some s.now })
    s.when again (retire sub r 3)

/-! ## Picks (R264) -/

/-- The shadow write of an entry has not ended. -/
def State.shadowWriting (s : State) (j c : Nat) : Bool :=
  s.dram.subs.any (fun e =>
    e.2.held.any (fun x => x.write && decide (x.src = .shadow j c)) || e.2.queue.any (fun x => x.write && decide (x.src = .shadow j c)))

/-- Panics whose shadow writes have not ended, in the order they were raised, where more than 24 stand (R267). -/
def State.panicOrder (s : State) : List (Nat × Nat) :=
  let l := s.dram.panics.filter (fun p => s.shadowWriting p.1 p.2)
  if 24 < l.length then l else []

/-- The request that a sub-channel's scheduler picks (R264, R267, R277). -/
def State.dramNext (s : State) (n : Nat) : Option DramReq := (s.dsub n).pick (s.reqWaits n) s.panicOrder

/-! ## Panic (R209, R267) -/

/-- Entries whose shadow writes of a channel have not ended, oldest first: each fills one page of the two of the channel's prefetch
(R209). -/
def State.prefetchHeld (s : State) (c : Nat) : List Nat :=
  s.dram.shadowWrites.filterMap (fun e => if e.2 = c ∧ s.shadowWriting e.1 e.2 = true then some e.1 else none)

/-- The page whose burst has ended is written to its shadow (R137, R209). -/
def writeShadow (j c : Nat) (s : State) : State :=
  dramAccess 4 true (shadowDa j) 16640 (.shadow j c)
    (s.modDram (fun x => { x with shadowWrites := x.shadowWrites.filter (fun e => e ≠ (j, c) && s.shadowWriting e.1 e.2) ++ [(j, c)] }))

/-- A sequencer raises panic for the page at the head of its prefetch: its bursts become panic writes (R267). -/
def raisePanic (j c : Nat) (s : State) : State :=
  let s := s.modDram (fun x =>
    { x with subs := x.subs.map (fun e => (e.1,
        { e.2 with held := mapIf (fun x => x.write && decide (x.src = .shadow j c)) (fun x => { x with cls := 1 }) e.2.held,
                   queue := mapIf (fun x => x.write && decide (x.src = .shadow j c)) (fun x => { x with cls := 1 }) e.2.queue })),
             panics := (x.panics.filter (fun p => p ≠ (j, c) && s.shadowWriting p.1 p.2)) ++ [(j, c)] })
  s.inc K.panicEpisodes

/-! ## Refresh and idle states (R269, R270, R278, R336) -/

/-- A rank takes commands: in service, migrating or suspect; a spare half that is ready, migrating in, in use or suspect; none before DRAM has
trained (R278). -/
def State.rankServes (s : State) (sub r : Nat) : Bool :=
  s.dram.trained && (if r = 2 then s.get (K.dramSpareHalfState sub) ≠ 0
  else decide (s.get (rankStateKey sub r) ≠ 0) && decide (s.get (rankStateKey sub r) ≠ 3))

/-- A command to a rank at whose pads a parity mismatch may be met: it counts, and the command is issued again (R273). -/
def rankCommand (sub : Nat) (c : RankCommand) (op addr : Nat) (s : State) : State :=
  let s := s.emit (.dramCommand sub c.rank op addr)
  s.when c.mismatch (fun s => (dramChecked sub c.rank addr .commandParity s).emit (.dramCommand sub c.rank op addr))

/-- Every rank that takes commands enters or leaves an idle state (R270), with the command given; one in self-refresh stays in it. -/
def idleRanks (op : Nat) (f : DramRank → DramRank) (s : State) : State :=
  s.over (List.range 8) (fun s sub => s.over (List.range 3) (fun s r =>
    s.when (s.rankServes sub r && (decide (op = 6) || !(s.drank sub r).selfRefresh)) (fun s =>
      (s.modDrank sub r f).emit (.dramCommand sub r op 0))))

/-- REFRESH (R269): a refresh falls due on a rank. Up to four are postponed while requests are pending; a fifth is overdue and is
served, with those postponed. A rank in self-refresh refreshes itself (R270). -/
def execRefresh (sub : Fin 8) (command : RankCommand) (s : State) : Res :=
  .next (
    let rank := command.rank
    let x := s.drank sub rank
    if !s.rankServes sub rank || x.selfRefresh then s
    else if (s.dsub sub).queue.any (fun r => decide (s.rankFor sub r.da = rank) && decide (r.cls ≠ 5)) ∧ x.postponed < 4 then
      s.modDrank sub rank (fun x => { x with postponed := x.postponed + 1 })
    else
      let s := s.modDrank sub rank (fun x => { x with postponed := 0 })
      rankCommand sub command 3 0 (s.over (List.range x.postponed) (fun s _ => s.emit (.dramCommand sub rank 3 0))))

/-- ACTIVATE_TABLE_CLEAR (R271): at the end of each refresh window every table is cleared. -/
def execActivateTableClear (s : State) : Res :=
  .next (s.modDram (fun x => { x with ranks := x.ranks.map (fun e => (e.1, { e.2 with activates := [] })) }))

/-- SELF_REFRESH_ENTRY (R270): a rank in service, a spare half in use included, has had no request for SelfRefreshIdle; 0 disables. -/
def execSelfRefreshEntry (sub : Fin 8) (command : RankCommand) (s : State) : Res :=
  .next (
    let rank := command.rank
    if s.get K.selfRefreshIdle = 0 ∨ s.rankServes sub rank = false ∨ (rank = 2 ∧ s.get (K.dramSpareHalfState sub) = 1) ∨ (s.dsub sub).held ≠ []
      ∨ (s.dsub sub).queue.any (fun r => s.rankFor sub r.da = rank) = true ∨ (s.drank sub rank).selfRefresh then s
    else rankCommand sub command 5 0 (s.modDrank sub rank (fun x => { x with selfRefresh := true })))

/-- Burst of the patrol after another: mapping segments, then the regions from the program shadows to the spare map, then the restore
workspace and the warden scratch, and round again (R260, R262). -/
def State.patrolNext (s : State) (b : Nat) : Nat :=
  let n := 64 * b + 64
  if n = 83886080 * s.mapSegments then 0x3C00000000 / 64
  else if n = 0x3C47000000 then 0x3C80000000 / 64
  else if n = 0x3DC0000000 then 0
  else b + 1

/-- PATROL_SCRUB (R262): the patrol reads the next burst of the allocated regions, in the background class: behind every request that waits on the
sub-channel (R263, R264). -/
def execPatrolScrub (burst : BurstRead) (s : State) : Res :=
  .next (
    let c := burstCheck burst
    let b := s.dram.patrol
    let a := 64 * b
    let sub := daSub a
    let k := s.rankFor sub a
    -- The controller serves only the Vigil sequencer in Vigil (R270), and holds no data before DRAM has trained.
    if s.mode = 5 ∨ s.dram.trained = false ∨ (s.dsub sub).queue ≠ [] ∨ (s.dsub sub).held ≠ [] ∨ s.dram.recoveries.contains a = true then s
    else if c = .commandParity then dramChecked sub k a c s
    else
      let s := issueDram sub { cls := 5, write := false, rmw := false, da := a, src := .plain } s
      let n := s.patrolNext b
      let s := s.modDram (fun x => { x with patrol := n })
      let s := s.when (n = 0) (fun s => s.inc K.patrolPasses)
      dramChecked sub k a c s)

/-- MR4_READ (R269): the readout of a rank sets its refresh interval; `doubled` is the 2× rate. -/
def execMr4Read (sub : Fin 8) (command : RankCommand) (doubled : Bool) (s : State) : Res :=
  .next (if s.rankServes sub command.rank then
    rankCommand sub command 7 4 (s.modDrank sub command.rank (fun x => { x with doubled := doubled })) else s)

/-- DQS_TRACKING (R278): the tracked change of write DQS of a rank since training, in steps of two's complement; a change that passes 8
steps raises DramDrift. -/
def execDqsTracking (sub : Fin 8) (command : RankCommand) (steps : BitVec 20) (s : State) : Res :=
  .next (
    let rank := command.rank
    let d := (s20 steps.toNat).natAbs
    if !s.rankServes sub rank then s
    else
      let old := (s.drank sub rank).drift
      -- MR46 and MR47 hold the count of the DQS oscillator (R257).
      let s := (rankCommand sub command 7 46 (s.modDrank sub rank (fun x => { x with drift := d }))).emit (.dramCommand sub rank 7 47)
      s.when (decide (8 < d) && decide (old ≤ 8)) (occur 1196 (rankArg sub rank + 32 * min d 255)))

/-- DRAM_ZQ_CALIBRATION (R336): ZQ calibration start and latch of a rank at a refresh. -/
def execDramZqCalibration (sub : Fin 8) (command : RankCommand) (s : State) : Res :=
  .next (if s.rankServes sub command.rank then rankCommand sub command 8 0 s else s)

/-! ## Copy to the spare half (R274) -/

/-- Active rank that a spare half is migrating in for. -/
def State.migratingRank (s : State) (sub : Nat) : Option Nat :=
  if s.get (K.dramSpareHalfState sub) = 2 then some (s.get (K.dramSpareReplaces sub)) else none

/-- The address of column col of bank-row m of a rank. -/
def bankRowDa (sub r m col : Nat) : Nat := daOf (m / 32) col (m % 4) r (m / 4 % 8) sub

/-- Bank-row m of a rank is read under one activate and written to the spare half under another (R265, R274). -/
def copyBankRow (sub r m : Nat) (s : State) : State :=
  let s := wakeRank sub 2 (wakeRank sub r s)
  let s := activate sub r (m / 4 % 8 + 8 * (m % 4)) (m / 32) s
  let s := activate sub 2 (m / 4 % 8 + 8 * (m % 4)) (m / 32) s
  s.over (List.range 128) (fun s col =>
    (s.emit (.dramCommand sub r 1 (bankRowDa sub r m col))).emit (.dramCommand sub 2 2 (bankRowDa sub r m col)))

/-- The retirement of a rank is recorded in code flash (R274). -/
def State.retirementSaved (s : State) (sub r : Nat) : Bool := decide (SMap.getD s.nv.saved (3 * sub + r) 0 = 1)

/-- Step 4 of R274: the rank is retired and the spare half in use. -/
def rankRetired (sub r : Nat) (s : State) : State :=
  occur 1194 (rankArg sub r) ((s.set (rankStateKey sub r) 3).set (K.dramSpareHalfState sub) 3)

/-- RANK_COPY (R274, R275): bank-row M is copied under one activate; `bursts` are the columns that were read with symbols in error, and these:
an uncorrectable burst is recovered, and what is recovered is written to the spare half; `parity` are those a read (false) or a write (true) of which
met a mismatch of command parity, which counts, and is issued again (R273). After the last bank-row the rank is retired, once its retirement is
recorded in code flash. -/
def execRankCopy (sub : Fin 8) (bursts : List (Fin 128 × List SymbolError)) (parity : List (Fin 128 × Bool)) (s : State) : Res :=
  .next (
    match s.migratingRank sub with
    | none => s
    | some r =>
      -- Vigil stops a migration (R386).
      if s.mode = 5 then s else
      let m := (s.dsub sub).copyRow
      -- Every bank-row is copied, and the record of the retirement is awaited.
      if m = 2097152 then s.when (s.retirementSaved sub r) (rankRetired sub r)
      else
      let s := copyBankRow sub r m s
      let s := s.over parity (fun s e =>
        let k := if e.2 then 2 else r
        (dramChecked sub k (bankRowDa sub r m e.1) .commandParity s).emit (.dramCommand sub k (if e.2 then 2 else 1) (bankRowDa sub r m e.1)))
      let s := s.over bursts (fun s b => dramChecked sub r (bankRowDa sub r m b.1) (burstCheck (.symbols b.2)) s)
      let s := s.modDsub sub (fun x => { x with copyRow := m + 1 })
      let s := s.set (K.dramMigrationProgress sub) ((m + 1) * 10000 / 2097152)
      -- Retirement is recorded in code flash before step 4 ends.
      let s := s.when (m = 0) (cfSave (.rank sub r))
      s.when (decide (m + 1 = 2097152) && s.retirementSaved sub r) (rankRetired sub r))

/-- The entry of a unit waits for the recovery of a burst that it lies in (R277). -/
def State.entryWaits (s : State) (set lui : Nat) : Bool :=
  if s.dram.recoveries = [] then false
  else match s.entryDa set (lui - lui % 8) with
    | some a => s.dram.recoveries.any (fun b => decide (a < b + 64) && decide (b < a + 40))
    | none => false

/-- The shadow entry a unit lies in is unreadable or under recovery: a READ of it waits for its program (R277). -/
def State.shadowWaits (s : State) (set lui : Nat) : Bool :=
  match locOf (s.entry set lui) with
  | .shadow j => s.dram.badShadows.contains j ||
      s.dram.recoveries.any (fun b => decide (shadowDa j < b + 64) && decide (b < shadowDa j + 16640))
  | _ => false

/-! ## Retirement by command and margining (R272, R279, R280) -/

/-- The effect of a write to RetireRank. -/
def retireRankEffect (sub r : Nat) (s : State) : State := retire sub r 4 s

/-- A write of 1 to HelperStart is in range (R280). -/
def State.helperStartOk (s : State) : Bool :=
  let sub := s.get K.helperSubchannel
  let r := s.get K.helperRank
  s.dram.helper.isNone && s.serving && decide (s.get (K.dramSpareHalfState sub) ≠ 2) && s.rankServes sub r
    && (decide (s.get K.helperDramVref = 0xFFFFF) || (decide (r = 2) && decide (s.get (K.dramSpareHalfState sub) = 1)))

/-- A helper run starts (R279); one that names HelperDramVref, on a ready spare half, sets it for its duration. -/
def helperStartEffect (s : State) : State :=
  let sub := s.get K.helperSubchannel
  let code := s.get K.helperDramVref
  let s := s.when (code ≠ 0xFFFFF) (fun s => s.modDram (fun x => { x with helperVref := (List.range 10).map (fun j =>
    SMap.getD (s.drank sub 2).modeRegs (1024 + j) .resetValue) }))
  let s := s.when (code ≠ 0xFFFFF) (setVrefDq sub (fun _ => .code code))
  ((s.set K.helperState 1).set K.helperBurstsDone 0).modDram (fun x => { x with helper := some (sub, s.get K.helperRank) })

/-- DRAM address of burst i of a helper run: ascending through the margin-window bank-rows of the rank, rows 65,472 on (R260, R279). The spare half has
no address of its own: its bursts are named as those of rank 0 (DESIGN CHOICE, log entry 184). -/
def helperDa (sub r i : Nat) : Nat := daOf (65472 + i / 4096) (i / 32 % 128) (i / 8 % 4) (if r = 2 then 0 else r) (i % 8) sub

/-- Mismatched bits of a lane over the bursts of a run, saturating (R279, R281). -/
def laneErrors (l : List HelperMiss) (lane : Nat) : Word :=
  BitVec.ofNat 20 (min 0xFFFFF ((l.map (fun m => ((List.range 16).filter (fun t => m.bits.getLsbD (16 * lane + t))).length)).sum))

/-- HELPER_RUN_END (R279): the run has written its bursts and read them back with the offsets of the helper objects; it ends with the mismatched bits of
each lane and the first mismatched burst, counted from the bursts that came back with bits wrong. -/
def execHelperRunEnd (first : Option HelperMiss) (rest : List HelperMiss) (s : State) : Res :=
  .next (match s.dram.helper with
    | none => s
    | some (sub, r) =>
      let n := s.get K.helperBursts
      let l := (first.toList ++ rest).filter (fun m => decide (m.burst < n) && decide (m.bits ≠ 0))
      let low := match l.map (fun m => m.burst) with | [] => none | a :: t => some (t.foldl min a)
      let run := fun (write : Bool) (delay vref : Int) =>
        Out.helperBursts sub r write (s.get K.helperPattern) (s.get K.helperFixed) delay vref n
      let s := s.emit (run true (s20 (s.get K.helperWriteDelay)) 0)
      let s := s.emit (run false (s20 (s.get K.helperReadDelay)) (s20 (s.get K.helperReadVref)))
      let s := (restoreVrefDq sub s).setBlob K.helperLaneErrors ((List.range 40).map (laneErrors l))
      let s := (s.set K.helperFirstFail ((low.map (helperDa sub r)).getD 0xFFFFFFFFFF)).set K.helperBurstsDone n
      (s.set K.helperState 2).modDram (fun x => { x with helper := none }))

end Sys2Proof.Machine
end

