-- ==== Sys2Proof/Machine/Rings.lean ====
section
/-! DEFINITION. Rings.lean: the ring engine: doorbells, the pick, descriptor fetch and its checks, completions, and the
opcodes that need no other unit (Rings, Descriptors and Ordering). -/

namespace Sys2Proof.Machine

/-! ## Fetched operations -/

/-- The fetched operation of a ring at a slot, the oldest that has not ended: one fetched later from the same slot waits for it (log
entry 131). -/
def State.op (s : State) (ring slot : Nat) : Option Op :=
  s.rings.ops.find? (fun o => o.ring = ring ∧ o.slot = slot ∧ o.phase ≠ .ended)

/-- Changes a fetched operation. -/
def State.modOp (s : State) (ring slot : Nat) (f : Op → Op) : State :=
  match s.op ring slot with
  | some o => { s with rings := { s.rings with ops := mapIf (fun x => x.seq = o.seq) f s.rings.ops } }
  | none => s

/-- Changes the operation of a fetch number. -/
def State.modSeq (s : State) (seq : Nat) (f : Op → Op) : State :=
  { s with rings := { s.rings with ops := mapIf (fun x => x.seq = seq) f s.rings.ops } }

/-- Removes a fetched operation, by its fetch number. -/
def State.dropOp (s : State) (seq : Nat) : State :=
  { s with rings := { s.rings with ops := s.rings.ops.filter (fun o => o.seq ≠ seq) } }

/-- Slots of a submission ring. -/
abbrev State.ringSize (s : State) (n : Nat) : Nat := 2 ^ s.get (K.ringSizeLog2 n)

/-- Priority class of a ring (R73). -/
abbrev State.classOf (s : State) (ring : Nat) : Nat := s.get (K.ringPriority ring)

/-- Priority class of the operation of a ring at a slot (R52, R112). -/
def State.opClass (s : State) (ring slot : Nat) : Nat := match s.op ring slot with | some o => o.cls | none => s.classOf ring

/-- Fields of a placement (R71). -/
abbrev plKind (v : Nat) : Nat := v / 2 ^ 38
abbrev plSet (v : Nat) : Nat := v / 2 ^ 35 % 8
abbrev plCh (v : Nat) : Nat := v / 2 ^ 28 % 128
abbrev plDie (v : Nat) : Nat := v / 2 ^ 24 % 16

/-- A placement value is in range (R71). -/
def State.placementOk (s : State) (v : Nat) : Bool :=
  match plKind v with
  | 0 => plSet v = 0 ∧ plCh v = 0 ∧ plDie v = 0
  | 1 => s.get (K.setState (plSet v)) ≠ 0 ∧ plCh v = 0 ∧ plDie v = 0
  | 2 => plSet v = 0 ∧ plCh v ≤ 95 ∧ s.fitted (plCh v) (plDie v)
  | _ => false

/-- A placement is withdrawn (Migration): its die is retired or lost, its channel isolated or removed, its set dissolved. -/
def State.placementWithdrawn (s : State) (v : Nat) : Bool :=
  match plKind v with
  | 1 => s.get (K.setState (plSet v)) = 0
  | 2 => 3 ≤ s.get (K.chDieState (plCh v) (plDie v)) ∨ 3 ≤ s.get (K.chState (plCh v))
  | _ => false

/-- Full requested length of a descriptor (R92). -/
def State.fullLength (_ : State) (d : Descriptor) : Nat :=
  let d3 := descDuo d 3
  let frames := ((List.range 4).filter (fun f => d3.testBit f)).length
  match descOpcode d with
  | 0x01 => descCount d * 4096
  | 0x02 => descCount d * 4096
  | 0x03 => descCount d * 4096
  | 0x10 => frames * (if d3.testBit 5 then 4160 else 4576) + (if d3.testBit 4 then 128 else 0)
  | 0x11 => if d3.testBit 5 then 16768 else 18432
  | 0x12 => frames * 2048 * 18432
  | _ => 0

/-! ## Completions -/

/-- Posts the completion of an operation into its reserved slot: the operation is over (R86). -/
def postReserved (ring seq : Nat) (c : Completion) (s : State) : State :=
  let m := s.get (K.ringCompletionRing ring)
  let s := (s.dropOp seq).sub (K.cringReserved m) 1
  let s := s.sub (K.ringInFlight ring) 1
  postEntry m c s

/-- Nothing keeps a completion from being posted any longer: no snapshot, no PostDelay, no data write of it unsent (R88, R432, R487). -/
def State.postDue (s : State) (h : HeldPost) : Bool :=
  !(h.snap && s.rings.snapHold) && decide (h.due ≤ s.now) && !s.writesUnsent h.op

/-- Posts the held completions that are due, in the order in which their operations ended. -/
def postHeld (s : State) : State :=
  s.over (s.rings.heldPosts.filter s.postDue) (fun s h =>
    postReserved h.ring h.op h.completion (s.modRings (fun r => { r with heldPosts := r.heldPosts.filter (fun x => x.op ≠ h.op) })))

/-- Pepper delays posts of this ring now (R487). -/
def State.postDelayed (s : State) (ring : Nat) : Bool :=
  s.flag K.pepperEnable && 0 < s.get K.postDelay && (s.get K.ringSelect = ring || (s.get K.ringSelect = 0xFFFFF && ring < 8160))

/-- Ends an operation: builds its completion (R84, R89) and posts it, or holds it until it may be posted: while a snapshot holds WRITEs
and TRIMs, for PostDelay, and until its data writes are sent (R88, R432, R487). -/
def finishOp (o : Op) (status moved detail : Nat) (s : State) : State :=
  let c := completionBits 0 o.epoch o.ring o.slot (descCommandId o.desc) status o.ladder o.degraded o.unmapped o.staged moved detail
  let h : HeldPost :=
    { op := o.seq, ring := o.ring, completion := c, snap := decide (descOpcode o.desc = 2 ∨ descOpcode o.desc = 3),
      due := s.now + (if s.postDelayed o.ring then s.get K.postDelay else 0) }
  if s.postDue h then postReserved o.ring o.seq c s
  else s.modRings (fun r =>
    { r with ops := mapIf (fun x => x.seq = o.seq) (fun x => { x with phase := .ended }) r.ops, heldPosts := r.heldPosts ++ [h] })

/-- Completes a descriptor that is not acted upon (R93): DONE, MovedLength 0, every flag 0; a refused READ or RAW_READ whose
address and count allow it writes zeros over its host buffer. -/
def refuseOp (o : Op) (s : State) : State :=
  let d := o.desc
  let zeros := descHost d % 64 = 0 ∧ (descOpcode d = 0x10 ∨ (descOpcode d = 0x01 ∧ 1 ≤ descCount d ∧ descCount d ≤ 1024))
  let s := s.when zeros (hostWrite o.seq o.cls false (descHost d) (s.fullLength d) 0)
  finishOp { o with ladder := 0, degraded := false, unmapped := false, staged := false } 0 0 0 s

/-- A RAW_PROGRAM or RAW_ERASE may act on the die (R81). -/
def State.rawAllowed (s : State) (c d : Nat) : Bool :=
  s.get (K.chState c) = 3 || s.get (K.chState c) = 4 || s.get (K.chDieState c d) = 3 || s.get (K.chDieState c d) = 4

/-- A range of logical blocks lies in the logical space of a set (R177). -/
def State.lbaOk (s : State) (set lba count : Nat) : Bool :=
  1 ≤ count ∧ count ≤ 1024 ∧ lba + count ≤ 4 * s.get (K.setLogicalUnits set)

/-- The checks of R93 against a placement: the descriptor is acted upon. A RAW_ERASE whose PMA has a Page that is not zero is refused with them:
R80 says only that the field must be zero (DESIGN CHOICE, log entry 140). -/
def State.descOk (s : State) (pl : Nat) (d : Descriptor) : Bool :=
  let pma := descDuo d 2
  let raw := plKind pl = 2 ∧ pmaCh pma = plCh pl ∧ pmaDie pma = plDie pl ∧ s.pmaOutside pma = false
  match descOpcode d with
  | 0x00 => true
  | 0x01 => plKind pl = 1 ∧ s.lbaOk (plSet pl) (descLba d) (descCount d) ∧ descHost d % 64 = 0
  | 0x02 => plKind pl = 1 ∧ s.lbaOk (plSet pl) (descLba d) (descCount d) ∧ descHost d % 64 = 0
  | 0x03 => plKind pl = 1 ∧ s.lbaOk (plSet pl) (descLba d) (descCount d)
  | 0x04 => plKind pl = 1
  | 0x10 => raw ∧ descHost d % 64 = 0
  | 0x11 => raw ∧ descHost d % 64 = 0 ∧ s.rawAllowed (plCh pl) (plDie pl)
  | 0x12 => raw ∧ pmaPage pma = 0 ∧ s.rawAllowed (plCh pl) (plDie pl)
  | 0x20 => true
  | 0x21 => s.placementOk (pma / 2 ^ 24 * 2 ^ 24)
  | 0x22 =>
    (match pma / 2 ^ 38 with
    | 0 => pma % 8192 < 8160
    | 1 => pma % 128 < 96
    | _ => true)
  | _ => false

/-- A ring that has no placement refuses every descriptor but a MIGRATE, which gives it one (R105, log entry 14). -/
def State.acts (s : State) (o : Op) : Bool :=
  s.descOk (s.get (K.ringPlacement o.ring)) o.desc
    && (SMap.getD s.rings.noPlace o.ring false = false || descOpcode o.desc = 0x21)

/-! ## What has been issued (R104) -/

/-- Page reads of an operation. -/
def State.readsOf (s : State) (ring slot : Nat) : List (Nat × PageRead) :=
  s.fl.reads.filter (fun e => match e.2.owner with
    | .op r k _ => decide (r = ring) && decide (k = slot)
    | .merge r k _ => decide (r = ring) && decide (k = slot)
    | .rescue _ => false)

/-- A program or erase of a raw operation is what the job carries. -/
def rawJobOf (ring slot : Nat) : DieJob → Bool
  | .rawProg r k _ _ => decide (r = ring) && decide (k = slot)
  | .erase e => decide (e.raw = some (ring, slot))
  | _ => false

/-- A raw program or erase of the operation has started on its die. -/
def State.rawStarted (s : State) (ring slot : Nat) : Bool :=
  s.fl.dies.any (fun e => match e.2.cur with | some j => rawJobOf ring slot j | none => false)

/-- The operation counts as issued (R104): an ABORT, which acts at its fetch, at once; a READ once a die read of it has started or a block has been
delivered; others once their row has handed them to their unit and that has begun. -/
def State.hasBegun (s : State) (o : Op) : Bool :=
  match o.phase with
  | .ready => descOpcode o.desc = 0x22
  | .issued =>
    if descOpcode o.desc = 0x01 ∨ descOpcode o.desc = 0x10 then o.begun || decide (o.sentParts ≠ [])
    else if descOpcode o.desc = 0x11 ∨ descOpcode o.desc = 0x12 then s.rawStarted o.ring o.slot
    else true
  | .ended => true
  | _ => false

/-! ## The pick (R73) -/

/-- A Barrier descriptor of the ring is not yet issued, a FENCE has no completion yet, or a migration or abort runs (R73, R97, R101). -/
def State.ringHeld (s : State) (n : Nat) : Bool :=
  s.rings.ops.any (fun o => o.ring = n && ((descBarrier o.desc && !s.hasBegun o) || descOpcode o.desc = 0x20)) || s.get (K.ringState n) ≠ 1

/-- Descriptors are fetched in this mode (R32, R96). -/
def State.fetches (s : State) : Bool := s.serving && !s.rings.stopped

/-- The ring satisfies the three conditions of R73. -/
def State.eligible (s : State) (n : Nat) : Bool :=
  s.get (K.ringHead n) ≠ s.get (K.ringTail n) && 0 < s.cringFree (s.get (K.ringCompletionRing n)) && !s.ringHeld n

/-- Host rings that are enabled. -/
def State.enabledRings (s : State) : List Nat :=
  s.objs.filterMap (fun e =>
    if 0xA00000 ≤ e.1 ∧ e.1 < 0xBFE000 ∧ e.1 % 256 = 1 ∧ e.2 = 1 then some (e.1 / 256 - 0xA000) else none)

/-- The first of a list above the last one served, else the first (round robin). -/
def nextAfter (last : Nat) (l : List Nat) : Option Nat :=
  match l.find? (fun n => last < n) with
  | some n => some n
  | none => l.head?

/-- The ring picked, with the engine's state after the pick (R73). -/
def pickRing (s : State) : Option (Nat × State) :=
  let el := s.enabledRings.filter s.eligible
  let ofClass := fun c => el.filter (fun n => s.classOf n = c)
  let last := fun c => SMap.getD s.rings.lastPick c 8192
  let upd := fun (c n def_ since : Nat) =>
    { s with rings := { s.rings with lastPick := SMap.insert s.rings.lastPick c n,
                                     deficit := SMap.insert s.rings.deficit c def_, sinceBackground := since } }
  let bg := ofClass 3
  let since := if bg = [] then 0 else s.rings.sinceBackground + 1
  if 64 ≤ since then (nextAfter (last 3) bg).map (fun n => (n, upd 3 n 0 0))
  else
    match nextAfter (last 0) (ofClass 0) with
    | some n => some (n, upd 0 n 0 since)
    | none =>
      let mid := el.filter (fun n => s.classOf n = 1 ∨ s.classOf n = 2)
      let l := last 1
      if l ∈ mid ∧ 0 < SMap.getD s.rings.deficit 1 0 then some (l, upd 1 l (SMap.getD s.rings.deficit 1 0 - 1) since)
      else
        match nextAfter l mid with
        | some n =>
          let quantum := (if s.classOf n = 1 then 4 else 1) * s.get (K.ringWeight n)
          some (n, upd 1 n (quantum - 1) since)
        | none => (nextAfter (last 3) bg).map (fun n => (n, upd 3 n 0 0))

/-- Pepper refuses a share of the picks of the selected rings (R487). -/
def pickRefused (n : Nat) (s : State) : Bool × State :=
  if s.flag K.pepperEnable ∧ 0 < s.get K.fetchRefuse ∧ (s.get K.ringSelect = n ∨ s.get K.ringSelect = 0xFFFFF) then
    (decide (Config.pepperDraw (s.get K.pepperSeed) s.rings.pepperDraws % 100 < s.get K.fetchRefuse),
     { s with rings := { s.rings with pepperDraws := s.rings.pepperDraws + 1 } })
  else (false, s)

/-- Fetches the descriptor at a ring's Head, reserves a completion slot and checks it (R95 step 2). An ABORT is acted upon at
once whatever holds earlier descriptors (R97); a Barrier waits for them; a FLUSH notes the WRITEs acknowledged before it (R82). -/
def fetchFrom (n : Nat) (s : State) : State :=
  let head := s.get (K.ringHead n)
  let d := SMap.getD s.rings.subPool (s.get (K.ringBase n) + head) 0
  let earlier := s.rings.ops.any (fun o => o.ring = n)
  let barrier := descBarrier d && earlier && descOpcode d ≠ 0x22
  let m := s.get (K.ringCompletionRing n)
  let awaits := if descOpcode d = 4 then s.wr.unsettled.map (fun u => u.1) else []
  let o : Op :=
    { ring := n, slot := head, epoch := s.get (K.ringEpoch n), desc := d, phase := if barrier then .barrier else .ready,
      seq := s.rings.nextSeq, cls := s.classOf n, awaits := awaits }
  let s := s.set (K.ringHead n) ((head + 1) % s.ringSize n)
  let s := (s.inc (K.cringReserved m)).inc (K.ringInFlight n)
  let s := { s with rings := { s.rings with ops := s.rings.ops ++ [o], nextSeq := s.rings.nextSeq + 1 } }
  if !barrier && !s.acts o then refuseOp o s else s

/-- DESCRIPTOR_FETCH (R95): picks an eligible ring and fetches; nothing is fetched outside the modes of R32. -/
def execDescriptorFetch (s : State) : Res :=
  .next (if !s.fetches then s
    else match pickRing s with
      | none => s
      | some (n, s) =>
        let (no, s) := pickRefused n s
        if no then s else fetchFrom n s)

/-- BARRIER_RELEASE (R97): every earlier descriptor of the ring has completed, and the Barrier descriptor is issued. -/
def execBarrierRelease (ring : Fin 8192) (slot : Fin 65536) (s : State) : Res :=
  .next (match s.op ring slot with
    | some o =>
      if o.phase = .barrier ∧ (s.rings.ops.any (fun e => e.ring = o.ring && decide (e.seq < o.seq))) = false then
        let s := s.modOp ring slot (fun o => { o with phase := .ready })
        if s.acts o then s else refuseOp o s
      else s
    | none => s)

/-- Step 4 of a migration re-issues in slot order, and later descriptors follow: an earlier operation of the ring that it re-issued has not been handed on
yet. An ABORT, which acts at its fetch, waits for none (R97, R103). -/
def State.reissueBehind (s : State) (o : Op) : Bool :=
  descOpcode o.desc ≠ 0x22 && s.rings.ops.any (fun e => decide (e.ring = o.ring) && decide (e.seq < o.seq) && e.again && decide (e.phase = .ready))

/-- The operation at a slot if it carries an opcode and is ready for its unit. -/
def State.readyOp (s : State) (ring slot opcode : Nat) : Option Op :=
  match s.op ring slot with
  | some o => if o.phase = .ready ∧ descOpcode o.desc = opcode ∧ s.reissueBehind o = false then some o else none
  | none => none

/-- NOP (R80): completes DONE with nothing done. -/
def execNop (ring : Fin 8192) (slot : Fin 65536) (s : State) : Res :=
  .next (match s.readyOp ring slot 0x00 with
    | some o => finishOp o 0 0 0 s
    | none => s)

/-! ## FENCE and visibility (R99 to R101) -/

/-- The bytes of one store become visible (R99). -/
def showStore (m : SMap Byte) (l : List (Nat × Byte)) : SMap Byte := l.foldl (fun m e => SMap.put 0 m e.1 e.2) m

/-- Makes every host store delivered so far visible to the wardens, oldest first (R99, R101). -/
def drainStores (s : State) : State :=
  let bytes := s.win.pendingStores.foldl showStore s.win.bytes
  { s with win := { bytes := bytes, pendingStores := [] } }

/-- FENCE (R101): from its fetch it holds its ring; it is now acting. -/
def execFence (ring : Fin 8192) (slot : Fin 65536) (s : State) : Res :=
  .next (match s.readyOp ring slot 0x20 with
    | some _ => s.modOp ring slot (fun o => { o with phase := .issued })
    | none => s)

/-- FENCE_COMPLETE (R101): every earlier descriptor of the ring has posted its completion; earlier host stores become visible
and the FENCE completes. -/
def execFenceComplete (ring : Fin 8192) (slot : Fin 65536) (s : State) : Res :=
  .next (match s.op ring slot with
    | some o =>
      if descOpcode o.desc = 0x20 ∧ o.phase = .issued
          ∧ (s.rings.ops.any (fun e => e.ring = o.ring && decide (e.seq < o.seq))) = false then
        finishOp o 0 0 0 (drainStores s)
      else s
    | none => s)

/-! ## FLUSH (R82) -/

/-- FLUSH: pending on its set from now, whose open rows the write path closes early (R128). -/
def execFlush (ring : Fin 8192) (slot : Fin 65536) (s : State) : Res :=
  .next (match s.readyOp ring slot 0x04 with
    | some o =>
      let s := s.modOp ring slot (fun o => { o with phase := .issued })
      s.modSet (plSet (s.get (K.ringPlacement o.ring))) (fun t => { t with flushes := t.flushes ++ [(o.ring, o.slot)] })
    | none => s)

/-! ## Doorbells (R76, R77) -/

/-- Unfetched descriptors that a tail would give a ring. -/
def State.unfetched (s : State) (n tail : Nat) : Nat := (tail + s.ringSize n - s.get (K.ringHead n)) % s.ringSize n

/-- A submission doorbell value that R77 accepts. -/
def State.subDoorbellOk (s : State) (n v : Nat) : Bool :=
  decide (n < 8160) && s.flag (K.ringEnable n) && decide (v < s.ringSize n)
    && decide (s.unfetched n (s.get (K.ringTail n)) ≤ s.unfetched n v)

/-- A completion head doorbell value that R77 accepts: it frees only posted slots. -/
def State.headDoorbellOk (s : State) (m v : Nat) : Bool :=
  let size := s.cringSize m
  decide (m < 4080) && s.flag (K.cringEnable m) && decide (v < size)
    && decide ((v + size - s.get (K.cringHead m)) % size ≤ (s.get (K.cringTail m) + size - s.get (K.cringHead m)) % size)

/-- Acts on a submission doorbell. -/
def actSubDoorbell (n v : Nat) (s : State) : State := s.when (s.subDoorbellOk n v) (fun s => s.set (K.ringTail n) v)

/-- Reserves the slot that a waiting migration-done completion needs, now that one is free (R103). -/
def reserveForMigrations (m : Nat) (s : State) : State :=
  s.over s.rings.migrations (fun s g =>
    if !g.reserved ∧ s.get (K.ringCompletionRing g.ring) = m ∧ 0 < s.cringFree m then
      let s := s.inc (K.cringReserved m)
      { s with rings := { s.rings with
          migrations := mapIf (fun e => e.ring = g.ring) (fun e => { e with reserved := true }) s.rings.migrations } }
    else s)

/-- Acts on a completion head doorbell. -/
def actHeadDoorbell (m v : Nat) (s : State) : State :=
  s.when (s.headDoorbellOk m v) (fun s => reserveForMigrations m (s.set (K.cringHead m) v))

/-- A doorbell: acted upon while descriptors are fetched, held in Bringup and while a board reset has stopped fetching (R32, R77, R434); as
arriving work it cancels a power request (R358). In Cold and in Vigil it does no more (DESIGN CHOICE, log entry 159). -/
def doorbell (head : Bool) (n v : Nat) (s : State) : State :=
  let s := { s with pw := { s.pw with request := none } }
  if s.fetches then (if head then actHeadDoorbell n v s else actSubDoorbell n v s)
  else if s.mode = 1 ∨ s.serving then { s with rings := { s.rings with held := s.rings.held ++ [(head, n, v)] } }
  else s

/-- SUBMISSION_DOORBELL (R77). -/
def execSubmissionDoorbell (ring : Fin 8192) (v : Word) (s : State) : Res := .next (doorbell false ring v.toNat s)

/-- COMPLETION_HEAD_DOORBELL (R77). -/
def execCompletionHeadDoorbell (ring : Fin 4096) (v : Word) (s : State) : Res := .next (doorbell true ring v.toNat s)

/-- Acts on the doorbells held while no descriptors were fetched, in order (R32): each is checked under R77 as it is acted upon, not as it was written (DESIGN
CHOICE, log entry 173). -/
def releaseDoorbells (s : State) : State :=
  let held := s.rings.held
  { s with rings := { s.rings with held := [] } }.over held
    (fun s e => if e.1 then actHeadDoorbell e.2.1 e.2.2 s else actSubDoorbell e.2.1 e.2.2 s)

/-- NOTIFY_DELAY (R87): the oldest completion without a notice has waited NotifyDelay, and a notice is sent. -/
def execNotifyDelay (ring : Fin 4096) (s : State) : Res :=
  .next (if (SMap.find? s.rings.unnoticed ring).isSome ∧ s.flag (K.cringNotifyEnable ring) then sendNotice ring s else s)

/-! ## Event completions (R475, R476) and loss notices (R190) -/

/-- EVENT_COMPLETION_POST (R475): the oldest queued event completion of a ring is posted in a free slot. -/
def execEventCompletionPost (ring : Fin 4096) (s : State) : Res :=
  .next (match s.ev.queue.find? (fun e => decide (e.1 = ring.val)) with
    | some (_, n, arg) =>
      if s.flag (K.cringEnable ring) ∧ 0 < s.cringFree ring ∧ s.mode ≠ 5 then
        let c := completionBits 2 0 0 0 0 0 0 false false false 0 (eventDetail n (SMap.getD s.ev.coalesced n 0) arg)
        let s := { s with ev := { s.ev with queue := s.ev.queue.filter (fun e => e.2.1 ≠ n), coalesced := SMap.erase s.ev.coalesced n } }
        postEntry ring c (s.set (K.evPending n) 0)
      else s
    | none => s)

end Sys2Proof.Machine
end

