-- ==== Sys2Proof/Machine/Layout.lean ====
section
/-! DEFINITION. Layout.lean: where the pages of a stripe lie (R126, R173 to R178), the mapping table, its cache and its
transitions (R122, R123, R145, R146), and the journal (R124, R125). -/

namespace Sys2Proof.Machine

/-! ## Layout of rows (R174 to R176) -/

/-- The record of a generation of a set. -/
def State.genRec (s : State) (set gen : Nat) : Option GenRec := (s.sset set).gens.find? (fun g => g.num = gen)

/-- The current generation's record. -/
def State.curGen (s : State) (set : Nat) : Option GenRec := s.genRec set (s.get (K.setGeneration set))

/-- Positions present at a die number under a generation (R174). -/
def GenRec.present (g : GenRec) (d : Nat) : List Nat :=
  (List.range g.width).filter (fun p => !(nth g.absent p 0).testBit d && decide (nth g.channels p 127 < 96))

/-- P and Q positions of a row (R175). -/
def GenRec.parity (g : GenRec) (d b w : Nat) : Nat × Nat :=
  let a := g.present d
  let n := a.length
  if n = 0 then (64, 64) else let k := (d + b + w) % n; (nth a k 64, nth a ((k + 1) % n) 64)

/-- Data positions of a row in ascending order, absent ones included, which carry known zeros (R175). -/
def GenRec.dataPositions (g : GenRec) (d b w : Nat) : List Nat :=
  let (p, q) := g.parity d b w
  (List.range g.width).filter (fun x => x ≠ p ∧ x ≠ q)

/-- Data positions that are present: the data members that are programmed. -/
def GenRec.dataPresent (g : GenRec) (d b w : Nat) : List Nat :=
  let (p, q) := g.parity d b w
  (g.present d).filter (fun x => x ≠ p ∧ x ≠ q)

/-- Data index of a data position (R175). -/
def GenRec.dataIndex (g : GenRec) (d b w pos : Nat) : Nat :=
  ((g.dataPositions d b w).filter (fun x => decide (x < pos))).length

/-- The die-block that holds a member's share of a row block: the row block's own, or its substitute (R178). -/
def State.memberBlock (s : State) (c d b : Nat) : Nat :=
  match SMap.find? s.wr.spareMap (32768 * c + 2048 * d + b) with
  | some x => x % 2048
  | none => b

/-- PMA of unit t of a member program at a word line of a die-block (R20, R127, R381). -/
def State.memberPma (s : State) (c d k w t : Nat) : Nat :=
  let block := if s.density = 2 then 2 * k + w / 512 else k
  pmaOf (s.get K.deviceNumber) c d (t / 4) block (4 * (w % 512) + t % 4)

/-- A Harvest record as it stands: a die-block that nothing has changed is a spare, erased, or outside every set, by its
place (R177, R238). -/
def State.hrec (s : State) (i : Nat) : HRec :=
  match SMap.find? s.fl.harvest i with
  | some h => h
  | none =>
    let set := s.get (K.chStripeSet (i / 32768))
    let spare := s.get (K.setSetSpareReserve set)
    { erases := 0, state := if 7 < set then 8 else if 2048 - spare ≤ i % 2048 then 5 else 0, refresh := false, failed := false }

def State.modHrec (s : State) (i : Nat) (f : HRec → HRec) : State :=
  { s with fl := { s.fl with harvest := SMap.insert s.fl.harvest i (f (s.hrec i)) } }

/-- A member can serve row block b at die d: its die-block is erased, or it has a substitute that is durable (R178). -/
def State.blockErased (s : State) (c d b : Nat) : Bool :=
  let i := 32768 * c + 2048 * d + b
  match SMap.find? s.wr.spareMap i with
  | some x => (s.hrec x).state = 6 && SMap.find? s.nv.spareMap i = some x
  | none => (s.hrec i).state = 0

/-- A free spare of a die, lowest first (R178). -/
def State.freeSpare (s : State) (c d spare : Nat) : Option Nat :=
  ((List.range spare).map (fun j => 2048 - spare + j)).find? (fun b => (s.hrec (32768 * c + 2048 * d + b)).state = 5)

/-- The rows of a set lost for reads or for writes at a position: its channel is out of service, or its die retired or lost (R167). -/
def State.memberLost (s : State) (c d : Nat) : Bool :=
  95 < c || s.get (K.chState c) = 3 || s.get (K.chState c) = 4 || 3 ≤ s.get (K.chDieState c d)

/-- The row block of a set at a die and block number. -/
def State.rowBlock (s : State) (set d b : Nat) : Option RowBlock :=
  s.wr.rowBlocks.find? (fun r => r.set = set ∧ r.die = d ∧ r.block = b)

def State.modRowBlock (s : State) (set d b : Nat) (f : RowBlock → RowBlock) : State :=
  { s with wr := { s.wr with rowBlocks := mapIf (fun r => r.set = set ∧ r.die = d ∧ r.block = b) f s.wr.rowBlocks } }

/-- The row block in which a page of a member lies: its set, its generation record, die, row block and word line. -/
def State.rowOfPma (s : State) (pma : Nat) : Option (RowBlock × GenRec × Nat × Nat) :=
  let c := pmaCh pma
  let d := pmaDie pma
  let k := if s.density = 2 then pmaBlock pma / 2 else pmaBlock pma
  let w := pmaPage pma / 4 + (if s.density = 2 then pmaBlock pma % 2 * 512 else 0)
  -- A substitute serves the row block it was given to (R178).
  let b := match List.find? (fun e : Nat × Nat => e.2 = 32768 * c + 2048 * d + k) s.wr.spareMap with
    | some e => e.1 % 2048
    | none => k
  (s.wr.rowBlocks.find? (fun r => r.die = d ∧ r.block = b ∧
      (match s.genRec r.set r.gen with | some g => g.channels.contains c | none => false) = true)).bind
    (fun r => (s.genRec r.set r.gen).map (fun g => (r, g, w, (g.channels.findIdx (fun x => x = c)))))

/-- Member channels of a set at a die number. -/
def GenRec.channelsAt (g : GenRec) (d : Nat) : List Nat := (g.present d).map (fun p => nth g.channels p 127)

/-! ## Protection (R181) -/

/-- A position of a row block is lost: its channel is out of service, or its die lost or retired (R181, R197; log entry 67). -/
def State.positionLost (s : State) (rb : RowBlock) (g : GenRec) (pos : Nat) : Bool := s.memberLost (nth g.channels pos 127) rb.die

/-- Lost positions of a row block. -/
def State.lostOf (s : State) (rb : RowBlock) (g : GenRec) : List Nat := (g.present rb.die).filter (s.positionLost rb g)

/-- A row block holds a live row: units on it are live, or a row of it is still being written. -/
def State.liveBlock (s : State) (rb : RowBlock) : Bool :=
  (match s.genRec rb.set rb.gen with
   | some g => (g.channelsAt rb.die).any (fun c =>
       SMap.getD s.fl.valid (32768 * c + 2048 * rb.die + s.memberBlock c rb.die rb.block) 0 ≠ 0)
   | none => false)
    || (s.sset rb.set).rows.any (fun r => decide (r.die = rb.die) && decide (r.block = rb.block))

/-- Live row blocks of a set with their generation records. -/
def State.liveBlocks (s : State) (set : Nat) : List (RowBlock × GenRec) :=
  (s.wr.rowBlocks.filter (fun r => r.set = set && s.liveBlock r)).filterMap (fun r => (s.genRec set r.gen).map (fun g => (r, g)))

/-- Generation records of a set that are in use: its current one, and those of generations with a live row (R176). -/
def State.gensInUse (s : State) (set : Nat) : List GenRec :=
  (s.sset set).gens.filter (fun g => decide (g.num = s.get (K.setGeneration set))
    || s.wr.rowBlocks.any (fun r => decide (r.set = set) && decide (r.gen = g.num) && s.liveBlock r))

/-- Frees the generation records of which no live row remains (R176): their durable copies once the journal that says so is durable, or no row block is
left; the buffer knows a layout until the last of its row blocks is erased (log entry 171). -/
def freeGens (set : Nat) (s : State) : State :=
  let used := (s.gensInUse set).map (fun g => g.num)
  let blocks := fun (g : GenRec) => s.wr.rowBlocks.any (fun r => decide (r.set = set) && decide (r.gen = g.num))
  let settled := decide (s.get K.journalDurable = s.get K.journalSequence)
  let s := s.modSet set (fun t => { t with gens := t.gens.filter (fun g => used.contains g.num || blocks g) })
  let kept := (SMap.getD s.nv.gens set []).filter (fun g => used.contains g.num || (blocks g && !settled))
  { s with nv := { s.nv with gens := SMap.insert s.nv.gens set kept } }

/-- Highest number of lost positions in any live row, and those positions. -/
def State.worstLoss (s : State) (set : Nat) : List Nat :=
  (s.liveBlocks set).foldl (fun a e => let l := s.lostOf e.1 e.2; if a.length < l.length then l else a) []

/-- Raises SetChange for a set (R479). -/
def setNoted (set : Nat) (s : State) : State :=
  occur (1208 + set) (s.get (K.setState set) + 8 * s.get (K.setProtection set) + 32 * s.get (K.setWriteStalled set)) s

/-- Raises SetChange for a set (R479), and derives the mode anew (R340). -/
def setChanged (set : Nat) (s : State) : State := deriveMode (setNoted set s)

/-- Recomputes Protection, with SetChange at a change (R181, R479). -/
def noteProtection (set : Nat) (s : State) : State :=
  let p := min 3 (s.worstLoss set).length
  if s.get (K.setProtection set) = p then s else setNoted set (s.set (K.setProtection set) p)

/-- Recomputes Protection, and derives the mode anew (R181, R340). -/
def updateProtection (set : Nat) (s : State) : State := deriveMode (noteProtection set s)

/-! ## Mapping cache (R145, R146) -/

/-- Number of the line of a unit of a set in the mapping cache. -/
abbrev mapLine (set lui : Nat) : Nat := 2 ^ 35 * set + lui / 8

/-- Looks a line up: a hit moves it to the front; a miss evicts the least recently used line and reads the line from DRAM in its place. Answers
whether the line has come: an entry is used only once the bursts that bring it have been checked (R146, R262). -/
def mapLookup (set lui : Nat) (s : State) : Bool × State :=
  let line := mapLine set lui
  let cs := (lui / 8 + 1536 * set) % 12288
  let ways := SMap.getD s.wr.cache cs []
  let hit := ways.contains line
  let s := s.inc (if hit then K.mapCacheHits else K.mapCacheMisses)
  let s := if hit then s else
    match s.entryDa set (lui - lui % 8) with | some a => dramAccess 2 false a 40 (.line line) s | none => s
  let ways := line :: (ways.filter (fun l => l ≠ line)).take 7
  (!s.dramPending (.line line), { s with wr := { s.wr with cache := SMap.insert s.wr.cache cs ways } })

/-! ## Transitions (R123, R239) -/

/-- Takes a die-block's count of entries up or down (R239). -/
def countValid (pma : Nat) (up : Bool) (s : State) : State :=
  let i := s.dieBlock (pmaCh pma) (pmaDie pma) (pmaBlock pma)
  let n := SMap.getD s.fl.valid i 0
  { s with fl := { s.fl with valid := SMap.put 0 s.fl.valid i (if up then n + 1 else n - 1) } }

/-- The last unit of a die-block has left it: its row block may be live no longer, so that a set below full protection is judged anew (R181). -/
def blockEmptied (set pma : Nat) (s : State) : State :=
  s.when (decide (0 < s.get (K.setProtection set))
      && decide (SMap.getD s.fl.valid (s.dieBlock (pmaCh pma) (pmaDie pma) (pmaBlock pma)) 0 = 0))
    (updateProtection set)

/-- Sets a mapping entry, in the table and in the cached line at once (R146), with the counts of R239. -/
def setEntry (set lui new : Nat) (s : State) : State :=
  let old := s.entry set lui
  let s := match locOf old with | .media p => blockEmptied set p (countValid p false s) | _ => s
  let s := match locOf new with | .media p => countValid p true s | _ => s
  let s := match s.entryDa set lui with | some a => dramAccess 2 true a 5 .mapping s | none => s
  { s with wr := { s.wr with map := SMap.put noLoc s.wr.map (mapKey set lui) new } }

/-- A unit of an acknowledged WRITE has settled (R82). -/
def settle (ticket : Nat) (s : State) : State :=
  let l := s.wr.unsettled.map (fun u => (u.1, u.2.1, u.2.2.filter (fun t => t ≠ ticket)))
  { s with wr := { s.wr with unsettled := l.filter (fun u => u.2.2 ≠ []) } }

/-- Releases a staging slot. -/
def freeSlot (k : Nat) (s : State) : State :=
  { s with wr := { s.wr with slots := SMap.erase s.wr.slots k, hostSlots := s.wr.hostSlots.filter (fun x => x ≠ k),
                             backSlots := s.wr.backSlots.filter (fun x => x ≠ k) } }

/-! ## Die queues -/

/-- The read entries of a die's queue: 64. Reads beyond them are held by the units that issue them, in order, until an entry frees
(R205; log entry 154). -/
def Die.readEntries (x : Die) : List Nat := x.reads.take 64

/-- The program-or-erase entries of a die's queue: 4 (R205). -/
def Die.progEntries (x : Die) : List (DieJob × Nat) := x.progs.take 4

/-- Hands a program or erase to a die's queue, with the time it began to wait; beyond four it is held until an entry frees (R205). -/
def pushProg (c d : Nat) (j : DieJob) (s : State) : State :=
  s.modDie c d (fun x => { x with progs := x.progs ++ [(j, s.now)] })

/-- First read of the same frames: what an erase that waits for a read names it by, through its re-reads (R150, R162). -/
def rootOf (id : Nat) (r : PageRead) : Nat := r.root.getD id

/-- Reads of a die that resolved their PMA before now and have not finished with their frames (R150). -/
def State.readsOn (s : State) (c d : Nat) : List Nat :=
  (s.fl.reads.filter (fun e => pmaCh e.2.pma = c && pmaDie e.2.pma = d)).map (fun e => rootOf e.1 e.2)

/-- Queues an erase: it is issued only after the reads that the die owes now; EraseWaits counts one held back (R150). -/
def pushErase (c d block planes : Nat) (set : Option (Nat × Nat)) (raw : Option (Nat × Nat)) (s : State) : State :=
  let after := s.readsOn c d
  let s := s.when (after ≠ []) (fun s => s.inc K.eraseWaits)
  pushProg c d (.erase { block := block, planes := planes, set := set, raw := raw, after := after }) s

/-! ## Erased row blocks (R129, R143, R178) -/

/-- Rows are opened at a die number only when at most two positions are absent there (R174). -/
def GenRec.opensAt (g : GenRec) (d : Nat) : Bool := g.width < (g.present d).length + 3

/-- Erased row blocks of a die number of a set: die-blocks erased on every member present there (R129, R143). -/
def State.erasedRowBlocks (s : State) (set : Nat) (g : GenRec) (d : Nat) : List Nat :=
  if g.opensAt d then
    (List.range (2048 - s.get (K.setSetSpareReserve set))).filter (fun b => (g.channelsAt d).all (fun c => s.blockErased c d b))
  else []

/-- The first erased row block of a die number, lowest first (R129). -/
def State.firstErased (s : State) (set : Nat) (g : GenRec) (d : Nat) : Option Nat :=
  if g.opensAt d then
    (List.range (2048 - s.get (K.setSetSpareReserve set))).find? (fun b => (g.channelsAt d).all (fun c => s.blockErased c d b))
  else none

/-- The first row block of spares that are free on every member of a die number: a walk may use it (R178). -/
def State.firstSpare (s : State) (set : Nat) (g : GenRec) (d : Nat) : Option Nat :=
  let spare := s.get (K.setSetSpareReserve set)
  if g.opensAt d then
    ((List.range spare).map (fun i => 2048 - spare + i)).find? (fun b =>
      (g.channelsAt d).all (fun c => (s.hrec (32768 * c + 2048 * d + b)).state = 5))
  else none

/-- Members of a row block whose retired die-block a free spare could replace, if every other member is erased (R178). -/
def State.substitutable (s : State) (set : Nat) (g : GenRec) (d b : Nat) : Option (List Nat) :=
  let spare := s.get (K.setSetSpareReserve set)
  let cs := g.channelsAt d
  let need := cs.filter (fun c => !s.blockErased c d b)
  if need ≠ [] ∧ need.all (fun c => (s.hrec (32768 * c + 2048 * d + b)).state = 4
      && (SMap.find? s.wr.spareMap (32768 * c + 2048 * d + b)).isNone && (s.freeSpare c d spare).isSome) then some need else none

/-- A row block that could be used with substitutes: die number, block, members. -/
def State.needsSubstitutes (s : State) (set : Nat) (g : GenRec) : Option (Nat × Nat × List Nat) :=
  (List.range 16).findSome? (fun d =>
    if g.opensAt d then
      (List.range (2048 - s.get (K.setSetSpareReserve set))).findSome? (fun b => (s.substitutable set g d b).map (fun l => (d, b, l)))
    else none)

/-- A row block that substitutions could complete while the spare map has room for them (R178). -/
def State.canSubstitute (s : State) (set : Nat) (g : GenRec) : Option (Nat × Nat × List Nat) :=
  (s.needsSubstitutes set g).filter (fun e => s.wr.spareMap.length + e.2.2.length ≤ 196608)

/-- A set has an erased row block, or one that substitutes could complete, at some die number (R129, R143, R178). -/
def State.hasErased (s : State) (set : Nat) (g : GenRec) : Bool :=
  (List.range 16).any (fun d => (s.firstErased set g d).isSome) || (s.canSubstitute set g).isSome

/-- Sets WriteStalled to whether the set has no erased row block, with its event when it changes (R129, R143, R479). Rows that are open, and
word lines left in open row blocks, go on taking units meanwhile (DEDUCED, log entry 133). -/
def updateStalled (set : Nat) (s : State) : State :=
  match s.curGen set with
  | none => s
  | some g =>
    let v := if s.hasErased set g then 0 else 1
    if s.get (K.setWriteStalled set) = v then s else setChanged set (s.set (K.setWriteStalled set) v)

/-! ## Journal (R124, R125) -/

/-- The die-block that the buffer reserves next for SLC pages of a channel: the highest erased one of its lowest fitted die that has one, if any die
has (R125, R129; the choice is the model's, log entry 22). -/
def State.slcFresh (s : State) (c : Nat) : Option (Nat × Nat) :=
  ((List.range 16).filter (fun d => s.fitted c d && decide (s.get (K.chDieState c d) ≤ 2))).findSome? (fun d =>
    ((List.range 2048).reverse.find? (fun b =>
      let st := (s.hrec (32768 * c + 2048 * d + b)).state
      decide (st = 0) || decide (st = 8))).map (fun b => (d, b)))

/-- A page is left in the reserved SLC block of a channel. -/
def State.slcOpen (s : State) (c : Nat) : Bool := match SMap.find? s.fl.slcNext c with | some p => decide (pmaPage p < 512) | none => false

/-- A channel can take an SLC page: in service, with a page left or an erased die-block to reserve (R125, R129). -/
def State.slcReady (s : State) (c : Nat) : Bool :=
  decide (s.get (K.chState c) = 2) && decide (s.get (K.chDiesFitted c) ≠ 0) && (s.slcOpen c || (s.slcFresh c).isSome)

/-- The place of the next SLC page of a channel: the next page of the block reserved there, or page 0 of one reserved now, which may have been the
last that a row block of the set needed (R125, R129, R143). -/
def slcPlace (c : Nat) (s : State) : Nat × State :=
  let next := fun (p : Nat) (s : State) => (p, { s with fl := { s.fl with slcNext := SMap.insert s.fl.slcNext c (p + 1) } })
  match SMap.find? s.fl.slcNext c, s.slcOpen c with
  | some p, true => next p s
  | _, _ =>
    let (d, b) := (s.slcFresh c).getD (0, 0)
    next (pmaOf (s.get K.deviceNumber) c d 0 (if s.density = 2 then 2 * b else b) 0)
      (updateStalled (s.get (K.chStripeSet c)) (s.modHrec (32768 * c + 2048 * d + b) (fun h => { h with state := 7 })))

/-- Queues an SLC page again, on another reserved block: of its own channel, or of the first that can take it (R211). Where none can, a mapping save is given
up, and its segment saved anew (R347; log entry 46). -/
def replaceSlc (c : Nat) (j : SlcJob) (s : State) : State :=
  match (if s.slcReady c then some c else (List.range 96).find? s.slcReady) with
  | none => s.when j.save.isSome (fun s => { s with wr := { s.wr with save := none } })
  | some c =>
    let (p, s) := slcPlace c s
    pushProg c (pmaDie p) (.slc { j with block := pmaBlock p, page := pmaPage p, burst := false }) s

/-- Payload of journal frame f of a page whose first record is `first` (R125). -/
def journalFrame (s : State) (first n f : Nat) : Payload :=
  let duos := (List.range 204).flatMap (fun i =>
    let r := 204 * f + i
    if r < n then (match SMap.find? s.wr.journal (first + r) with | some x => journalDuos x | none => [0, 0, 0, 0])
    else [0, 0, 0, 0])
  dataPayload (BitVec.ofNat 32768 (duosNat duos)) 0 0 (first + 204 * f) 5

/-- The write tag of a die-block for a page header, or the one its first program will set (R235). -/
def State.tagFor (s : State) (c d k : Nat) (slc : Bool) : Nat :=
  let i := 32768 * c + 2048 * d + k
  let tag := SMap.getD s.fl.tags i noLoc
  if tag ≠ noLoc ∧ tag % 16 ≠ 0 then tag
  else
    let dwell := s.get K.calendsNow - tag / 4096
    let mode := if slc then 3 else if tag ≠ noLoc ∧ dwell ≤ s.get K.dwellLimit then 1 else 2
    let temp := (max 0 (min 255 (s20 (s.get (K.chDieTemperature c d)) / 16 + 64))).toNat
    s.get K.calendsNow % 2 ^ 28 * 4096 + temp * 16 + mode

/-- Programs the open journal page, in SLC mode, on two channels (R125). -/
def programJournalPage (s : State) : State :=
  let first := s.wr.jFirst
  let n := s.get K.journalSequence - first
  let chans := ((List.range 96).filter s.slcReady).take 2
  -- Without a channel that can take it the page waits (R129).
  if n = 0 ∨ chans = [] then s
  else
    let ps := (List.range 4).map (journalFrame s first n)
    let s := s.over chans (fun s c =>
      let (p, s) := slcPlace c s
      let k := if s.density = 2 then pmaBlock p / 2 else pmaBlock p
      let h := encodeHeader
        { kind := 5, set := 0, position := 0, width := 0, index := 0, calends := s.tagFor c (pmaDie p) k true,
          generation := 0, row := 0, lui := 0, tag := 0, seq := first }
      pushProg c (pmaDie p)
        (.slc { journal := some first, block := pmaBlock p, page := pmaPage p, image := encodePage p ps h, burst := false }) s)
    { s with wr := { s.wr with jFirst := first + n, jOpened := none,
                               jPages := s.wr.jPages ++ [{ first := first, n := n, left := chans.length, copies := chans.length }] } }

/-- Appends a record: it takes the next sequence number, and a full page is programmed (R124, R125). -/
def appendJournal (r : JRec) (s : State) : State :=
  let seq := s.get K.journalSequence
  let s := { s with wr := { s.wr with journal := SMap.insert s.wr.journal seq r, jOpened := some (s.wr.jOpened.getD s.now) } }
  let s := s.inc K.journalSequence
  s.when (816 ≤ s.get K.journalSequence - s.wr.jFirst) programJournalPage

/-- JOURNAL_PAGE_TIMER (R125): a partly filled page is programmed 1 ms after its first record. -/
def execJournalPageTimer (s : State) : Res :=
  .next (match s.wr.jOpened with | some _ => programJournalPage s | none => s)

/-- A copy of a journal page has passed; JournalDurable moves past every leading page both of whose copies have (R125). -/
def journalCopyPassed (first : Nat) (s : State) : State :=
  let pages := mapIf (fun p => p.first = first) (fun p => { p with left := p.left - 1 }) s.wr.jPages
  let done := pages.takeWhile (fun p => p.left = 0)
  let s := { s with wr := { s.wr with jPages := pages.drop done.length } }
  match done.getLast? with
  | some p => s.set K.journalDurable (p.first + p.n)
  | none => s

/-! ## Checkpoints (R194) -/

/-- A number is higher than another modulo 2^20 (R194). -/
def higher20 (a b : Nat) : Bool := let x := (a + 1048576 - b) % 1048576; decide (1 ≤ x) && decide (x < 524288)

/-- The newest checkpoint of a set (R194). -/
def State.newestCkpt (s : State) (set : Nat) : Option Ckpt :=
  let l := s.nv.ckpts.filter (fun c => c.set = set)
  l.find? (fun c => l.all (fun x => x.number = c.number || higher20 c.number x.number))

end Sys2Proof.Machine
end

