-- ==== Sys2Proof/Machine/DumpSet.lean ====
section
/-! DEFINITION. DumpSet.lean: the dump designation, the armed Vigil entry (R373, R378, R379), and the end of post-Vigil replay (R349). -/

namespace Sys2Proof.Machine

/-! ## The tear ledger (R378) -/

/-- Duos of a tear record (R378). -/
def tearDuos (r : TearRec) : List Nat :=
  let d0 := r.typ * 2 ^ 36 + r.planes * 2 ^ 32 + r.channel * 2 ^ 25 + r.die * 2 ^ 21 + r.block * 2 ^ 9
  let d1 := r.page * 2 ^ 29 + r.cause * 2 ^ 26 + (if r.slc then 2 ^ 25 else 0)
  [d0, d1 + crc20Duos [d0] d1]

/-- Where words that lie in one sector go next in the ledger, counted from its start: 16 sectors give 32,768. -/
def State.ledgerNext (s : State) (n : Nat) : Nat :=
  let p := SMap.getD s.nv.areaNext 2240 0
  if 2048 < p % 2048 + n then (p / 2048 + 1) * 2048 else p

/-- Live tear and raw intent records, those not yet durable included. -/
def State.liveTears (s : State) : List TearRec :=
  s.nv.tears ++ (s.cf.cur.toList ++ s.cf.queue).filterMap (fun d => match d.purpose with | .tear r => if r.typ ≤ 2 then some r else none | _ => none)

/-- The Vigil entry in force, an armed one that is not yet durable included. -/
def State.liveEntry (s : State) : Option VigilEntry :=
  let armed := (s.cf.cur.toList ++ s.cf.queue).filterMap (fun d => match d.purpose with
    | .arm n g a => some ({ number := n, designation := g, addr := a } : VigilEntry)
    | _ => none)
  armed.getLast?.or s.nv.vigilEntry

/-- Words of a mark of a Vigil entry and the first of them (R379). -/
def entryMark (e : VigilEntry) (k : Nat) : Nat × List Word :=
  match k with
  | 0 => (3, [0, BitVec.ofNat 20 (8 * e.trigger + e.fromState), BitVec.ofNat 20 e.d0, BitVec.ofNat 20 (e.d0 / 1048576)])
  | 1 => (7, [BitVec.ofNat 20 e.s1, BitVec.ofNat 20 (e.s1 / 1048576), 0])
  | k => (8 + k, [0])

/-- Words 0 to 2 of a Vigil entry, written when it is armed (R379). -/
def entryHead (number designation : Nat) : List Word := [0x0E91A, BitVec.ofNat 20 number, BitVec.ofNat 20 designation]

/-- Writes the Vigil entry again at another place. -/
def copyEntry (e : VigilEntry) (s : State) : State :=
  let p := s.ledgerNext 16
  let addr := 2048 * 2240 + p
  let s := s.when (p % 2048 = 0) (cfPush 3 1 addr 1 0 [] .areaErase)
  let s := s.modNv (fun v => { v with areaNext := SMap.insert v.areaNext 2240 (p + 16) })
  let s := cfPush 2 1 addr 3 0 (entryHead e.number e.designation) .raw s
  let s := s.over e.marks (fun s k => cfPush 2 1 (addr + (entryMark e k).1) (entryMark e k).2.length 0 (entryMark e k).2 .raw s)
  cfPush 2 1 (addr + 14) 2 0 [0, 0] (.moveEntry addr) s

/-- Words of a dump designation; its format is the warden's own (R373). -/
def designationWords (n free : Nat) : List Word := [BitVec.ofNat 20 n, BitVec.ofNat 20 (Config.freeNat free)]

/-- Makes room for words of the ledger. Eight of its sectors are filled at a time: when they are full the live entries are copied into the
other eight, which are erased, and then the full ones are erased (R378; the halves are the model's choice, log entry 156). -/
def ledgerRoom (n : Nat) (s : State) : State :=
  let p := s.ledgerNext n
  if p % 16384 ≠ 0 ∨ p = 0 then s
  else
    let full := (p / 16384 - 1) % 2
    let tears := s.liveTears
    let entry := s.liveEntry
    let (i, s) := s.free
    let s := s.modNv (fun v => { v with areaNext := SMap.insert v.areaNext 2240 (p % 32768) })
    let s := cfAppend .ledger 1 (designationWords s.nv.designation i) .raw s
    let s := match entry with | some e => copyEntry e s | none => s
    let s := s.over tears (fun s r => cfAppend .ledger 1 (duoWords (tearDuos r)) .raw s)
    s.over (List.range 8) (fun s k => cfPush 3 1 (2048 * (2240 + 8 * full + k)) 1 0 [] .areaErase s)

/-- Appends a record to the tear ledger. -/
def ledgerAppend (r : TearRec) (s : State) : State := cfAppend .ledger 1 (duoWords (tearDuos r)) (.tear r) (ledgerRoom 4 s)

/-! ## The dump designation (R373) -/

/-- The three dump dies of a channel: its three highest dies that have an erased die-block, with the highest such die-block of each (R373;
the choice is the model's, log entry 39). -/
def State.chooseDump (s : State) (c : Nat) : List (Nat × Nat) :=
  let dies := ((List.range 16).reverse.filter (fun d => s.fitted c d && decide (s.get (K.chDieState c d) ≤ 2)))
  (dies.filterMap (fun d =>
    ((List.range 2048).reverse.find? (fun b => let st := (s.hrec (32768 * c + 2048 * d + b)).state; st = 0 || st = 8)).map (fun b => (d, b)))).take 3

/-- Designates a fresh set of dump die-blocks and records the designation in the tear-ledger area (R373). -/
def designateDump (s : State) : State :=
  let n := s.nv.designation + 1
  let picks := ((List.range 96).filter (fun c => s.get (K.chState c) = 2)).map (fun c => (c, s.chooseDump c))
  let s := s.over picks (fun s e => s.over e.2 (fun s x => s.modHrec (32768 * e.1 + 2048 * x.1 + x.2) (fun h => { h with state := 7 })))
  let s := (s.modNv (fun v => { v with designation := n, dumpDies := picks })).over (List.range 8) (fun s set => updateStalled set s)
  let (i, s) := s.free
  cfAppend .ledger 1 (designationWords n i) (.designate n) (ledgerRoom 2 s)

/-- Arms a Vigil entry: words 0 to 2 and 14 to 15 of its 16 words; the words between stay erased for the marks (R378, R379). -/
def armVigil (s : State) : State :=
  let s := ledgerRoom 16 s
  let p := s.ledgerNext 16
  let addr := 2048 * 2240 + p
  let number := s.get K.vigilCount + 1
  let s := s.when (p % 2048 = 0) (cfPush 3 1 addr 1 0 [] .areaErase)
  let s := s.modNv (fun v => { v with areaNext := SMap.insert v.areaNext 2240 (p + 16) })
  let s := cfPush 2 1 addr 3 0 (entryHead number s.nv.designation) .raw s
  cfPush 2 1 (addr + 14) 2 0 [0, 0] (.arm number s.nv.designation addr) s

/-- A reloaded unit has been placed or superseded. With the last the dump die-blocks are released for erase, a fresh set is designated and
armed, and replay ends (R349, R373). -/
def replayPlaced (s : State) : State :=
  let n := s.get K.replayUnits
  if n = 0 then s
  else
    let s := s.set K.replayUnits (n - 1)
    if 1 < n then s
    else
      let dies := match s.nv.dump with | some d => d.dies | none => []
      let s := s.over dies (fun s e => s.over e.2 (fun s x =>
        pushErase e.1 x.1 (if s.density = 2 then 2 * x.2 else x.2) 15 none none s))
      deriveMode (armVigil (designateDump (s.modNv (fun v => { v with dump := none }))))

/-- Releases the staged copy that an entry pointed at, if it has not been taken (R25, R123). A copy in program settles when its program
ends (R82). -/
def supersede (set lui : Nat) (s : State) : State :=
  match locOf (s.entry set lui) with
  | .staged k =>
    (match SMap.find? s.wr.slots k with
    | some u =>
      let s := s.modSet set (fun t => { t with queue := t.queue.filter (fun x => x ≠ k) })
      let s := s.when (u.origin = .replay) replayPlaced
      (settle u.ticket (freeSlot k s)).inc K.unitsSuperseded
    | none => s)
  | _ => s

end Sys2Proof.Machine
end

