-- ==== Sys2Proof/Machine/Loss.lean ====
section
/-! DEFINITION. Loss.lean: the stripe of a page (R20, R178), and loss records: their causes, their index, their layout and their issue
(R188 to R190). -/

namespace Sys2Proof.Machine

/-! ## Stripes -/

/-- One stripe: a row block, its generation record, a word line, and the page of it (plane in [3:2], page index in [1:0]). -/
structure Stripe where
  rb : RowBlock
  gen : GenRec
  wl : Nat
  page : Nat
  deriving DecidableEq, Repr

/-- The page of a member of a stripe (R20, R178). -/
def State.stripePma (s : State) (x : Stripe) (pos : Nat) : Nat :=
  let c := nth x.gen.channels pos 127
  s.memberPma c x.rb.die (s.memberBlock c x.rb.die x.rb.block) x.wl x.page

/-- The stripe and the position that a page belongs to. -/
def State.stripeOf (s : State) (pma : Nat) : Option (Stripe × Nat) :=
  (s.rowOfPma pma).map (fun e => ({ rb := e.1, gen := e.2.1, wl := e.2.2.1, page := 4 * pmaPlane pma + pmaPage pma % 4 }, e.2.2.2))

/-- The unit whose mapping entry holds a page. -/
def State.unitAt (s : State) (pma : Nat) : Option (Nat × Nat) :=
  (List.find? (fun e : Nat × Nat => decide (e.2 = pma)) s.wr.map).map (fun e => (e.1 / 34359738368, e.1 % 34359738368))

/-! ## Loss records (R188 to R190) -/

/-- Index of a stripe frame position (R188). -/
def frameKey (x : Stripe) (f : Nat) : Nat :=
  (((x.rb.set * 16 + x.rb.die) * 2048 + x.rb.block) * 1024 + x.wl) * 64 + 4 * x.page + f + 67108864 * 64 * 16 * x.gen.num

/-- Issues a record: the next number, its place in the loss log, and its append to code flash (R190). -/
def issueLoss (r : LossRec) (s : State) : State :=
  let n := s.get K.lossRecordsIssued + 1
  let r := { r with number := n }
  let s := (s.set K.lossRecordsIssued n).inc K.lossPending
  let s := s.modNv (fun v => { v with losses := (v.losses ++ [r]).drop (v.losses.length + 1 - 1024) })
  cfAppend .lossLog 1 (duoWords (lossDuos r)) (.loss n) s

/-- Declares a loss: its records are issued while fewer than 1,024 await acknowledgement, and wait in order otherwise (R190). -/
def declareLoss (rs : List LossRec) (s : State) : State :=
  s.over rs (fun s r =>
    if s.get K.lossPending < 1024 ∧ s.wr.lossWaiting = [] then issueLoss r s
    else s.modWr (fun w => { w with lossWaiting := w.lossWaiting ++ [r] }))

/-- Splits ranges eight to a record. -/
def chunk8 : Nat → List (Nat × Nat) → List (List (Nat × Nat))
  | 0, _ => []
  | n + 1, l => if l.length ≤ 8 then [l] else l.take 8 :: chunk8 n (l.drop 8)

/-- The field ErasureCount of a record: the erasures found. Where fewer than three were found (a recovered frame that fails its DataCrc, or a
parity mismatch in staging) the manual gives no count, and the field's range is 3 to 48: a free value of that range (R189; log entry 135). -/
def erasureCount (n : Nat) (s : State) : Nat × State :=
  if 3 ≤ n then (n, s) else let (i, s) := s.free; (3 + Config.freeNat i % 46, s)

/-- Records a lost stripe frame position, unless the index still holds it: its records name the blocks that cannot be recovered, eight ranges
to a record, and the position enters the index (R188, R189). -/
def recordPosition (cause : Nat) (x : Stripe) (f : Nat) (erased : List Nat) (ranges : List (Nat × Nat)) (s : State) : State :=
  let k := frameKey x f
  if s.wr.lossIndex.contains k then s
  else
    let s := s.modWr (fun w => { w with lossIndex := (w.lossIndex ++ [k]).drop (w.lossIndex.length + 1 - 1048576) })
    let parts := chunk8 8 ranges
    let (n, s) := erasureCount erased.length s
    let base : LossRec :=
      { number := 0, cause := cause, set := x.rb.set, more := false, erasures := n, minute := s.get K.calendsNow,
        generation := x.gen.num, die := x.rb.die, plane := x.page / 4,
        block := if s.density = 2 then 2 * x.rb.block + x.wl / 512 else x.rb.block, page := 4 * (x.wl % 512) + x.page % 4,
        frame := f, erased := erased.foldl (fun a p => a ||| 2 ^ p) 0, ranges := [], durable := false, noticed := false }
    declareLoss ((parts.zip (List.range parts.length)).map (fun e =>
      { base with ranges := e.1, more := decide (e.2 + 1 < parts.length) })) s

/-- The records of a stripe frame position whose erasures are given: the data blocks of the erased members (R188, R189). -/
def declareStripeLoss (cause : Nat) (x : Stripe) (f : Nat) (erased : List Nat) (s : State) : State :=
  let data := (x.gen.dataPresent x.rb.die x.rb.block x.wl).filter (fun d => erased.contains d)
  recordPosition cause x f erased ((data.filterMap (fun d => s.unitAt (s.stripePma x d))).map (fun u => (4 * u.2 + f, 1))) s

/-- The records of a unit that a parity mismatch in staging lost: each of its four blocks at its stripe frame position (R91, R188, cause 2). -/
def declareStagingLoss (x : Stripe) (pos lui : Nat) (s : State) : State :=
  s.over (List.range 4) (fun s f => recordPosition 2 x f [pos] [(4 * lui + f, 1)] s)

end Sys2Proof.Machine
end

