-- ==== Sys2Proof/Machine/WritePath.lean ====
section
/-! DEFINITION. WritePath.lean: admission and acknowledgement of WRITEs and partial TRIMs, write tags and replay, stripe
assembly, and the background budget (Write Path and Stripe Assembly). -/

namespace Sys2Proof.Machine

/-! ## Staging slots (R113, R114): host units 0 to 1,751, background units 1,752 to 2,007 -/

/-- The first `n` numbers from `lo` below `hi` that a list does not hold. -/
def freeNumbers (used : List Nat) (lo hi n : Nat) : List Nat :=
  (((List.range (hi - lo)).map (fun i => lo + i)).filter (fun k => !used.contains k)).take n

def State.hostFree (s : State) : Nat := 1752 - s.wr.hostSlots.length
def State.backFree (s : State) : Nat := 256 - s.wr.backSlots.length

/-- Reserves host slots (R115) and keeps the peak of R143. -/
def takeHostSlots (n : Nat) (s : State) : List Nat × State :=
  let ks := freeNumbers s.wr.hostSlots 0 1752 n
  let s := { s with wr := { s.wr with hostSlots := s.wr.hostSlots ++ ks } }
  (ks, s.set K.hostSlotsPeak (max (s.get K.hostSlotsPeak) s.wr.hostSlots.length))

/-- Puts a unit into a free background slot and its set's queue, if one is free (R139). -/
def takeBackSlot (u : SUnit) (s : State) : Option (Nat × State) :=
  match freeNumbers s.wr.backSlots 1752 2008 1 with
  | k :: _ =>
    let s := { s with wr := { s.wr with backSlots := s.wr.backSlots ++ [k], slots := SMap.insert s.wr.slots k u } }
    some (k, s.modSet u.set (fun t => { t with queue := t.queue ++ [k] }))
  | [] => none

/-! ## Host reads (R308) -/

/-- The next read tag from a number on that no outstanding read bears (R304, R308). -/
def freeTag (used : List Nat) : Nat → Nat → Nat
  | 0, t => t
  | n + 1, t => if used.contains t then freeTag used n ((t + 1) % 8192) else t

/-- Sends the MemReadReqs for host data of an operation, one for each piece that R307 allows. A WRITE has its staging slots by then; where the data of a
RAW_PROGRAM is kept the manual does not say, and it is taken to have room (R309; DESIGN CHOICE, log entry 185). -/
def startHostReads (ring slot addr n : Nat) (s : State) : State :=
  s.over (hostPieces (n / 4096 + 2) addr n 0) (fun s e =>
    let tag := freeTag (s.wr.hostReads.map (fun r => r.tag)) 8192 s.wr.nextTag
    let r : HostRead := { tag := tag, ring := ring, slot := slot, off := e.2.2, left := e.2.1, sentAt := s.now }
    let s := { s with wr := { s.wr with hostReads := s.wr.hostReads ++ [r], nextTag := (tag + 1) % 8192 } }
    sendPacket 0 (.memReadReq (s.opClass ring slot) tag e.1 e.2.1) s)

/-- Writes `n` bytes at a byte offset of a block store. -/
def putBytes (data : SMap Block) (off n v : Nat) : SMap Block :=
  let one := fun (m : SMap Block) (b pos len v : Nat) =>
    let old := (SMap.getD m b 0).toNat
    let mask := (2 ^ (8 * len) - 1) * 2 ^ (8 * pos)
    SMap.insert m b (BitVec.ofNat 32768 ((old - (old &&& mask)) ||| (v % 2 ^ (8 * len) * 2 ^ (8 * pos))))
  let pos := off % 4096
  let len := min n (4096 - pos)
  let m := one data (off / 4096) pos len v
  if len < n then one m (off / 4096 + 1) 0 (n - len) (v / 2 ^ (8 * len)) else m

/-- Changes the gathering of an operation. -/
def State.modGather (s : State) (ring slot : Nat) (f : Gather → Gather) : State :=
  { s with wr := { s.wr with gathers := mapIf (fun g => g.ring = ring ∧ g.slot = slot) f s.wr.gathers } }

def State.gather (s : State) (ring slot : Nat) : Option Gather := s.wr.gathers.find? (fun g => g.ring = ring ∧ g.slot = slot)

/-- Ends the gathering of an operation: its reads are forgotten and its slots released. -/
def dropGather (ring slot : Nat) (release : Bool) (s : State) : State :=
  let s := match s.gather ring slot with
    | some g => s.when release (fun s => s.over g.slots (fun s e => freeSlot e.2 s))
    | none => s
  { s with wr := { s.wr with gathers := s.wr.gathers.filter (fun g => ¬(g.ring = ring ∧ g.slot = slot)),
                             hostReads := s.wr.hostReads.filter (fun r => ¬(r.ring = ring ∧ r.slot = slot)) } }

/-- Detail of an operation that writes and that a parity mismatch stopped: the first LBA or PMA not delivered, zero for a WRITE (R89). -/
def integrityDetail (d : Descriptor) : Nat := if descOpcode d = 0x02 then 0 else descDuo d 2

/-- Beats of a host read enter the fabric with bad parity: IntegrityError names the Urvan port, and the operation completes
INTEGRITY with nothing changed (R308, R91). -/
def hostReadBad (r : HostRead) (s : State) : State :=
  let s := integrityError 7 96 s
  let s := dropGather r.ring r.slot true s
  match s.op r.ring r.slot with
  | some o => finishOp o 4 0 (integrityDetail o.desc) s
  | none => s

/-- Data of a raw program as one number of bytes. -/
def gatherBytes (g : Gather) : Nat := (List.range 5).foldl (fun a i => a + (SMap.getD g.data i 0).toNat * 2 ^ (32768 * i)) 0

/-- The page that a RAW_PROGRAM programs: with Encode = 1 the buffer computes the parity of four payloads; with Encode = 0 the host
supplies every byte (R81). -/
def rawImage (pma : Nat) (encode : Bool) (v : Nat) : BitVec 147456 :=
  if encode then encodePage pma ((List.range 4).map (fun f => BitVec.ofNat 33280 (v / 2 ^ (33280 * f)))) (BitVec.ofNat 1024 (v / 2 ^ 133120))
  else BitVec.ofNat 147456 v

/-- A RAW_PROGRAM whose data has all arrived is queued on its die (R81, R205). -/
def rawDataIn (ring slot : Nat) (s : State) : State :=
  match s.gather ring slot, s.op ring slot with
  | some g, some o =>
    if descOpcode o.desc = 0x11 ∧ (s.wr.hostReads.any (fun r => decide (r.ring = ring) && decide (r.slot = slot))) = false then
      let pma := descDuo o.desc 2
      let image := rawImage pma ((descDuo o.desc 3).testBit 5) (gatherBytes g)
      pushProg (pmaCh pma) (pmaDie pma) (.rawProg ring slot pma image) (dropGather ring slot false s)
    else s
  | _, _ => s

/-- Data of a host read is gathered at its place; a whole RAW_PROGRAM goes on to its die (R308). -/
def takeHostData (r : HostRead) (n v : Nat) (s : State) : State :=
  let m := min n r.left
  let s := s.modGather r.ring r.slot (fun g => { g with data := putBytes g.data r.off m (v % 2 ^ (8 * m)) })
  let rest := s.wr.hostReads.filter (fun x => x.tag ≠ r.tag)
  let keep := if m < r.left then rest ++ [{ r with off := r.off + m, left := r.left - m }] else rest
  rawDataIn r.ring r.slot { s with wr := { s.wr with hostReads := keep } }

/-- MEM_READ_DATA (R308): host data answering a read arrives; unexpected data is discarded and counted as malformed: of a tag with no read outstanding,
or more bytes than its read still lacks. -/
def execMemReadData (tag n : BitVec 13) (poisoned : Bool) (v : BitVec 32768) (s : State) : Res :=
  .next (match s.wr.hostReads.find? (fun r => decide (r.tag = tag.toNat)) with
    | none => s.inc (K.portMalformedPackets 0)
    | some r =>
      if poisoned then hostReadBad r s
      else if r.left < n.toNat then s.inc (K.portMalformedPackets 0)
      else takeHostData r n.toNat v.toNat s)

/-- MEM_READ_TIMEOUT (R308): no data 10 ms after the request. -/
def execMemReadTimeout (tag : BitVec 13) (s : State) : Res :=
  .next (match s.wr.hostReads.find? (fun r => decide (r.tag = tag.toNat)) with
    | some r => hostReadBad r s
    | none => s)

/-! ## Admission and replay -/

/-- Set of an operation's ring. -/
def State.setOf (s : State) (ring : Nat) : Nat := plSet (s.get (K.ringPlacement ring))

/-- Units touched by a range of blocks: unit, whether the range covers it whole. -/
def unitsOf (lba count : Nat) : List (Nat × Bool) :=
  (List.range ((lba + count - 1) / 4 - lba / 4 + 1)).map (fun i =>
    let u := lba / 4 + i
    (u, decide (lba ≤ 4 * u ∧ 4 * u + 4 ≤ lba + count)))

/-- A channel whose hard decoder or sequencer port is fenced (R479, R483); its programs and erases need the port alone. -/
def State.fencedChannel (s : State) (c : Nat) (reads : Bool) : Bool :=
  s.ev.fenced.any (fun e => decide (e.2 = c) && (decide (e.1 = 7) || (reads && decide (e.1 = 4))))

/-- An operation needs a fenced stage (R483): of its own channels, or of the mapping unit, the write path, the decoders beyond the hard ones and the Urvan
port, which every operation of its type uses (log entry 53). -/
def State.fencedFor (s : State) (o : Op) : Bool :=
  let op := descOpcode o.desc
  let some_ := fun (p : Nat × Nat → Bool) => s.ev.fenced.any p
  let set := s.setOf o.ring
  let chans : List Nat := (unitsOf (descLba o.desc) (descCount o.desc)).filterMap (fun u => match locOf (s.entry set u.1) with | .media p => some (pmaCh p) | _ => none)
  s.ev.fenced ≠ [] && (match op with
    | 0x01 => some_ (fun e => e.1 = 1 || (e.1 = 4 && decide (96 ≤ e.2)) || e = (7, 96)) || chans.any (fun c => s.fencedChannel c true)
    | 0x02 => some_ (fun e => e.1 = 1 || e.1 = 2 || e = (7, 96))
    | 0x03 => some_ (fun e => e.1 = 1)
    | 0x10 => some_ (fun e => (e.1 = 4 && decide (96 ≤ e.2)) || e = (7, 96)) || s.fencedChannel (pmaCh (descDuo o.desc 2)) true
    | 0x11 => some_ (fun e => e = (7, 96)) || s.fencedChannel (pmaCh (descDuo o.desc 2)) false
    | 0x12 => s.fencedChannel (pmaCh (descDuo o.desc 2)) false
    | _ => false)

/-- The write is one that the tag table holds (R118). -/
def State.isReplay (s : State) (o : Op) : Bool :=
  descTag o.desc ≠ 0 && s.wr.tags.any (fun t => t.tag = descTag o.desc && t.set = s.setOf o.ring && t.lba = descLba o.desc
    && t.count = descCount o.desc)

/-- An earlier WRITE with the same tag and range has no completion yet (R119). -/
def State.tagBusy (s : State) (o : Op) : Bool :=
  descTag o.desc ≠ 0 && s.rings.ops.any (fun e => decide (e.seq < o.seq) && descOpcode e.desc = 2
    && (e.phase = .admission || e.phase = .issued) && descTag e.desc = descTag o.desc && s.setOf e.ring = s.setOf o.ring
    && descLba e.desc = descLba o.desc && descCount e.desc = descCount o.desc)

/-- Completes a replay (R118): DONE, the full length, nothing read and nothing changed. -/
def finishReplay (o : Op) (s : State) : State := finishOp o 0 (s.fullLength o.desc) 0 (s.inc K.replaysMatched)

/-- Joins admission at its place in fetch order (R115, R119). -/
def joinAdmission (o : Op) (s : State) : State :=
  let before := s.wr.admission.takeWhile (fun e => match s.op e.1 e.2 with | some x => decide (x.seq < o.seq) | none => true)
  let s := { s with wr := { s.wr with admission := before ++ (o.ring, o.slot) :: s.wr.admission.drop before.length } }
  s.modOp o.ring o.slot (fun o => { o with phase := .admission })

/-- WRITE (R116, R118, R119): a replay completes at once; a WRITE whose tag is busy waits; any other joins admission. -/
def execWrite (ring : Fin 8192) (slot : Fin 65536) (s : State) : Res :=
  .next (match s.readyOp ring slot 0x02 with
    | some o =>
      if s.fencedFor o then finishOp o 1 0 0 s
      else if s.isReplay o then finishReplay o s
      else if s.tagBusy o then s.modOp ring slot (fun o => { o with phase := .tagWait })
      else joinAdmission o s
    | none => s)

/-- TAG_WAIT_RELEASE (R119): the earlier WRITE has completed; the waiting one is a replay or a new WRITE. -/
def execTagWaitRelease (ring : Fin 8192) (slot : Fin 65536) (s : State) : Res :=
  .next (match s.op ring slot with
    | some o =>
      if o.phase = .tagWait ∧ s.tagBusy o = false then (if s.isReplay o then finishReplay o s else joinAdmission o s) else s
    | none => s)

/-- Unmaps a whole unit, with its Trim record (R83, R123). -/
def trimUnit (set lui : Nat) (s : State) : State :=
  let s := supersede set lui s
  let s := appendJournal { kind := .trim, set := set, lui := lui, tag := 0, loc := noLoc, count := 0, first := 0 } s
  setEntry set lui noLoc s

/-- Records that the journal buffer can still take: it holds 3.5 MiB of the tail awaiting program, 20 bytes a record, and no region lends space (R19,
R124). A record is set aside for each program shadow, whose unit becomes placed, moved or staged again, and one for each unit of an admitted WRITE or
TRIM. What waits while it is full is the model's choice (log 153): admission, whole-unit TRIMs, transfers, and the taking of units into rows. -/
def State.journalRoom (s : State) : Nat :=
  183500 - (s.get K.journalSequence - s.get K.journalDurable + s.wr.shadows.length
    + (s.wr.gathers.map (fun g => (unitsOf g.lba g.count).length)).sum)

/-- TRIM (R83): whole units are unmapped at once; one that covers a unit only in part joins admission for its zero blocks. -/
def execTrim (ring : Fin 8192) (slot : Fin 65536) (s : State) : Res :=
  .next (match s.readyOp ring slot 0x03 with
    | some o =>
      let us := unitsOf (descLba o.desc) (descCount o.desc)
      -- It waits while an entry that it needs is being recovered (R277).
      if s.fencedFor o then finishOp o 1 0 0 s
      else if us.any (fun u => s.entryWaits (s.setOf o.ring) u.1) then s
      else if us.all (fun u => u.2) then
        if s.journalRoom < us.length then s
        else
        let s := s.over us (fun s u => trimUnit (s.setOf o.ring) u.1 s)
        finishOp o 0 (s.fullLength o.desc) 0 s
      else joinAdmission o s
    | none => s)

/-- Units of an admitted WRITE, or those that a partial TRIM writes with zero blocks (R83, R115). -/
def admittedUnits (o : Op) : List (Nat × Bool) :=
  (unitsOf (descLba o.desc) (descCount o.desc)).filter (fun u => !decide (descOpcode o.desc = 3) || !u.2)

/-- A WRITE or partial TRIM is admitted: host slots for its units, and the reads of a WRITE's data (R115). -/
def takeUnits (ring slot : Nat) (rest : List (Nat × Nat)) (o : Op) (s : State) : State :=
  let trim := decide (descOpcode o.desc = 3)
  let us := admittedUnits o
  let (ks, s) := takeHostSlots us.length s
  let g : Gather :=
    { ring := ring, slot := slot, set := s.setOf ring, lba := descLba o.desc, count := descCount o.desc,
      tag := if trim then 0 else descTag o.desc, trim := trim, slots := (us.map (fun u => u.1)).zip ks, data := [],
      merged := [], poisoned := false }
  let s := { s with wr := { s.wr with admission := rest, gathers := s.wr.gathers ++ [g] } }
  let s := s.modOp ring slot (fun o => { o with phase := .issued })
  if trim then s else startHostReads ring slot (descHost o.desc) (4096 * descCount o.desc) s

/-- A WRITE or partial TRIM fetched before this operation has not been handed to the write path yet: admission keeps fetch order over all
rings (R115). -/
def State.admissionBehind (s : State) (o : Op) : Bool :=
  s.rings.ops.any (fun e => decide (e.seq < o.seq) && decide (e.phase = .ready)
    && (descOpcode e.desc = 2 || (descOpcode e.desc = 3 && (unitsOf (descLba e.desc) (descCount e.desc)).any (fun u => !u.2))))

/-- WRITE_ADMISSION (R115): the WRITE or partial TRIM that was fetched first is admitted when host slots are free for every unit it
writes; a WRITE's data is read from host memory into them. -/
def execWriteAdmission (s : State) : Res :=
  .next (match s.wr.admission with
    | (ring, slot) :: rest =>
      (match s.op ring slot with
      | some o =>
        let us := admittedUnits o
        if s.admissionBehind o then s
        else if us.length ≤ s.hostFree ∧ (unitsOf (descLba o.desc) (descCount o.desc)).length ≤ s.journalRoom ∧ s.fetches ∧ s.wr.admitStop = false ∧ us.any (fun u => s.entryWaits (s.setOf ring) u.1) = false then
          takeUnits ring slot rest o s
        else s
      | none => { s with wr := { s.wr with admission := rest } })
    | [] => s)

/-! ## Page reads (shared with the read path) -/

/-- A page lies on a member that is lost for reads (R167). -/
def State.pageLost (s : State) (pma : Nat) : Bool :=
  s.memberLost (pmaCh pma) (pmaDie pma) ||
    (match s.rowOfPma pma with
    | some (r, _, wl, pos) => r.failedRows.contains (wl, pos)
    | none => false)

/-- Queues a page read on its die, or sends its frames to ladder step 4 at once when the member is lost for reads (R147, R167). -/
def queueRead (r : PageRead) (s : State) : State :=
  let raw := match r.owner with
    | .op ring slot _ => (match s.op ring slot with | some o => decide (descOpcode o.desc = 0x10) | none => false)
    | _ => false
  if !raw && s.pageLost r.pma then
    { s with fl := { s.fl with recon := s.fl.recon ++ r.frames.map (fun f =>
        { owner := r.owner, pma := r.pma, frame := f, cls := r.cls, degraded := true }) } }
  else
    let id := s.fl.nextRead
    let s := { s with fl := { s.fl with reads := SMap.insert s.fl.reads id r, nextRead := id + 1 } }
    s.modDie (pmaCh r.pma) (pmaDie r.pma) (fun x => { x with reads := x.reads ++ [id] })

/-- A first page read for an owner (R147). -/
def freshRead (owner : ReadOwner) (pma cls : Nat) (frames : List Nat) (header : Bool) (s : State) : State :=
  queueRead
    { owner := owner, pma := pma, frames := frames, header := header, cls := cls, step := 1, shift := 0, since := s.now,
      pending := [], failed := [], again := 0 } s

/-! ## Acknowledgement (R116, R117) -/

/-- Where an uncovered block of a unit comes from: its payload if it is at hand, or the page to read (R117). -/
def mergeFrame (g : Gather) (lui f : Nat) (s : State) : Payload ⊕ Nat :=
  let lba := 4 * lui + f
  match locOf (s.entry g.set lui) with
  | .none => .inl (zeroPayload lba)
  | .staged k => .inl (match SMap.find? s.wr.slots k with | some u => nth u.frames f 0 | none => zeroPayload lba)
  | .shadow j => .inl (match SMap.find? s.wr.shadows j with | some u => nth u.frames f 0 | none => zeroPayload lba)
  | .media p =>
    if SMap.getD s.fl.torn (pmaPlace p) false then .inl (carriedLoss lba)
    else
      match g.merged.find? (fun e => e.1 = lui ∧ e.2.1 = p ∧ e.2.2.1 = f) with
      | some (_, _, _, some x) => .inl x
      | some (_, _, _, none) => .inl (carriedLoss lba)
      | none => .inr p

/-- The frames of a unit of a WRITE or partial TRIM: host data, zeros, or merged blocks; pages that must be read first. -/
def gatherUnit (g : Gather) (lui : Nat) (s : State) : List (Payload ⊕ Nat) :=
  (List.range 4).map (fun f =>
    let lba := 4 * lui + f
    if g.lba ≤ lba ∧ lba < g.lba + g.count then
      .inl (if g.trim then zeroPayload lba else dataPayload (SMap.getD g.data (lba - g.lba) 0) lba g.tag 0 1)
    else mergeFrame g lui f s)

/-- A unit is touched only in part (R117). -/
def partialUnit (g : Gather) (lui : Nat) : Bool := !(decide (g.lba ≤ 4 * lui) && decide (4 * lui + 4 ≤ g.lba + g.count))

/-- Commits one staged unit of an acknowledged WRITE: its Stage record, its slot, its entry (R116, R123). The unit's WriteTag, which its page
header will carry, is that of this WRITE also where its merged blocks keep other tags; R135 says only "as in frame metadata" (DESIGN CHOICE,
log entry 132). -/
def commitUnit (g : Gather) (first : Bool) (lui k : Nat) (frames : List Payload) (s : State) : State :=
  let seq := s.get K.journalSequence
  let s := supersede g.set lui s
  let s := appendJournal
    { kind := .stage, set := g.set, lui := lui, tag := g.tag, loc := stagedLoc k,
      count := if first && !g.trim then g.count else 0, first := if first && !g.trim then g.lba % 4 else 0 } s
  let u : SUnit :=
    { set := g.set, lui := lui, frames := frames, tag := g.tag, seq := 0, origin := .host, source := none, ticket := seq, stripe := 0 }
  let s := { s with wr := { s.wr with slots := SMap.insert s.wr.slots k u } }
  let s := s.modSet g.set (fun t => { t with queue := t.queue ++ [k] })
  let s := s.when (partialUnit g lui) (fun s => s.inc K.partialMerges)
  setEntry g.set lui (stagedLoc k) s

/-- Enters a WRITE in the tag table, replacing an entry with the same tag and evicting the oldest beyond 1,048,576 (R118, R120). -/
def enterTag (e : TagEntry) (l : List TagEntry) : List TagEntry :=
  if e.tag = 0 then l
  else
    let l := l.filter (fun t => t.tag ≠ e.tag) ++ [e]
    l.drop (l.length - 1048576)

/-- Units of a gathering with their slots and frames; a frame that must be merged from media is its place there (R117). -/
def gatheredUnits (g : Gather) (s : State) : List (Nat × Nat × List (Payload ⊕ Nat)) :=
  g.slots.map (fun e => (e.1, e.2, gatherUnit g e.1 s))

/-- Frames that must still be read from media: unit, place and frame (R117). -/
def mergeNeeds (g : Gather) (s : State) : List (Nat × Nat × Nat) :=
  (gatheredUnits g s).flatMap (fun u =>
    (u.2.2.zip (List.range 4)).filterMap (fun x => match x.1 with | .inr p => some (u.1, p, x.2) | .inl _ => none))

/-- Issues the merge reads not yet under way, one for each page (R117). -/
def startMerges (g : Gather) (s : State) : State :=
  let need := mergeNeeds g s
  s.over ((gatheredUnits g s).filterMap (fun u =>
      let fs := (need.filter (fun n => n.1 = u.1)).map (fun n => n.2.2)
      match need.find? (fun n => n.1 = u.1) with | some n => some (u.1, n.2.1, fs) | none => none))
    (fun s x =>
      let busy := s.fl.reads.any (fun r => r.2.owner = .merge g.ring g.slot x.1)
        || s.fl.recon.any (fun r => r.owner = .merge g.ring g.slot x.1)
      if busy then s else freshRead (.merge g.ring g.slot x.1) x.2.1 (s.opClass g.ring g.slot) x.2.2 false s)

/-- All units are staged: entries set, Stage records appended, the tag entered and the completion posted (R83, R116, R118). -/
def acknowledge (g : Gather) (o : Op) (s : State) : State :=
  let units := gatheredUnits g s
  let full := s.fullLength o.desc
  let seq0 := s.get K.journalSequence
  let whole := if g.trim then (unitsOf g.lba g.count).filter (fun u => u.2) else []
  let s := s.over whole (fun s u => trimUnit g.set u.1 s)
  let s := s.over (units.zip (List.range units.length)) (fun s e =>
    commitUnit g (e.2 = 0) e.1.1 e.1.2.1 (e.1.2.2.map (fun x => match x with | .inl p => p | .inr _ => 0)) s)
  let tickets := (List.range (s.get K.journalSequence - seq0)).map (fun i => seq0 + i)
  let s := { s with wr := { s.wr with
      gathers := s.wr.gathers.filter (fun x => ¬(x.ring = g.ring ∧ x.slot = g.slot)),
      unsettled := if g.trim then s.wr.unsettled else s.wr.unsettled ++ [(s.wr.nextWrite, g.set, tickets)],
      nextWrite := s.wr.nextWrite + 1,
      tags := if g.trim then s.wr.tags
        else enterTag { tag := g.tag, set := g.set, lba := g.lba, count := g.count } s.wr.tags } }
  let s := s.when (!g.trim) (fun s => s.inc K.writesAcknowledged)
  finishOp { o with staged := true } 0 full 0 s

/-- WRITE_ACKNOWLEDGE (R116): all units of a WRITE (or partial TRIM) are staged; merge reads are issued first for blocks that lie
on media (R117); then entries are set, Stage records appended and the completion posted. A merge from a shadow that is being recovered waits (R277). -/
def execWriteAcknowledge (ring : Fin 8192) (slot : Fin 65536) (s : State) : Res :=
  .next (match s.gather ring slot, s.op ring slot with
    | some g, some o =>
      if s.wr.hostReads.any (fun r => r.ring = ring.val && r.slot = slot.val) || g.slots = [] then s
      else if g.slots.any (fun e => partialUnit g e.1 && s.shadowWaits g.set e.1) then s
      else if mergeNeeds g s ≠ [] then startMerges g s
      else acknowledge g o s
    | _, _ => s)

/-! ## Stripe assembly (R126 to R129) -/

/-- Gives each of the members a substitute, recorded both ways, with its durable copy on the way (R178). -/
def substitute (set d b : Nat) (cs : List Nat) (s : State) : State :=
  s.over cs (fun s c =>
    match s.freeSpare c d (s.get (K.setSetSpareReserve set)) with
    | none => s
    | some k =>
      let base := 32768 * c + 2048 * d
      let s := s.modWr (fun w => { w with spareMap := SMap.insert w.spareMap (base + b) (base + k) })
      cfAppend .spareMap 2 (duoWords [base + b, base + k]) (.spare (base + b) (base + k)) (s.modHrec (base + k) (fun h => { h with state := 6 })))

/-- A substitution of the set is not durable yet: no other is made meanwhile (R178). -/
def State.substituting (s : State) (set : Nat) : Bool :=
  s.wr.spareMap.any (fun e => decide (s.get (K.chStripeSet (e.1 / 32768)) = set) && decide (SMap.find? s.nv.spareMap e.1 ≠ some e.2))

/-- A die-block of the row block is retired: no further row is opened in it (R129, R139). -/
def State.retiredMember (s : State) (r : RowBlock) (g : GenRec) : Bool :=
  (g.channelsAt r.die).any (fun c => decide ((s.hrec (32768 * c + 2048 * r.die + s.memberBlock c r.die r.block)).state = 4))

/-- The place of the next row of a set at a die number: the next word line of its open row block, or word line 0 of the lowest
erased one; a walk may take spares when nothing else is erased (R127, R129, R137, R178). -/
def State.nextPlace (s : State) (set : Nat) (g : GenRec) (spares : Bool) (d : Nat) : Option (Nat × Nat × Bool) :=
  match s.wr.rowBlocks.find? (fun r => decide (r.set = set) && decide (r.die = d) && decide (r.gen = g.num) && !r.victim
      && !r.released && decide (r.rows.length < s.wordLines) && !s.retiredMember r g
      && (spares || decide (r.block < 2048 - s.get (K.setSetSpareReserve set)))) with
  | some r => some (r.block, r.rows.length, false)
  | none => (if spares then s.firstSpare set g d else s.firstErased set g d).map (fun b => (b, 0, true))

/-- The next die number in the rotation that has a place for a row: die, block, word line, whether the row block is new. A die number without
a place is passed over, as one that R174 skips is; the manual names the next die number modulo 16 only (DESIGN CHOICE, log entry 134). -/
def State.findPlace (s : State) (set : Nat) (g : GenRec) : Option (Nat × Nat × Nat × Bool) :=
  let tries := (List.range 16).map (fun i => ((s.sset set).nextDie + i) % 16)
  let look := fun (spares : Bool) =>
    tries.findSome? (fun d => if g.opensAt d then (s.nextPlace set g spares d).map (fun x => (d, x)) else none)
  match look false with
  | some x => some x
  | none => if (s.sset set).walk.isSome then look true else none

/-- The generation's record is durable, so that its rows may be opened (R176). -/
def State.genDurable (s : State) (set num : Nat) : Bool := (SMap.getD s.nv.gens set []).any (fun g => g.num = num)

/-- A position of the current generation has been lost and is not absent from it yet: no row opens before the generation in which it is, also while that
waits for a free record, so that the member is absent from every row opened after its loss (R27, R176, R180, R184; log entry 145). -/
def State.awaitsGeneration (s : State) (set : Nat) : Bool :=
  decide ((s.sset set).lossPending ≠ []) || ((s.sset set).owed.isSome && (match s.curGen set with
    | some g => (g.channels.zip g.absent).any (fun e => (List.range 16).any (fun d => !e.2.testBit d && s.memberLost e.1 d))
    | none => false))

/-- Opens the next row of a set on the next die number that has at most two absent positions and a place (R127, R129, R174). -/
def openRow (set : Nat) (s : State) : Option State :=
  (s.curGen set).bind (fun g =>
    if s.genDurable set g.num = false || s.awaitsGeneration set then none
    else (s.findPlace set g).map (fun (d, b, w, fresh) =>
      let t := s.sset set
      let s := s.when fresh (fun s =>
        let rb : RowBlock :=
          { set := set, die := d, block := b, gen := g.num, rows := [], failedRows := [], failedAt := none, oldestAt := none,
            refreshAt := none, wearAt := none, victim := false, released := false }
        let s := { s with wr := { s.wr with rowBlocks := s.wr.rowBlocks ++ [rb] } }
        s.over (g.channelsAt d) (fun s c =>
          s.when (s.memberBlock c d b = b) (fun s => s.modHrec (32768 * c + 2048 * d + b) (fun h => { h with state := 1 }))))
      let s := s.modRowBlock set d b (fun r => { r with rows := r.rows ++ [(t.nextRow, w)] })
      let n := (g.dataPresent d b w).length
      let row : Row :=
        { set := set, row := t.nextRow, gen := g.num, die := d, block := b, wl := w, taken := 0, partly := [],
          pAcc := List.replicate 64 0, qAcc := List.replicate 64 0, lastTake := s.now, dataInLeft := n,
          parityIn := (g.present d).length - n, progsLeft := (g.present d).length, parityLeft := (g.present d).length - n, parityIssued := false, seqLast := 0 }
      let s := s.modSet set (fun t => { t with rows := t.rows ++ [row], nextRow := t.nextRow + 1, nextDie := (d + 1) % 16 })
      s.when fresh (updateStalled set)))

/-- The row of a set that still takes data members. -/
def State.takingRow (s : State) (set : Nat) : Option (Row × GenRec × List Nat) :=
  (s.sset set).rows.findSome? (fun r =>
    (s.genRec set r.gen).bind (fun g =>
      let ps := g.dataPresent r.die r.block r.wl
      if r.taken < ps.length then some (r, g, ps) else none))

/-- Changes a row of a set. -/
def State.modRow (s : State) (set row : Nat) (f : Row → Row) : State :=
  s.modSet set (fun t => { t with rows := mapIf (fun r => r.row = row) f t.rows })

/-- A filler page (R128). -/
def fillerPage : ProgPage :=
  { sunit := none, staged := none, shadow := none, payloads := List.replicate 4 fillerPayload, filler := true }

/-- Takes the staged unit of a slot into page t of a member program: a host unit gets its Place record and Sequence and its
entry turns to in program; a relocated unit keeps its entry and metadata (R123, R127, R509). -/
def takeUnit (pma k : Nat) (s : State) : ProgPage × State :=
  match SMap.find? s.wr.slots k with
  | none => (fillerPage, s)
  | some u =>
    let used := s.wr.shadows.map (fun e => e.1)
    let j := (freeNumbers used 0 65536 1).headD 0
    -- The entry is written anew, so it is unreadable no longer (R277).
    let s := s.modDram (fun x => { x with badShadows := x.badShadows.filter (fun b => b ≠ j) })
    match u.source with
    | some _ =>
      ({ sunit := some u, staged := some k, shadow := some j, payloads := u.frames, filler := false },
       { s with wr := { s.wr with shadows := SMap.insert s.wr.shadows j u } })
    | none =>
      let seq := s.get K.journalSequence
      let u := { u with frames := u.frames.map (fun p => setSeq p seq), seq := seq }
      let s := appendJournal { kind := .place, set := u.set, lui := u.lui, tag := 0, loc := pma, count := 0, first := 0 } s
      let s := { s with wr := { s.wr with shadows := SMap.insert s.wr.shadows j u } }
      let s := s.when (s.entry u.set u.lui = stagedLoc k) (setEntry u.set u.lui (shadowLoc j))
      ({ sunit := some u, staged := some k, shadow := some j, payloads := u.frames, filler := false }, s)

/-- Folds a member's pages into the accumulators (R127, R131); filler folds as zero (R128). -/
def foldPages (index : Nat) (q : Bool) (acc : List Payload) (pages : List ProgPage) : List Payload :=
  (acc.zip (List.range 64)).map (fun e =>
    let pg := nth pages (e.2 / 4) fillerPage
    if pg.filler then e.1 else e.1 ^^^ (if q then mulGPow index (nth pg.payloads (e.2 % 4) 0) else nth pg.payloads (e.2 % 4) 0))

/-- The row blocks of a set that hold a row. -/
def State.blockOfRow (s : State) (set row : Nat) : Option RowBlock :=
  s.wr.rowBlocks.find? (fun r => r.set = set && r.rows.any (fun x => x.1 = row))

/-- Erased blocks of a member's die that rows may use: below the spares, every one that is not listed otherwise (R129, R143). -/
def State.erasedOn (s : State) (set c d : Nat) : Nat :=
  let n := 2048 - s.get (K.setSetSpareReserve set)
  let mine := fun (i : Nat) => decide (i / 2048 = dieKey c d) && decide (i % 2048 < n)
  let listed := (s.fl.harvest.filter (fun e => mine e.1)).map (fun e => e.1)
  let spared := (s.wr.spareMap.filter (fun e => mine e.1 && (SMap.find? s.fl.harvest e.1).isNone)).map (fun e => e.1)
  n - ((listed ++ spared).filter (fun i => !s.blockErased c d (i % 2048))).length

/-- ErasedRowBlocks (R143): erased blocks available for rows, the lowest over all member channels and dies on which rows are opened. -/
def State.erasedLowest (s : State) (set : Nat) : Nat :=
  match s.curGen set with
  | none => 0
  | some g =>
    match (List.range 16).flatMap (fun d => if g.opensAt d then (g.channelsAt d).map (fun c => s.erasedOn set c d) else []) with
    | [] => 0
    | a :: l => l.foldl min a

/-- Harvest's copy is urgent: few erased row blocks are left, or none for a row (R242). -/
def State.harvestUrgent (s : State) (set : Nat) : Bool :=
  decide (s.erasedLowest set ≤ s.get K.harvestUrgent) || decide (s.get (K.setWriteStalled set) = 1)

/-- Class in which a unit's data moves (R183, R207, R242). R183 gives the class of a walk's work at Protection 1 and 2 only; at Protection 0 and 3
(a reshape, a rebuild after data loss) it moves as background here (DESIGN CHOICE, log entry 138). -/
def State.unitClass (s : State) (u : SUnit) : Nat :=
  match u.origin with
  | .walk => if s.get (K.setProtection u.set) = 2 then 1 else 3
  | .harvest => if s.harvestUrgent u.set then 1 else 3
  | .transfer => 3
  | _ => 1

/-! ## Background budget (R139) -/

/-- A unit that a failed or cut program held back stands superseded: its entry names its shadow no longer (R123). -/
def State.staleReturn (s : State) (u : SUnit) (shadow : Option Nat) : Bool :=
  match u.source, shadow with
  | none, some j => decide (s.entry u.set u.lui ≠ shadowLoc j)
  | _, _ => false

/-- Releases a program shadow. -/
def releaseShadow (shadow : Option Nat) (s : State) : State :=
  match shadow with | some j => s.modWr (fun w => { w with shadows := SMap.erase w.shadows j }) | none => s

/-- Puts a returning unit into a free background slot: a host unit's entry moves from in program to staged with a Stage record of tag and
count zero; a relocated unit returns with no record (R123, R139, R509); none while the entry's burst is being recovered (R277). A superseded one is released, and so settled, without a program (R82). -/
def placeReturned (u : SUnit) (shadow : Option Nat) (s : State) : Option State :=
  if s.staleReturn u shadow then
    some (settle u.ticket (releaseShadow shadow (s.when (u.origin = .replay) replayPlaced)))
  else if s.entryWaits u.set u.lui then none
  else
    (takeBackSlot (if u.source.isNone && u.origin ≠ .replay then { u with origin := .returned } else u) s).map (fun (k, s) =>
      -- A reloaded unit that no row has taken yet still has its Stage record (R349).
      let s := s.when (u.source.isNone && (decide (u.origin ≠ .replay) || decide (u.seq ≠ 0)))
        (appendJournal { kind := .stage, set := u.set, lui := u.lui, tag := 0, loc := stagedLoc k, count := 0, first := 0 })
      releaseShadow shadow (s.when u.source.isNone (setEntry u.set u.lui (stagedLoc k))))

/-- Sends a unit back to staging through the background budget; it waits, keeping its shadow, behind the units that already wait (R139). -/
def returnUnit (u : SUnit) (shadow : Option Nat) (s : State) : State :=
  match (if s.wr.returning = [] || s.staleReturn u shadow then placeReturned u shadow s else none) with
  | some s => s
  | none => s.modWr (fun w => { w with returning := w.returning ++ [(u, shadow)] })

/-! ## Units that a transfer brings (R436) -/

/-- Sends a packet of the peer ring that carries nothing but its header. -/
def sendPeer (port typ tag status dest hops argument duo1 : Nat) (broadcast : Bool) (subtype : Nat) (s : State) : State :=
  let p : PeerPacket :=
    { typ := typ, tag := tag, status := status, source := s.get K.deviceNumber, dest := dest, broadcast := broadcast, west := decide (port = 2),
      hops := hops, generation := s.get K.rosterGeneration, subtype := subtype, argument := argument, duo1 := duo1, words := [], frame := 0 }
  sendPacket port (.peer p) s

/-- Acknowledges a transferred unit to its source, toward where it came from: 0 committed, 1 superseded, 2 refused (R420, R436). -/
def ackTransfer (source port lui status : Nat) (s : State) : State := sendPeer port 0x15 0 status source 15 0 lui false 0 s

/-- Commits a unit whose frames have all come, if the entry still holds the value recorded at its first frame: a transition to Staged, or a
Trim; none while no background slot is free for it in its turn (R436, R139) or the entry's burst is being recovered (R277). -/
def commitTransfer (x : XferUnit) (s : State) : Option State :=
  if s.entryWaits x.set x.lui then none
  else if s.entry x.set x.lui ≠ x.entry then some (ackTransfer x.source x.port x.lui 1 s)
  else if s.journalRoom = 0 then none
  else if x.empty then
    let s := supersede x.set x.lui s
    let s := appendJournal { kind := .trim, set := x.set, lui := x.lui, tag := 0, loc := noLoc, count := 0, first := 0 } s
    some (ackTransfer x.source x.port x.lui 0 (setEntry x.set x.lui noLoc s))
  else
    let u : SUnit :=
      { set := x.set, lui := x.lui, frames := (List.range 4).map (fun f => SMap.getD x.frames f 0), tag := 0, seq := 0, origin := .transfer,
        source := none, ticket := s.get K.journalSequence, stripe := 0 }
    match (if s.wr.returning = [] && s.wr.waitingUnits = [] then takeBackSlot u s else none) with
    | none => none
    | some (k, s) =>
      let s := supersede x.set x.lui s
      let s := appendJournal { kind := .stage, set := x.set, lui := x.lui, tag := 0, loc := stagedLoc k, count := 0, first := 0 } s
      some (ackTransfer x.source x.port x.lui 0 (setEntry x.set x.lui (stagedLoc k) s))

/-- All frames of a transferred unit have come. -/
def XferUnit.complete (x : XferUnit) : Bool := x.empty || decide (x.frames.length = 4)

/-- Commits the transferred units that are complete, oldest first, while slots are free. -/
def commitTransfers (s : State) : State :=
  s.over (s.grp.arriving.filter XferUnit.complete) (fun s x =>
    match commitTransfer x s with
    | some t => { t with grp := { t.grp with arriving := t.grp.arriving.erase x } }
    | none => s)

/-- BACKGROUND_SLOT_FREE (R139): the next waiting returning unit takes the free slot, ahead of walk, Harvest and transfer units. -/
def execBackgroundSlotFree (s : State) : Res :=
  .next (if s.backFree = 0 then s
    else match s.wr.returning with
      | (u, j) :: r => (placeReturned u j (s.modWr (fun w => { w with returning := r }))).getD s
      | [] =>
        match s.wr.waitingUnits with
        | u :: r =>
          let s := { s with wr := { s.wr with waitingUnits := r } }
          (match takeBackSlot u s with | some (_, s) => s | none => s)
        | [] => commitTransfers s)

/-- Stages a relocated unit through the background budget, or lets it wait in its turn (R139). -/
def stageBackground (u : SUnit) (s : State) : State :=
  if s.wr.waitingUnits = [] ∧ s.wr.returning = [] then
    match takeBackSlot u s with
    | some (_, s) => s
    | none => { s with wr := { s.wr with waitingUnits := s.wr.waitingUnits ++ [u] } }
  else { s with wr := { s.wr with waitingUnits := s.wr.waitingUnits ++ [u] } }

/-! ## End of member programs (R123, R139, R509) -/

/-- One page of a member program has passed: a host unit's entry turns from in program to its page, a relocation commits if the
entry still holds its source; the shadow is released (R123, R24, R509). -/
def commitPage (pma : Nat) (pg : ProgPage) (s : State) : State :=
  let s := match pg.shadow with | some j => { s with wr := { s.wr with shadows := SMap.erase s.wr.shadows j } } | none => s
  match pg.sunit with
  | none => s
  | some u =>
    match u.source with
    | none =>
      let s := match pg.shadow with
        | some j => s.when (s.entry u.set u.lui = shadowLoc j) (setEntry u.set u.lui pma)
        | none => s
      let s := s.when (u.origin = .replay) replayPlaced
      settle u.ticket s
    | some src =>
      let moved := decide (s.entry u.set u.lui = src)
      let s := if moved then
          setEntry u.set u.lui pma
            (appendJournal { kind := .relocate, set := u.set, lui := u.lui, tag := 0, loc := pma, count := 0, first := 0 } s)
        else s
      let s := s.when (u.origin = .harvest) (fun s => s.inc (if moved then K.unitsCopied else K.copyDiscarded))
      -- The victim that it leaves, whether Harvest or a walk moved it, is erased once its record is durable (R243 step 4).
      let left : Bool := match (s.sset u.set).victim, s.rowOfPma src with
        | some (d, b, _), some r => decide (r.1.die = d) && decide (r.1.block = b)
        | _, _ => false
      s.modSet u.set (fun t =>
        let t := if left then { t with victimSeq := s.get K.journalSequence } else t
        let done := fun (w : Walk) =>
          { w with moving := w.moving.filter (fun m => m ≠ (u.stripe, u.lui)), needSeq := s.get K.journalSequence }
        { t with walk := t.walk.map done, paused := t.paused.map done })

/-- One page of a member program has passed; the transition of a unit whose entry's burst is being recovered is held (R277). -/
def pagePassed (p : MemberProg) (t : Nat) (pg : ProgPage) (s : State) : State :=
  let pma := s.memberPma p.channel p.die p.block p.wl t
  if (match pg.sunit with | some u => s.entryWaits u.set u.lui | none => false) then
    s.modWr (fun w => { w with heldMoves := w.heldMoves ++ [(pma, pg)] })
  else commitPage pma pg s

/-- Held transitions whose entries have been recovered commit, or not, by their starting values (R123, R277). -/
def commitHeld (s : State) : State :=
  let go := s.wr.heldMoves.filter (fun e => match e.2.sunit with | some u => !s.entryWaits u.set u.lui | none => true)
  let s := s.modWr (fun w => { w with heldMoves := w.heldMoves.filter (fun e => !go.contains e) })
  s.over go (fun s e => commitPage e.1 e.2 s)

/-- A row block that takes no further row and has none open is closed: State 2 on its members (R238, R240). -/
def markClosed (set : Nat) (rb : RowBlock) (s : State) : State :=
  let openRows := (s.sset set).rows.any (fun r => decide (r.die = rb.die) && decide (r.block = rb.block))
  match s.genRec set rb.gen with
  | none => s
  | some g =>
    if openRows || (decide (rb.rows.length < s.wordLines) && decide (s.get (K.setGeneration set) = rb.gen) && !s.retiredMember rb g) then s
    else s.over (g.channelsAt rb.die) (fun s c =>
        s.modHrec (32768 * c + 2048 * rb.die + s.memberBlock c rb.die rb.block) (fun h => if h.state = 1 then { h with state := 2 } else h))

/-- A row ends when all its member programs have ended. -/
def memberEnded (p : MemberProg) (s : State) : State :=
  let s := s.modRow p.set p.row (fun r => { r with progsLeft := r.progsLeft - 1 })
  match (s.sset p.set).rows.find? (fun r => r.row = p.row) with
  | some r =>
    if r.progsLeft = 0 then
      let s := s.modSet p.set (fun t => { t with rows := t.rows.filter (fun r => r.row ≠ p.row) })
      let s := s.when (decide (0 < s.get (K.setProtection p.set))) (updateProtection p.set)
      (match s.rowBlock p.set r.die r.block with | some rb => markClosed p.set rb s | none => s)
    else s
  | none => s

/-- Sets the write tag of a die-block at the first program into it (R235). -/
def tagProgram (c d k : Nat) (slc : Bool) (minute temp : Nat) (s : State) : State :=
  let i := 32768 * c + 2048 * d + k
  let tag := SMap.getD s.fl.tags i noLoc
  if tag ≠ noLoc ∧ tag % 16 ≠ 0 then s
  else
    let mode := if slc then 3 else if tag ≠ noLoc ∧ minute - tag / 4096 ≤ s.get K.dwellLimit then 1 else 2
    let t := (max 0 (min 255 (s20 temp / 16 + 64))).toNat
    { s with fl := { s.fl with tags := SMap.insert s.fl.tags i (minute % 2 ^ 28 * 4096 + t * 16 + mode) } }

/-- The pages that a member program leaves on its die (R127, R132, R135). -/
def writeMember (p : MemberProg) (s : State) : State :=
  let tag := s.tagFor p.channel p.die p.block false
  s.over (p.pages.zip (List.range 16)) (fun s e =>
    let (pg, t) := e
    let pma := s.memberPma p.channel p.die p.block p.wl t
    let seq := match pg.sunit with
      | some u => u.seq
      | none => (((s.sset p.set).rows.find? (fun r => r.row = p.row)).map (fun r => r.seqLast)).getD 0
    let width := match s.genRec p.set p.gen with | some g => g.width | none => 0
    let h := encodeHeader
      { kind := if p.index = 0x3E then 2 else if p.index = 0x3F then 3 else if pg.filler then 4 else 1,
        set := p.set, position := p.position, width := width, index := p.index, calends := tag, generation := p.gen,
        row := p.row, lui := (pg.sunit.map (fun u => u.lui)).getD 0, tag := (pg.sunit.map (fun u => u.tag)).getD 0, seq := seq }
    s.modFl (fun x =>
      { x with media := SMap.insert x.media (pmaPlace pma) { bits := encodePage pma pg.payloads h, slc := false } }))

/-- A P or Q program passes: RowsProgrammed counts the row once none of its parity members is left (R143). -/
def parityPassed (p : MemberProg) (s : State) : State :=
  match (s.sset p.set).rows.find? (fun r => r.row = p.row) with
  | some r =>
    (s.modRow p.set p.row (fun r => { r with parityLeft := r.parityLeft - 1 })).when (decide (r.parityLeft = 1)) (fun s =>
      s.inc (K.setRowsProgrammed p.set))
  | none => s

/-- A member program passes: the pages are on media, entries commit, and the die-block is tagged (R123, R137, R235). -/
def memberPassed (p : MemberProg) (s : State) : State :=
  let s := tagProgram p.channel p.die p.block false p.started p.temp s
  let s := (writeMember p s).when (decide (0x3E ≤ p.index)) (parityPassed p)
  let s := s.over (p.pages.zip (List.range 16)) (fun s e => pagePassed p e.2 e.1 s)
  memberEnded p s

/-- Retires a die-block: no row uses it again (R139, R211), so its set may have no erased row block left (R143). -/
def retireBlock (c d k : Nat) (s : State) : State :=
  updateStalled (s.get (K.chStripeSet c)) (s.modHrec (32768 * c + 2048 * d + k) (fun h => { h with state := 4 }))

/-- What a failed member program leaves (R139): its units return to staging, the row counts a lost member until Harvest reclaims it ahead of
its score; with `retire` the block is retired and the failure counted, without it (an abort, a cut, a lost member) it is not. -/
def failMember (p : MemberProg) (retire : Bool) (s : State) : State :=
  let s := s.when retire (fun s => retireBlock p.channel p.die p.block (s.inc K.programFailures))
  let s := match s.blockOfRow p.set p.row with
    | some rb =>
      let s := s.modRowBlock p.set rb.die rb.block (fun r =>
        { r with failedRows := if r.failedRows.contains (p.wl, p.position) then r.failedRows else r.failedRows ++ [(p.wl, p.position)],
                 failedAt := some (r.failedAt.getD s.now) })
      (match s.genRec p.set p.gen with
      | some g => s.over (g.present rb.die) (fun s pos =>
          let c := nth g.channels pos 127
          s.modHrec (32768 * c + 2048 * rb.die + s.memberBlock c rb.die rb.block) (fun h => { h with failed := true }))
      | none => s)
    | none => s
  let s := s.over p.pages (fun s pg =>
    match pg.sunit with
    | some u =>
      let s := match pg.staged with | some k => freeSlot k s | none => s
      returnUnit u pg.shadow s
    | none => s)
  memberEnded p s

/-! ## P and Q programs (R127) -/

/-- Payloads of the 16 pages of a parity member. -/
def accPages (acc : List Payload) : List ProgPage :=
  (List.range 16).map (fun t =>
    { sunit := none, staged := none, shadow := none, payloads := (List.range 4).map (fun f => nth acc (4 * t + f) 0), filler := false })

/-- The last data member's data-in has ended: the P and Q member programs are issued (R127). One for a member that is lost ends at once, as a
failed one that retires nothing (R139, R180). -/
def issueParity (set row : Nat) (s : State) : State :=
  match (s.sset set).rows.find? (fun r => r.row = row) with
  | none => s
  | some r =>
    match s.genRec set r.gen with
    | none => s
    | some g =>
      let (p, q) := g.parity r.die r.block r.wl
      let mk := fun (pos idx : Nat) (acc : List Payload) (s : State) =>
        let c := nth g.channels pos 127
        let prog : MemberProg :=
          { set := set, row := row, gen := r.gen, position := pos, index := idx, channel := c, die := r.die,
            block := s.memberBlock c r.die r.block, wl := r.wl, pages := accPages acc, burst := 0, started := 0, temp := 0 }
        if s.memberLost c r.die then failMember prog false (s.modRow set row (fun r => { r with parityIn := r.parityIn - 1 }))
        else pushProg c r.die (.member prog) s
      mk q 0x3F r.qAcc (mk p 0x3E r.pAcc (s.modRow set row (fun r => { r with parityIssued := true })))

/-- The data-in of a member program is over, at its sixteenth burst or cut short: with that of the last data member P and Q are issued, and
with that of both the row's accumulators are released (R127). -/
def dataInOver (p : MemberProg) (s : State) : State :=
  if p.index < 0x3E then
    let s := s.modRow p.set p.row (fun r => { r with dataInLeft := r.dataInLeft - 1 })
    match (s.sset p.set).rows.find? (fun r => r.row = p.row) with
    | some r => if r.dataInLeft = 0 ∧ r.parityIssued = false ∧ s.mode ≠ 5 then issueParity p.set p.row s else s
    | none => s
  else s.modRow p.set p.row (fun r => { r with parityIn := r.parityIn - 1 })

/-- A member program fails or is cut short (R139); one that is cut before its sixteenth burst takes in no more data, and its row goes on to
its P and Q without it. -/
def memberFailed (p : MemberProg) (retire : Bool) (s : State) : State :=
  failMember p retire (if p.burst < 16 then dataInOver p s else s)

/-! ## Taking data members (R127, R128) -/

/-- A parity mismatch met while staging feeds a page of a member program (R91): the page carries its unit's blocks as carried losses, in the
shadow too, and the unit's blocks are recorded as lost. -/
def losePage (set row pos t : Nat) (pg : ProgPage) (s : State) : ProgPage × State :=
  match pg.sunit with
  | none => (pg, s)
  | some u =>
    let frames := (List.range 4).map (fun f => setSeq (carriedLoss (4 * u.lui + f)) u.seq)
    let u' := { u with frames := frames }
    let s := match pg.shadow with
      | some j => s.modWr (fun w => { w with shadows := SMap.insert w.shadows j u' })
      | none => s
    let s := match s.blockOfRow set row with
      | some rb =>
        (match s.genRec set rb.gen, rb.rows.find? (fun x => x.1 = row) with
        | some g, some (_, w) => declareStagingLoss { rb := rb, gen := g, wl := w, page := t } pos u.lui s
        | _, _ => s)
      | none => s
    ({ pg with sunit := some u', payloads := frames }, s)

/-- Takes units into the first pages of a member program and completes it with filler (R127, R128). The parity check of stripe assembly may
fail for one page, before it is folded (R12, R91). -/
def takePages (r : Row) (c k pos : Nat) (units : List Nat) (parityBad : Option Nat) (s : State) : List ProgPage × State :=
  let s := s.modSet r.set (fun t => { t with queue := t.queue.filter (fun x => !units.contains x) })
  let (pages, s) := (units.zip (List.range 16)).foldl (fun (a : List ProgPage × State) e =>
    let (pg, s) := takeUnit (s.memberPma c r.die k r.wl e.2) e.1 a.2
    let (pg, s) := if parityBad = some e.2 then losePage r.set r.row pos e.2 pg (integrityError 2 0 s) else (pg, s)
    (a.1 ++ [pg], s)) ([], s)
  let fill := 16 - pages.length
  -- The filler pages of a lost member are not programmed, and not counted (R128, R174).
  (pages ++ List.replicate fill fillerPage, s.when (!s.memberLost c r.die) (fun s => s.add K.fillerPages fill))

/-- Takes the next data member of a row: its units are streamed to its die and folded into P and Q (R127). A member that is lost takes no
unit: its program ends at once, as a failed one that retires nothing (R139, R180; log entry 136). -/
def takeMember (r : Row) (g : GenRec) (ps : List Nat) (units : List Nat) (parityBad : Option Nat) (s : State) : State :=
  let pos := nth ps r.taken 0
  let c := nth g.channels pos 127
  let k := s.memberBlock c r.die r.block
  let idx := g.dataIndex r.die r.block r.wl pos
  let lost := s.memberLost c r.die
  let (pages, s) := takePages r c k pos (if lost then [] else units) parityBad s
  let last := (pages.filterMap (fun p => p.sunit.map (fun u => u.seq))).getLast?.getD r.seqLast
  let prog : MemberProg :=
    { set := r.set, row := r.row, gen := r.gen, position := pos, index := idx, channel := c, die := r.die, block := k, wl := r.wl,
      pages := pages, burst := 0, started := 0, temp := 0 }
  let s := s.modRow r.set r.row (fun r =>
    { r with taken := r.taken + 1, lastTake := s.now, seqLast := last,
             cls := (pages.filterMap (fun p => p.sunit.map s.unitClass)).foldl min r.cls, pAcc := foldPages idx false r.pAcc pages,
             qAcc := foldPages idx true r.qAcc pages })
  if lost then memberFailed prog false s else pushProg c r.die (.member prog) s

/-- A die can take a member program now (R127, R218): nothing in progress or queued that writes; a lost member never holds its row up. -/
def State.dieFreeFor (s : State) (c d : Nat) : Bool :=
  s.memberLost c d || ((s.die c d).cur = none && (s.die c d).progs = [] && s.get (K.chState c) = 2 && s.get (K.chDieState c d) = 1)

/-- The row's accumulators are held: until the data-in of both parity programs has ended (R114, R127). -/
def Row.holdsAcc (r : Row) : Bool := decide (r.dataInLeft ≠ 0) || decide (r.parityIn ≠ 0)

/-- Ensures a row that takes data members, if a place and accumulators allow: at most two rows hold accumulators (R114). -/
def ensureRow (set : Nat) (s : State) : State :=
  match s.takingRow set with
  | some _ => s
  | none =>
    if 2 ≤ ((s.sset set).rows.filter Row.holdsAcc).length then s
    else match openRow set s, s.curGen set with
      | some s, _ => s
      | none, some g =>
        if s.genDurable set g.num = false || s.substituting set then s
        else
          (match s.canSubstitute set g with
          | some (d, b, cs) => substitute set d b cs s
          | none => s)
      | none, none => s

/-- Queued units that may be taken into a row: a row in spare die-blocks takes a walk's units only (R178); one whose entry's burst is being recovered
waits (R277). -/
def State.rowQueue (s : State) (set : Nat) (r : Row) : List Nat :=
  let q := (s.sset set).queue.filter (fun k => match SMap.find? s.wr.slots k with | some u => !s.entryWaits u.set u.lui | none => true)
  if r.block < 2048 - s.get (K.setSetSpareReserve set) then q
  else q.filter (fun k => match SMap.find? s.wr.slots k with | some u => u.origin = .walk | none => false)

/-- Fills the rest of a row that takes data members: the units still queued, then filler (R128); `take` is false for the close of
a former generation, which takes no further unit (R176). The parity check can fail in the first member taken (R12, R91). -/
def fillRow (take : Bool) (set row : Nat) : Nat → Option Nat → State → State
  | 0, _, s => s
  | n + 1, parityBad, s =>
    match s.takingRow set with
    | some (r, g, ps) =>
      if r.row = row then fillRow take set row n none (takeMember r g ps (if take then (s.rowQueue set r).take 16 else []) parityBad s) else s
    | none => s

/-- Closes the row of a set that takes data members (R128). -/
def closeRow (take : Bool) (parityBad : Option Nat) (set : Nat) (s : State) : State :=
  match s.takingRow set with
  | some (r, _, _) => fillRow take set r.row 48 parityBad s
  | none => s

/-- The next row opens once the last data member of the current one has been taken (R127). -/
def openNext (set : Nat) (s : State) : State := if (s.sset set).rows = [] ∨ s.get (K.setState set) = 0 then s else ensureRow set s

/-- An early close of the open row takes a unit into its last data member: more are queued than the members before it hold. -/
def State.closeTakesLast (s : State) (set : Nat) : Bool :=
  match s.takingRow set with
  | some (r, g, ps) =>
    let before := ((ps.drop r.taken).dropLast).filter (fun p => !s.memberLost (nth g.channels p 127) r.die)
    decide (16 * before.length < (s.rowQueue set r).length)
  | none => false

/-- Closes the open row early (R128). The next row opens with it only where its last data member has taken a unit (R127; log entry 137). -/
def closeEarly (parityBad : Option Nat) (set : Nat) (s : State) : State :=
  (closeRow true parityBad set s).when (s.closeTakesLast set) (openNext set)

/-- The set's open row is to be closed early and may hold or take something: units are taken into it or queued for it (R128; log entry 137). -/
def State.mayClose (s : State) (set : Nat) : Bool :=
  match s.takingRow set with
  | some (r, _, _) => decide (r.taken ≠ 0) || decide (s.rowQueue set r ≠ [])
  | none => false

/-- Free program shadows for n units, and journal room for their records: Place now, and Stage or Relocate later (R19, R113, R137). -/
def State.roomToTake (s : State) (n : Nat) : Bool := decide (s.wr.shadows.length + n ≤ 65536) && decide (2 * n ≤ s.journalRoom)

/-- Room for the 16 units of a member program (R137). -/
def State.shadowsFree (s : State) : Bool := s.roomToTake 16

/-- Room for the units of a whole row, at most 46 data members (R173). -/
def State.closeRoom (s : State) : Bool := s.roomToTake 736

/-- MEMBER_PROGRAM_TAKE (R127): the die of the next data member is free and 16 units are queued; they are taken, and with the row's last
data member the next row opens. A FLUSH pending on the set, a bank that is low, or an orderly reset, closes the whole open row with what is
queued (R128, R371, R434). `take.parityBad` names a page whose beats fail the parity check of stripe assembly (R12, R91). -/
def execMemberProgramTake (take : MemberTake) (s : State) : Res :=
  let set := take.set
  let parityBad := take.parityBad
  .next (
    let q := (s.sset set).queue
    if s.get (K.setState set) = 0 ∨ (q = [] ∧ (s.takingRow set).isNone) then s
    else
      let s := if q = [] then s else ensureRow set s
      match s.takingRow set with
      | none => s
      | some (r, g, ps) =>
        let flush := (s.sset set).flushes ≠ [] ∨ s.wr.admitStop ∨ s.grp.preparing
        let c := nth g.channels (nth ps r.taken 0) 127
        let q := s.rowQueue set r
        if s.shadowsFree = false then s
        else if 16 ≤ q.length then
          if s.dieFreeFor c r.die then openNext set (takeMember r g ps (q.take 16) (parityBad.map Fin.val) s) else s
        else if flush ∧ s.mayClose set ∧ s.closeRoom then closeEarly (parityBad.map Fin.val) set s
        else s)

/-- ROW_CLOSE_DELAY (R128): no unit has been taken into the open row for RowCloseDelay; it is completed with filler. -/
def execRowCloseDelay (set : Fin 8) (s : State) : Res :=
  .next (if s.mayClose set ∧ s.closeRoom then closeEarly none set s else s)

/-- A WRITE to the set of the ring of a FLUSH, acknowledged before the FLUSH was fetched, is not settled yet (R82). -/
def State.flushAwaits (s : State) (o : Op) : Bool :=
  s.wr.unsettled.any (fun u => decide (u.2.1 = s.setOf o.ring) && o.awaits.contains u.1)

/-- FLUSH_SETTLED (R82): every WRITE acknowledged before the FLUSH was fetched has settled. A row that holds units by then is closed before
the FLUSH ends, since it was open while the FLUSH was pending (R128). -/
def execFlushSettled (ring : Fin 8192) (slot : Fin 65536) (s : State) : Res :=
  .next (match s.op ring slot with
    | some o =>
      if descOpcode o.desc = 0x04 ∧ o.phase = .issued ∧ s.flushAwaits o = false then
        let set := plSet (s.get (K.ringPlacement o.ring))
        let s := if ((s.takingRow set).any (fun e => decide (e.1.taken ≠ 0))) ∧ s.closeRoom then closeEarly none set s else s
        let s := s.modSet set (fun t => { t with flushes := t.flushes.filter (fun f => f ≠ (o.ring, o.slot)) })
        finishOp o 0 0 0 s
      else s
    | none => s)

end Sys2Proof.Machine
end

