-- ==== Sys2Proof/Machine/Thresholds.lean ====
section
/-! DEFINITION. Thresholds.lean: read thresholds, ones-density and learning (R157 to R161, R214). -/

namespace Sys2Proof.Machine

/-- Model index of a read (R158): mode slot, age, write temperature, current temperature, erase count. -/
def State.modelIndex (s : State) (pma : Nat) : Nat :=
  let i := s.dieBlock (pmaCh pma) (pmaDie pma) (pmaBlock pma)
  let tag := SMap.getD s.fl.tags i noLoc
  let cl := fun (t : Int) => (min 7 (max 0 ((t + 16) / 16))).toNat
  let t := cl (s20 (s.get (K.chDieTemperature (pmaCh pma) (pmaDie pma))) / 16)
  let e := min 7 ((s.hrec i).erases / 512)
  if tag = noLoc ∨ tag % 16 = 0 then 64 * t + 8 * t + e
  else
    let m := if tag % 16 = 1 then 0 else if tag % 16 = 3 then 1 else 2
    let age := s.get K.calendsNow - tag / 4096
    let a := if age = 0 then 0 else min 31 (Nat.log2 age + 1)
    let w := cl ((tag / 16 % 256 : Nat) - (64 : Int))
    16384 * m + 512 * a + 64 * w + 8 * t + e

/-- Offset M_k of a level from the retention model's entry (R158). -/
def State.modelOffset (s : State) (pma k : Nat) : Int :=
  let v := (nth s.fl.model (s.modelIndex pma) 0).toNat / 2 ^ (10 * (k - 1)) % 1024
  if v < 512 then (v : Int) else (v : Int) - 1024

/-- Programming mode of a page. -/
def State.slcPage (s : State) (pma : Nat) : Bool := ((SMap.find? s.fl.media (pmaPlace pma)).map (fun m => m.slc)).getD false

/-- A page's address with its page number as the fitted model numbers it: the pairing table of its profile, for a QLC or an SLC block (R381). -/
def State.dieAddr (s : State) (pma : Nat) (slc : Bool) : Nat :=
  let page := pmaPage pma
  pma - page + (match (s.chan (pmaCh pma)).profile with | some x => nth (nth x.pageMap (if slc then 1 else 0) []) page page | none => page)

/-- The prefixes that select a page's type, by its place in the pairing of its word line, and its mode, QLC or SLC (R200, R214). -/
def State.pagePrefixes (s : State) (pma : Nat) (slc : Bool) : Byte × Byte :=
  match (s.chan (pmaCh pma)).profile with
  | some x => (nth x.typePrefix (pmaPage pma % 4) 0, nth x.modePrefix (if slc then 1 else 0) 0)
  | none => (0, 0)

/-- A page's data-in as it is issued (R199, R214). -/
def emitProgram (pma : Nat) (slc : Bool) (s : State) : State :=
  let (t, m) := s.pagePrefixes pma slc
  s.emit (.pageProgram (s.dieAddr pma slc) t m)

/-- Levels that a page senses (R200, R214): level 1 for an SLC page, else those of its page type, its place in the word line's pairing. -/
def State.sensedLevels (s : State) (pma : Nat) : List Nat :=
  if s.slcPage pma then [1]
  else match (s.chan (pmaCh pma)).profile with | some x => nth x.levels (pmaPage pma % 4) [] | none => []

/-- Clamps a threshold to the range of the fitted die, never wider than −128 to 127 (R157, R214). -/
def State.clampThreshold (s : State) (c : Nat) (v : Int) : Int :=
  match (s.chan c).profile with
  | some x => max (max (-128) x.low) (min (min 127 x.high) v)
  | none => max (-128) (min 127 v)

/-- The thresholds T_k = M_k + D + B + S of the levels that a page senses, clamped (R157). -/
def State.thresholds (s : State) (pma : Nat) (move : Int) : List (Nat × Int) :=
  (s.sensedLevels pma).map (fun k => (k, s.clampThreshold (pmaCh pma)
    (s.modelOffset pma k + s20 (s.get (K.chThresholdOffset (pmaCh pma) (pmaDie pma)))
      + SMap.getD s.fl.offsetB (s.dieBlock (pmaCh pma) (pmaDie pma) (pmaBlock pma)) 0 + move)))

/-- Thresholds that a read is issued with. Step 3 reads at T − δ, T and T + δ about the thresholds of the last read (R156, R162), and a page read
again after mis-framing keeps its own (R225). -/
def State.readThresholds (s : State) (r : PageRead) : List (Nat × Int) :=
  let base := if (r.step = 3 ∨ r.again ≠ 0) ∧ r.last ≠ [] then r.last else s.thresholds r.pma r.shift
  if r.step = 3 then base.map (fun e => (e.1, s.clampThreshold (pmaCh r.pma) (e.2 + ((r.pass : Int) - 1) * (s.get K.softDelta : Int))))
  else base

/-- Deviation of a ones count from the expected 18,304 (R160). -/
def skewOf (ones : Nat) : Int := (ones : Int) - 18304

/-- A sum of deviations over n frames lies outside the tolerance, DensityTolerance being in 0.01 % of 36,608 bits (R160). -/
def State.outsideTolerance (s : State) (sum : Int) (n : Nat) : Bool :=
  decide (s.get K.densityTolerance * 36608 * n < sum.natAbs * 10000)

/-- The retune move of a mean skew: −round(skew in % × RetuneGain), halves rounded away from zero (R160). -/
def retuneMove (gain : Nat) (sum : Int) (n : Nat) : Int :=
  let num := 100 * gain * sum.natAbs
  let den := 36608 * n
  let r : Nat := (2 * num + den) / (2 * den)
  if 0 < sum then -(r : Int) else (r : Int)

/-- Adds a step-1 frame to its die's learning window; at its end D moves by one step against the mean (R161); not
before the die's survey has ended (R324). -/
def learnDie (c d : Nat) (ones : Nat) (s : State) : State :=
  if s.get K.retuneLearn = 0 ∨ s.cal.due.contains (dieKey c d) then s
  else
    let (sum, n) := SMap.getD s.fl.density (dieKey c d) (0, 0)
    let sum := sum + skewOf ones
    let n := n + 1
    if s.get K.learnWindow ≤ n then
      let s := s.modFl (fun x => { x with density := SMap.insert x.density (dieKey c d) (0, 0) })
      if s.outsideTolerance sum n then
        let k := K.chThresholdOffset c d
        s.set k (to20 (s20 (s.get k) + (if 0 < sum then -1 else 1)))
      else s
    else s.modFl (fun x => { x with density := SMap.insert x.density (dieKey c d) (sum, n) })

/-- A step-2 read passed: B of its die-block becomes B + S, from −8 to 7 (R161). -/
def learnBlock (pma : Nat) (move : Int) (s : State) : State :=
  let i := s.dieBlock (pmaCh pma) (pmaDie pma) (pmaBlock pma)
  let b := max (-8) (min 7 (SMap.getD s.fl.offsetB i 0 + move))
  s.modFl (fun x => { x with offsetB := SMap.put 0 x.offsetB i b })

end Sys2Proof.Machine
end

