-- ==== Sys2Proof/Machine/Recovery.lean ====
section
/-! DEFINITION. Recovery.lean: erasures of a stripe and the recovery of its frames (R179, R186, R187), and loss records with
their notices (R188 to R190). -/

namespace Sys2Proof.Machine

/-! ## Erasures -/

/-- A member of a stripe that is not read: its position is lost, or its program failed in that row (R139, R167). -/
def State.memberErased (s : State) (x : Stripe) (pos : Nat) : Bool :=
  s.positionLost x.rb x.gen pos || x.rb.failedRows.contains (x.wl, pos)

/-- The outcome given for a frame of a member page. -/
def outcomeOf (os : List PageOutcome) (pos f : Nat) : Option PageOutcome :=
  os.find? (fun o => decide (o.position.val = pos) && decide (o.frame.val = f))

/-- The ones count of the first read of a frame; one that the outcomes do not list has the expected count. -/
def outcomeOnes (os : List PageOutcome) (pos f : Nat) : Nat := match outcomeOf os pos f with | some o => o.ones.toNat | none => 18304

/-- Bytes of a page: what was programmed, an erased page, or, in a block whose content is undefined, a free value (R108). -/
def State.pageBits (s : State) (pma : Nat) : BitVec 147456 :=
  match SMap.find? s.fl.media (pmaPlace pma) with
  | some m => m.bits
  | none =>
    match SMap.find? s.fl.undef (pmaPlace pma / 2048) with
    | some i => BitVec.ofNat 147456 (Config.freeNat (i + pmaPage pma))
    | none => erasedPage

/-- Payload of a frame that lies on media. -/
def State.mediaFrame (s : State) (pma f : Nat) : Payload := decodeFrame pma f (s.pageBits pma)

/-- The step that resolved a frame of a member page read for a stripe, 0 for none: one that the outcomes do not list resolved at step 1. A frame
of a data member that fails its DataCrc is resolved by no step (R134, R155). -/
def State.memberStep (s : State) (x : Stripe) (os : List PageOutcome) (pos f : Nat) : Nat :=
  let data := (x.gen.dataPresent x.rb.die x.rb.block x.wl).contains pos
  if data && !dataCrcOk (s.mediaFrame (s.stripePma x pos) f) then 0
  else match outcomeOf os pos f with | some o => o.step.val | none => 1

/-- A member page that is read for its stripe: its position is not lost and the page is not torn (R164, R186). -/
def State.memberRead (s : State) (x : Stripe) (pos : Nat) : Bool :=
  !s.memberErased x pos && !SMap.getD s.fl.torn (pmaPlace (s.stripePma x pos)) false

/-- Pepper may force frames that are read on a channel in a class (R487). -/
def State.eccSelects (s : State) (c cls : Nat) : Bool :=
  s.flag K.pepperEnable && decide (0 < s.get K.eccShare) && (decide (s.get K.eccChannel = c) || decide (s.get K.eccChannel = 255))
    && (s.get K.eccClasses).testBit cls

/-- Draws whether Pepper forces the next frame of those it selects (R487). -/
def eccDraw (s : State) : Bool × State :=
  let hit := decide (Config.pepperDraw (s.get K.pepperSeed) s.rings.pepperDraws % 100 < s.get K.eccShare)
  let s := { s with rings := { s.rings with pepperDraws := s.rings.pepperDraws + 1 } }
  (hit, s.when hit (fun s => s.inc K.eccForced))

/-- The outcomes of member frames with those that Pepper forces: a forced frame fails every step below EccStep, whatever its decode, and at EccStep
the real result stands; one that no step up to 3 then resolves counts as a real erasure (R487, R488). -/
def forceOutcomes (x : Stripe) (cls : Nat) (members fs : List Nat) (os : List PageOutcome) (s : State) : List PageOutcome × State :=
  let frames := members.flatMap (fun p => if s.eccSelects (pmaCh (s.stripePma x p)) cls then fs.map (fun f => (p, f)) else [])
  frames.foldl (fun (a : List PageOutcome × State) e =>
    let (hit, t) := eccDraw a.2
    let real := s.memberStep x os e.1 e.2
    let step := if real = 0 ∨ 4 ≤ s.get K.eccStep then 0 else max real (s.get K.eccStep)
    let o : PageOutcome :=
      { position := Fin.ofNat _ e.1, frame := Fin.ofNat _ e.2, step := Fin.ofNat _ step, ones := BitVec.ofNat 16 (outcomeOnes os e.1 e.2) }
    (if hit then o :: a.1 else a.1, t)) (os, s)

/-- Erased members at a stripe frame position: lost positions, torn pages, pages that hold nothing, and pages that fail step 3
(R164, R186). -/
def State.erasedAt (s : State) (x : Stripe) (f : Nat) (os : List PageOutcome) : List Nat :=
  (x.gen.present x.rb.die).filter (fun pos =>
    !s.memberRead x pos || (SMap.find? s.fl.media (pmaPlace (s.stripePma x pos))).isNone || decide (s.memberStep x os pos f = 0))

/-- The members that recover a frame of one member are the others but Q, and Q too when one of them is erased (R164, R167, R179); answers
whether Q is needed. -/
def State.needsQ (s : State) (x : Stripe) (f pos : Nat) (os : List PageOutcome) : Bool :=
  (s.erasedAt x f os).any (fun e => decide (e ≠ pos) && decide (e ≠ (x.gen.parity x.rb.die x.rb.block x.wl).2))

/-- A data frame as parity counts it: a filler frame is zero in every symbol (R128, R164). -/
def parityView (p : Payload) : Payload := if (metaOf p).kind = 4 then 0 else p

/-- Recovers frame f of a member from the others of its stripe, with the erased members given (R179); none beyond two erasures. -/
def State.recoverFrame (s : State) (x : Stripe) (f pos : Nat) (erased : List Nat) : Option Payload :=
  if 2 < erased.length then none
  else
    let g := x.gen
    let (p, q) := g.parity x.rb.die x.rb.block x.wl
    let data := g.dataPresent x.rb.die x.rb.block x.wl
    let idx := g.dataIndex x.rb.die x.rb.block x.wl
    let live := (data.filter (fun d => !erased.contains d && d ≠ pos)).map (fun d => (idx d, parityView (s.mediaFrame (s.stripePma x d) f)))
    let frame := fun k => if erased.contains k then none else some (s.mediaFrame (s.stripePma x k) f)
    let other := (data.filter (fun d => erased.contains d && d ≠ pos)).head?.map idx
    if pos = p then some (parityP live) else if pos = q then some (parityQ live)
    else recoverData (idx pos) other live (frame p) (frame q)

/-- The frame of a data member: read where it is readable, recovered and checked against its DataCrc where it is not. -/
def State.frameOr (s : State) (x : Stripe) (f pos : Nat) (erased : List Nat) : Option Payload :=
  if erased.contains pos then (s.recoverFrame x f pos erased).bind (fun p => if dataCrcOk p then some p else none)
  else some (s.mediaFrame (s.stripePma x pos) f)

/-- Counts a frame resolved at a ladder step on its channel (R163) and over the module's life (R251). -/
def countLadder (c step : Nat) (s : State) : State := (s.inc (K.chLadderCount c (step - 1))).inc (K.ladderTotal (step - 1))

/-! ## Frame buffers (R151) -/

/-- Frame buffers held by deadline reads, and by the others: with those whose frames wait to be sent. -/
def State.deadlineHeld (s : State) : Nat := s.fl.dlBuffers + s.waitingBuffers true
def State.othersHeld (s : State) : Nat := s.fl.buffers + s.waitingBuffers false

/-- Buffers are free for n frames of a class: 448 of the 4,480 serve deadline reads only. Deadline reads fill those first, and the shared ones
after them, which the manual leaves open (DESIGN CHOICE, log entry 141). -/
def State.buffersFree (s : State) (cls n : Nat) : Bool :=
  if cls = 0 then s.deadlineHeld + s.othersHeld + n ≤ 4480 else s.othersHeld + (s.deadlineHeld - 448) + n ≤ 4032

/-- Keeps the peak of R172 with n buffers more than are held. -/
def notePeak (n : Nat) (s : State) : State :=
  s.set K.reorderPeak (max (s.get K.reorderPeak) (min 4480 (s.deadlineHeld + s.othersHeld + n)))

/-- Members of a stripe can be read now: none of their channels is aborting or training, which a read that needs one waits for (R107). -/
def State.membersRun (s : State) (x : Stripe) (members : List Nat) : Bool :=
  members.all (fun p => let ch := s.chan (pmaCh (s.stripePma x p)); !ch.aborting && ch.training.isNone)

/-- Takes n buffers. -/
def takeBuffers (cls n : Nat) (s : State) : State :=
  notePeak 0 (s.modFl (fun x => if cls = 0 then { x with dlBuffers := x.dlBuffers + n } else { x with buffers := x.buffers + n }))

/-- Releases n buffers. -/
def freeBuffers (cls n : Nat) (s : State) : State :=
  s.modFl (fun x => if cls = 0 then { x with dlBuffers := x.dlBuffers - n } else { x with buffers := x.buffers - n })

/-- Takes every page read of an operation away: from die queues, the bus, the decoders and step 4, with the buffers they hold. An array read
under way ends on its die without effect (R12, R104, R108). -/
def dropReads (ring slot : Nat) (s : State) : State :=
  let mine := s.readsOf ring slot
  let ids := mine.map (fun e => e.1)
  let owned := fun (o : ReadOwner) => match o with
    | .op r k _ => decide (r = ring) && decide (k = slot)
    | .merge r k _ => decide (r = ring) && decide (k = slot)
    | .rescue _ => false
  let s := s.over mine (fun s e => freeBuffers e.2.cls e.2.held s)
  let s := s.over (s.fl.recon.filter (fun e => owned e.owner && !e.degraded)) (fun s e => freeBuffers e.cls 1 s)
  s.modFl (fun x =>
    { x with reads := x.reads.filter (fun e => !ids.contains e.1), recon := x.recon.filter (fun e => !owned e.owner),
             softQ := x.softQ.filter (fun f => !ids.contains f.read),
             chans := x.chans.map (fun e => (e.1, { e.2 with hardQ := e.2.hardQ.filter (fun f => !ids.contains f.read) })),
             dies := x.dies.map (fun e => (e.1, { e.2 with reads := e.2.reads.filter (fun i => !ids.contains i) })) })

/-! ## Member reads (R161 to R164, R172, R215) -/

/-- A page read with its read-offset prefix as it is issued (R199, R200, R214). -/
def emitRead (pma : Nat) (levels : List (Nat × Int)) (s : State) : State :=
  let (t, m) := s.pagePrefixes pma (s.slcPage pma)
  s.emit (.pageRead (s.dieAddr pma (s.slcPage pma)) (match (s.chan (pmaCh pma)).profile with | some x => x.offsetPrefix | none => 0) t m levels)

/-- The three reads of step 3, at T − δ, T and T + δ about the thresholds of the last read (R156, R162). -/
def emitSoft (pma : Nat) (base : List (Nat × Int)) (s : State) : State :=
  s.over ([-1, 0, 1] : List Int) (fun s k =>
    emitRead pma (base.map (fun e => (e.1, s.clampThreshold (pmaCh pma) (e.2 + k * (s.get K.softDelta : Int))))) s)

/-- One member page is read for its stripe and its frames climb steps 1 to 3: the array reads, decodes and skipped step 2 are counted, the
die and the die-block learn, and each resolved frame counts at its step. -/
def readMember (x : Stripe) (fs : List Nat) (os : List PageOutcome) (s : State) (pos : Nat) : State :=
  let pma := s.stripePma x pos
  let (c, d) := (pmaCh pma, pmaDie pma)
  let step := fun f => s.memberStep x os pos f
  let ones := outcomeOnes os pos
  let failed := fs.filter (fun f => step f ≠ 1)
  let out := failed.filter (fun f => step f = 2 || s.outsideTolerance (skewOf (ones f)) 1)
  let soft := fs.filter (fun f => step f = 3 || step f = 0)
  -- Frames that skip step 2 are read for step 3 about the thresholds of step 1, those that fail step 2 about its own (R162).
  let early := soft.filter (fun f => !out.contains f)
  let late := soft.filter (fun f => out.contains f)
  let move := retuneMove (s.get K.retuneGain) ((out.map (fun f => skewOf (ones f))).sum) out.length
  let first := s.thresholds pma 0
  let s := emitRead pma first s
  let s := s.add (K.chPageReads c) (1 + (if out = [] then 0 else 1) + (if early = [] then 0 else 3) + (if late = [] then 0 else 3))
  let s := ((s.add K.hardDecodes (fs.length + out.length)).add K.softDecodes soft.length).add K.step2Skipped (failed.length - out.length)
  let s := notePeak (fs.length + 2 * soft.length) s
  let s := s.over fs (fun s f => learnDie c d (ones f) s)
  let s := s.when (out ≠ []) (fun s => s.modFl (fun x => { x with retunes := (x.retunes ++ [(pma, move)]).drop (x.retunes.length + 1 - 16384) }))
  let second := s.thresholds pma move
  let s := s.when (out ≠ []) (emitRead pma second)
  let s := s.when (early ≠ []) (emitSoft pma first)
  let s := s.when (late ≠ []) (emitSoft pma second)
  let s := s.when (fs.any (fun f => step f = 2)) (learnBlock pma move)
  s.over fs (fun s f => s.when (0 < step f) (countLadder c (step f)))

/-! ## Notices (R190) -/

/-- LOSS_NOTICE (R190): the oldest durable record without a notice is announced on the ring that LossNoticeRing names. -/
def execLossNotice (s : State) : Res :=
  let m := s.get K.lossNoticeRing
  .next (match s.nv.losses.find? (fun r => !r.noticed) with
    | some r =>
      if r.durable ∧ s.flag (K.cringEnable m) ∧ 0 < s.cringFree m ∧ s.mode ≠ 5 then
        let blocks := (r.ranges.map (fun e => e.2)).sum
        let s := s.modNv (fun v =>
          { v with losses := mapIf (fun x => x.number = r.number) (fun x => { x with noticed := true }) v.losses })
        postEntry m (completionBits 3 0 0 0 0 3 5 false false false (4096 * blocks) r.number) s
      else s
    | none => s)

end Sys2Proof.Machine
end

