-- ==== Sys2Proof/Machine/ReadPath.lean ====
section
/-! DEFINITION. ReadPath.lean: READ and the raw opcodes, delivery, the decoders, the retry ladder and degraded reads (Read Path,
Decoding and Thresholds). -/

namespace Sys2Proof.Machine

/-! ## Delivery (R88 to R92, R152) -/

/-- Leading parts of an operation that have been delivered as good. -/
def leadingGood (o : Op) : Nat :=
  ((List.range 1028).find? (fun i => !o.sentParts.contains i || o.bad.any (fun b => b.1 = i))).getD 1028

/-- Bytes of one part of a READ or RAW_READ. -/
def partBytes (o : Op) : Nat := if descOpcode o.desc = 0x01 then 4096 else if (descDuo o.desc 3).testBit 5 then 4160 else 4576

/-- Address that part i of an operation names: LBA of a block, PMA of a frame's page. -/
def partAddress (o : Op) (i : Nat) : Nat := if descOpcode o.desc = 0x01 then descLba o.desc + i else descDuo o.desc 2

/-- Ends a READ or RAW_READ, counting a READ (R172). -/
def endRead (o : Op) (status moved detail : Nat) (s : State) : State :=
  let s := s.when (descOpcode o.desc = 0x01) (fun s => (s.inc K.readsCompleted).when o.degraded (fun s => s.inc K.degradedReads))
  finishOp o status moved detail s

/-- Completes an issued READ or RAW_READ once nothing of it is outstanding (R89, R90): its status is that of the lowest part not delivered
as good. -/
def finishRead (ring slot : Nat) (s : State) : State :=
  match s.op ring slot with
  | none => s
  | some o =>
    if o.left ≠ 0 ∨ o.phase ≠ .issued ∨ ¬(descOpcode o.desc = 0x01 ∨ descOpcode o.desc = 0x10) then s
    else
      match o.bad.foldl (fun (a : Option (Nat × Bool)) b => match a with | some x => if b.1 < x.1 then some b else a | none => some b) none with
      | some (i, torn) =>
        endRead o (if torn then 2 else if descOpcode o.desc = 0x01 then 3 else 5) (s.fullLength o.desc) (partAddress o i) s
      | none => endRead o 0 (s.fullLength o.desc) o.detail s

/-- Stops an operation on a fabric parity mismatch (R12, R89): nothing more of it is read or delivered. -/
def stopIntegrity (ring slot : Nat) (s : State) : State :=
  match s.op ring slot with
  | none => s
  | some o =>
    let s := dropReads ring slot s
    if descOpcode o.desc = 0x01 ∨ descOpcode o.desc = 0x10 then
      endRead o 4 (leadingGood o * partBytes o) (partAddress o (leadingGood o)) s
    else finishOp o 4 0 (integrityDetail o.desc) (dropGather ring slot true s)

/-- Delivers block `lba` of a READ: its data, or 4,096 bytes of 0xFF when it is not good (R90, R152); `buf` where a frame buffer holds it. -/
def deliverBlock (ring slot lba : Nat) (good : Option Block) (torn buf : Bool) (s : State) : State :=
  match s.op ring slot with
  | none => s
  | some o =>
    let i := lba - descLba o.desc
    let v := (good.getD (BitVec.allOnes 32768)).toNat
    let s := hostWrite o.seq o.cls buf (descHost o.desc + 4096 * i) 4096 v s
    let s := s.modOp ring slot (fun o =>
      { o with left := o.left - 1, sentParts := o.sentParts ++ [i], bad := if good.isSome then o.bad else o.bad ++ [(i, torn)] })
    let s := s.inc (if good.isSome then K.blocksDelivered else if torn then K.blocksTorn else K.blocksLost)
    finishRead ring slot s

/-- Place in the host buffer of frame f of a RAW_READ: the selected frames in order (R92). -/
def rawOffset (o : Op) (f : Nat) : Nat := ((List.range f).filter (fun k => (descDuo o.desc 3).testBit k)).length * partBytes o

/-- Delivers frame f of a RAW_READ as `v`, or as 0xFF bytes; `buf` where a frame buffer holds it. -/
def deliverRaw (ring slot f : Nat) (good : Option Nat) (torn buf : Bool) (s : State) : State :=
  match s.op ring slot with
  | none => s
  | some o =>
    let v := good.getD (2 ^ (8 * partBytes o) - 1)
    let s := hostWrite o.seq o.cls buf (descHost o.desc + rawOffset o f) (partBytes o) v s
    let i := rawOffset o f / partBytes o
    let s := s.modOp ring slot (fun o =>
      { o with left := o.left - 1, sentParts := o.sentParts ++ [i], bad := if good.isSome then o.bad else o.bad ++ [(i, torn)] })
    finishRead ring slot s

/-- Delivers the header of a RAW_READ after its frames: as read from the page, or 0xFF bytes after a busy timeout (R90). -/
def deliverHeader (ring slot : Nat) (h : PageHeader) (s : State) : State :=
  match s.op ring slot with
  | none => s
  | some o =>
    let s := hostWrite o.seq o.cls false (descHost o.desc + rawOffset o 4) 128 h.toNat s
    finishRead ring slot (s.modOp ring slot (fun o => { o with left := o.left - 1 }))

/-! ## Resolution of a frame (R163) -/

/-- An operation reached a ladder step. -/
def noteLadder (ring slot step : Nat) (degraded : Bool) (s : State) : State :=
  s.modOp ring slot (fun o => { o with ladder := max o.ladder step, degraded := o.degraded || degraded })

/-- A frame of a unit whose shadow is unreadable and whose program failed has been recovered from its row's other members, or is lost; with the last the
unit returns to staging (R139, R277). -/
def rescued (j f : Nat) (good : Option Payload) (s : State) : State :=
  match SMap.find? s.wr.shadows j with
  | none => s
  | some u =>
    let v := good.getD (setSeq (carriedLoss (4 * u.lui + f)) u.seq)
    let u := { u with frames := (u.frames.zip (List.range 4)).map (fun e => if e.2 = f then v else e.1) }
    let s := s.modWr (fun w => { w with shadows := SMap.insert w.shadows j u })
    if s.fl.recon.any (fun e => decide (e.owner = .rescue j)) then s
    else returnUnit u (some j) (s.modDram (fun x => { x with badShadows := x.badShadows.filter (fun b => b ≠ j) }))

/-- Gives a resolved frame, or one declared lost, to whom it was read for, and counts its step on its channel. A carried loss is
never delivered as good (R117). A good frame that did not come from a lost member still lies in its frame buffer (R151). -/
def resolveFrame (owner : ReadOwner) (pma f : Nat) (good : Option Payload) (step : Nat) (degraded : Bool) (s : State) : State :=
  let s := countLadder (pmaCh pma) step s
  match owner with
  | .op ring slot lui =>
    let s := noteLadder ring slot step degraded s
    (match s.op ring slot with
    | none => s
    | some o =>
      if descOpcode o.desc = 0x10 then deliverRaw ring slot f (good.map (fun p => p.toNat)) false true s
      else
        let block := good.bind (fun p => if (metaOf p).kind = 8 then none else some (payloadData p))
        deliverBlock ring slot (4 * lui + f) block false (block.isSome && !degraded) s)
  | .merge ring slot lui =>
    (noteLadder ring slot step degraded s).modGather ring slot (fun g => { g with merged := g.merged ++ [(lui, pma, f, good)] })
  | .rescue j => rescued j f good s

/-- A RAW_READ frame that failed step 3 (R166). -/
def rawFrameFails (ring slot f : Nat) (s : State) : State := deliverRaw ring slot f none false false (noteLadder ring slot 3 false s)

/-! ## READ (R144) and RAW_READ (R166) -/

/-- Frames of a unit that a READ asks for. -/
def readFrames (o : Op) (u : Nat) : List Nat :=
  (List.range 4).filter (fun f => descLba o.desc ≤ 4 * u + f ∧ 4 * u + f < descLba o.desc + descCount o.desc)

/-- A unit of a READ waits for a DRAM access, or for its program. -/
def awaitFetch (o : Op) (src : Option DramSrc) (u : Nat) (s : State) : State :=
  s.modDram (fun x => { x with fetches := x.fetches ++ [{ src := src, ring := o.ring, slot := o.slot, seq := o.seq, lui := u }] })

/-- Delivers the blocks of a unit that is staged or in program (R144). -/
def deliverStaged (o : Op) (u : Nat) (unit : Option SUnit) (s : State) : State :=
  let s := s.modOp o.ring o.slot (fun o => { o with staged := true })
  s.over (readFrames o u) (fun s f =>
    let p := match unit with | some x => nth x.frames f (zeroPayload 0) | none => zeroPayload 0
    deliverBlock o.ring o.slot (4 * u + f) (if (metaOf p).kind = 8 then none else some (payloadData p)) false false s)

/-- Serves one touched unit of a READ by the state of its entry, whose line has come. A unit in program is read from its shadow, and used once its bursts
have been checked; one whose shadow is unreadable waits for the program (R144, R262, R277). -/
def serveUnit (o : Op) (u : Nat) (s : State) : State :=
  let fs := readFrames o u
  match locOf (s.entry (s.setOf o.ring) u) with
  | .none =>
    let s := s.modOp o.ring o.slot (fun o => { o with unmapped := true })
    s.over fs (fun s f => deliverBlock o.ring o.slot (4 * u + f) (some 0) false false s)
  | .staged k => deliverStaged o u (SMap.find? s.wr.slots k) s
  | .shadow j =>
    if s.dram.badShadows.contains j then awaitFetch o none u s
    else awaitFetch o (some (.unit o.seq u)) u
      (s.over fs (fun s f => dramAccess 3 false (shadowDa j + 4160 * f) 4160 (.unit o.seq u) s))
  | .media p =>
    let s := s.modOp o.ring o.slot (fun x => if u = descLba o.desc / 4 then { x with detail := p } else x)
    if SMap.getD s.fl.torn (pmaPlace p) false then s.over fs (fun s f => deliverBlock o.ring o.slot (4 * u + f) none true false s)
    else freshRead (.op o.ring o.slot u) p o.cls fs false s

/-- Looks up one touched unit of a READ, and serves it once its line has come (R146). -/
def readUnit (o : Op) (u : Nat) (s : State) : State :=
  let set := s.setOf o.ring
  let (here, s) := mapLookup set u s
  if here then serveUnit o u s else awaitFetch o (some (.line (mapLine set u))) u s

/-- A unit of a READ goes on once what it waited for has come: after its line, by the state of its entry; after its shadow, with the blocks of that
shadow, if the unit is still there. -/
def resumeFetch (s : State) (w : DramFetch) : State :=
  match s.op w.ring w.slot with
  | none => s
  | some o =>
    if o.seq ≠ w.seq ∨ o.phase ≠ .issued then s
    else match w.src, locOf (s.entry (s.setOf o.ring) w.lui) with
      | some (.unit _ _), .shadow j =>
        if s.dram.badShadows.contains j then awaitFetch o none w.lui s else deliverStaged o w.lui (SMap.find? s.wr.shadows j) s
      | _, _ => serveUnit o w.lui s

/-- The units that waited for an access go on once the last of its bursts has been issued. -/
def fetched (src : DramSrc) (s : State) : State :=
  if s.dramPending src then s
  else
    let go := s.dram.fetches.filter (fun w => w.src = some src)
    (s.modDram (fun x => { x with fetches := x.fetches.filter (fun w => w.src ≠ some src) })).over go resumeFetch

/-- The units that waited for a program go on once their entries name the unreadable shadow no longer (R277). -/
def programEnded (s : State) : State :=
  let waits := fun (w : DramFetch) => match s.op w.ring w.slot with
    | some o => (match locOf (s.entry (s.setOf o.ring) w.lui) with | .shadow j => s.dram.badShadows.contains j | _ => false)
    | none => false
  let go := s.dram.fetches.filter (fun w => w.src.isNone && !waits w)
  if go = [] then s
  else (s.modDram (fun x => { x with fetches := x.fetches.filter (fun w => w.src.isSome || waits w) })).over go resumeFetch

/-- READ (R144). -/
def execRead (ring : Fin 8192) (slot : Fin 65536) (s : State) : Res :=
  .next (match s.readyOp ring slot 0x01 with
    | some o =>
      -- It waits while an entry or a shadow that it needs is being recovered (R277).
      if s.fencedFor o then endRead o 1 0 0 s
      else if (unitsOf (descLba o.desc) (descCount o.desc)).any (fun u => s.entryWaits (s.setOf o.ring) u.1 || s.shadowWaits (s.setOf o.ring) u.1) then s
      else
      let s := s.modOp ring slot (fun o => { o with phase := .issued, left := descCount o.desc })
      s.over (unitsOf (descLba o.desc) (descCount o.desc)) (fun s u => readUnit o u.1 s)
    | none => s)

/-- RAW_READ (R166): one page read at the PMA, with its header; a torn page delivers no frame as good (R90). -/
def execRawRead (ring : Fin 8192) (slot : Fin 65536) (s : State) : Res :=
  .next (match s.readyOp ring slot 0x10 with
    | some o =>
      if s.fencedFor o then endRead o 1 0 0 s
      else
      let pma := descDuo o.desc 2
      let d3 := descDuo o.desc 3
      let fs := (List.range 4).filter (fun f => d3.testBit f)
      let n := fs.length + (if d3.testBit 4 then 1 else 0)
      let s := s.modOp ring slot (fun o => { o with phase := .issued, left := n, detail := pma })
      if SMap.getD s.fl.torn (pmaPlace pma) false then
        -- It touched a torn page, also where it selects no frame (R89).
        let s := s.modOp ring slot (fun o => { o with bad := [(0, true)] })
        let s := s.over fs (fun s f => deliverRaw ring slot f none true false s)
        if d3.testBit 4 then freshRead (.op ring slot 0) pma o.cls [] true s else finishRead ring slot s
      else freshRead (.op ring slot 0) pma o.cls fs true s
    | none => s)

/-- RAW_PROGRAM (R81): its data is read from host memory and, once whole, queued on the die. -/
def execRawProgram (ring : Fin 8192) (slot : Fin 65536) (s : State) : Res :=
  .next (match s.readyOp ring slot 0x11 with
    | some o =>
      if s.fencedFor o then finishOp o 1 0 0 s
      else
      let g : Gather :=
        { ring := ring, slot := slot, set := 0, lba := 0, count := 0, tag := 0, trim := false, slots := [], data := [], merged := [],
          poisoned := false }
      let s := s.modWr (fun w => { w with gathers := w.gathers ++ [g] })
      let s := s.modOp ring slot (fun o => { o with phase := .issued })
      startHostReads ring slot (descHost o.desc) (s.fullLength o.desc) s
    | none => s)

/-- RAW_ERASE (R81): the selected planes of the block are queued for erase; no plane selected is an erase of nothing. -/
def execRawErase (ring : Fin 8192) (slot : Fin 65536) (s : State) : Res :=
  .next (match s.readyOp ring slot 0x12 with
    | some o =>
      if s.fencedFor o then finishOp o 1 0 0 s
      else
      let pma := descDuo o.desc 2
      let planes := descDuo o.desc 3 % 16
      let s := s.modOp ring slot (fun o => { o with phase := .issued })
      if planes = 0 then finishOp o 0 0 0 s
      else pushErase (pmaCh pma) (pmaDie pma) (pmaBlock pma) planes none (some (o.ring, o.slot)) s
    | none => s)

/-! ## The retry ladder (R162) -/

/-- Whether a read serves a RAW_READ. -/
def State.rawRead (s : State) (o : ReadOwner) : Bool :=
  match o with
  | .op ring slot _ => (match s.op ring slot with | some o => descOpcode o.desc = 0x10 | none => false)
  | _ => false

/-- A frame of a page as it was transferred (R155). -/
def PageRead.frame (r : PageRead) (f : Nat) : Payload := decodeFrame r.pma f r.page

/-- A frame of a page passes: its syndrome is zero and, unless it is a P or Q frame, its DataCrc matches (R134, R155, R166). -/
def State.framePasses (s : State) (r : PageRead) (f : Nat) (syndrome : Bool) : Bool :=
  let h := pageHeader r.page
  let pq := s.rawRead r.owner && [bodyOf (h.toNat % 2 ^ 480), bodyOf (h.toNat / 2 ^ 480 % 2 ^ 480)].any (fun b =>
    match b with | some b => b.kind = 2 || b.kind = 3 | none => false)
  syndrome && (pq || dataCrcOk (r.frame f))

/-- Puts a page read back at the head of its die's queue, to be issued once more; one whose member has been lost goes to step 4 instead, with
the buffers that it held released (R169, R203, R212, R225). -/
def requeueRead (id : Nat) (r : PageRead) (s : State) : State :=
  if !s.rawRead r.owner && s.pageLost r.pma then
    let s := freeBuffers r.cls r.held (s.modFl (fun x => { x with reads := SMap.erase x.reads id }))
    s.modFl (fun x => { x with recon := x.recon ++ r.frames.map (fun f =>
      { owner := r.owner, pma := r.pma, frame := f, cls := r.cls, degraded := true }) })
  else
    let s := s.modFl (fun x => { x with reads := SMap.insert x.reads id r })
    s.modDie (pmaCh r.pma) (pmaDie r.pma) (fun x => { x with reads := id :: x.reads })

/-- Issues a further read of the page for frames that keep their buffers. A member lost meanwhile sends them to step 4 (R169). -/
def readAgain (id : Nat) (r : PageRead) (step : Nat) (move : Int) (fs : List Nat) (s : State) : State :=
  if fs = [] then s
  else
    let s := s.when (!s.rawRead r.owner && s.pageLost r.pma) (freeBuffers r.cls fs.length)
    queueRead { r with frames := fs, header := false, step := step, shift := move, since := s.now, pending := [], failed := [],
                       again := 0, pass := 0, learned := false, held := fs.length, root := some (rootOf id r) } s

/-- A page's frames at this step are all decoded: those that failed climb (R162). The move S belongs to step 2 alone: step 3 reads about the
thresholds of the last read (R157, R162). -/
def climb (id : Nat) (r : PageRead) (s : State) : State :=
  if r.pending ≠ [] then s
  else
    let s := s.modFl (fun x => { x with reads := SMap.erase x.reads id })
    if r.step = 1 then
      let out := r.failed.filter (fun e => s.outsideTolerance (skewOf e.2) 1)
      let inside := r.failed.filter (fun e => !s.outsideTolerance (skewOf e.2) 1)
      let move := retuneMove (s.get K.retuneGain) ((out.map (fun e => skewOf e.2)).sum) out.length
      let s := s.add K.step2Skipped inside.length
      let s := s.when (out ≠ []) (fun s => s.modFl (fun x =>
        { x with retunes := (x.retunes ++ [(r.pma, move)]).drop (x.retunes.length + 1 - 16384) }))
      readAgain id r 3 0 (inside.map (fun e => e.1)) (readAgain id r 2 move (out.map (fun e => e.1)) s)
    else readAgain id r 3 0 (r.failed.map (fun e => e.1)) s

/-- The next frame of a decoder queue: in class order, the oldest first (R155, R156). -/
def pickFrame (l : List FrameRef) : Option (FrameRef × List FrameRef) :=
  ([0, 1, 2, 3].findSome? (fun c => l.find? (fun e => e.cls = c))).map (fun e => (e, l.erase e))

/-- Pepper forces a frame of a page read to fail below EccStep: drawn once for each frame at step 1 (R487). -/
def forceEcc (r : PageRead) (f : Nat) (s : State) : PageRead × State :=
  let c := pmaCh r.pma
  if r.step = 1 ∧ s.eccSelects c r.cls then
    let (hit, s) := eccDraw s
    (if hit then { r with forced := r.forced ++ [f] } else r, s)
  else (r, s)

/-- A forced frame fails at this step (R487). -/
def State.eccFails (s : State) (r : PageRead) (f : Nat) : Bool := r.forced.contains f && decide (r.step < s.get K.eccStep)

/-- A frame of a page read leaves the hard decoder (R155, R160 to R162): it is resolved, or waits for the rest of its page. -/
def hardDecoded (e : FrameRef) (r : PageRead) (ones : Nat) (pass : Bool) (s : State) : State :=
  let raw := s.rawRead r.owner
  let (r, s) := forceEcc r e.frame s
  let ok := s.framePasses r e.frame pass && !s.eccFails r e.frame
  let s := s.when (r.step = 1 && !raw) (learnDie (pmaCh r.pma) (pmaDie r.pma) ones)
  let s := s.when (ok && r.step = 2 && !raw && !r.learned) (learnBlock r.pma r.shift)
  let r := { r with pending := r.pending.erase e.frame, learned := r.learned || ok, held := r.held - (if ok then 1 else 0),
                    failed := if ok then r.failed else r.failed ++ [(e.frame, ones)] }
  let s := s.modFl (fun x => { x with reads := SMap.insert x.reads e.read r })
  let s := s.when ok (fun s =>
    resolveFrame r.owner r.pma e.frame (some (r.frame e.frame)) r.step false (freeBuffers r.cls 1 s))
  climb e.read r s

/-- HARD_DECODE (R155): the channel's decoder takes its next frame; `pass` is a zero syndrome within the iteration limit and `ones`
the frame's ones count. A frame that passes is resolved; one that fails waits for the rest of its page (R162). -/
def execHardDecode (c : Fin 96) (ones : BitVec 16) (pass : Bool) (s : State) : Res :=
  .next (match pickFrame (s.chan c).hardQ with
    | none => s
    | some (e, rest) =>
      let s := (s.modChan c (fun x => { x with hardQ := rest })).inc K.hardDecodes
      match SMap.find? s.fl.reads e.read with
      | none => s
      | some r => hardDecoded e r ones.toNat pass s)

/-- A frame of a page read leaves the soft pool (R156, R162, R166): it is resolved at step 3, goes to step 4, or ends a RAW_READ's ladder. -/
def softDecoded (e : FrameRef) (r : PageRead) (pass : Bool) (s : State) : State :=
  let ok := s.framePasses r e.frame pass && !s.eccFails r e.frame
  let r' := { r with pending := r.pending.erase e.frame, held := r.held - 3 }
  let s := s.modFl (fun x =>
    { x with reads := if r'.pending = [] then SMap.erase x.reads e.read else SMap.insert x.reads e.read r' })
  let s := freeBuffers r.cls 2 s
  if ok then
    resolveFrame r.owner r.pma e.frame (some (r.frame e.frame)) 3 false (freeBuffers r.cls 1 s)
  else
    match r.owner, s.rawRead r.owner with
    | .op ring slot _, true => rawFrameFails ring slot e.frame (freeBuffers r.cls 1 s)
    | _, _ => s.modFl (fun x => { x with recon := x.recon ++
        [{ owner := r.owner, pma := r.pma, frame := e.frame, cls := r.cls, degraded := false,
           forced := r.forced.contains e.frame && decide (s.get K.eccStep = 5) }] })

/-- Region of a bit read at T − δ, at T and at T + δ (R156). -/
def softRegion (low mid high : Bool) : Nat := if mid then (if high then 3 else 2) else (if low then 1 else 0)

/-- Log-likelihood ratio that LlrTable gives a region: a signed 3-bit value, positive where it favours 0 (R156, R172). -/
def State.llr (s : State) (region : Nat) : Int :=
  let v := s.get K.llrTable / 2 ^ (3 * region) % 8
  if v < 4 then (v : Int) else (v : Int) - 8

/-- SOFT_DECODE (R156): the pool takes its next frame with its three reads and the ratios of the four regions that they tell apart; failure
sends it to step 4, or ends a RAW_READ's ladder (R162, R166). -/
def execSoftDecode (pass : Bool) (s : State) : Res :=
  .next (match pickFrame s.fl.softQ with
    | none => s
    | some (e, rest) =>
      let s := (s.modFl (fun x => { x with softQ := rest })).inc K.softDecodes
      match SMap.find? s.fl.reads e.read with
      | none => s
      | some r => softDecoded e r pass (s.emit (.softInput e.read e.frame
          ([softRegion false false false, softRegion true false false, softRegion true true false, softRegion true true true].map s.llr))))

/-! ## Reconstruction (R164, R167) -/

/-- Members of its stripe that a frame at step 4 is recovered from, with the outcomes given (R164, R167). -/
def State.reconMembers (s : State) (e : Recon) (x : Stripe) (pos : Nat) (outcomes : List PageOutcome) : List Nat :=
  let q := (x.gen.parity x.rb.die x.rb.block x.wl).2
  (x.gen.present x.rb.die).filter (fun p => p ≠ pos && (s.needsQ x e.frame pos outcomes || p ≠ q) && s.memberRead x p)

/-- Frame buffers that the reads of step 4 hold together: one for each member's frame, and two more for each that takes its own step 3 (R151). -/
def State.reconBuffers (s : State) (e : Recon) (x : Stripe) (pos : Nat) (outcomes : List PageOutcome) : Nat :=
  ((s.reconMembers e x pos outcomes).map (fun p => if s.memberStep x outcomes p e.frame = 3 ∨ s.memberStep x outcomes p e.frame = 0 then 3 else 1)).sum

/-- A frame at step 4 can be read for: every channel that it needs issues, since what needs an aborting channel waits until the abort and a retrain have
ended, and buffers are free (R107, R151). -/
def State.reconReady (s : State) (outcomes : List PageOutcome) (e : Recon) : Bool :=
  match s.stripeOf e.pma with
  | none => true
  | some (x, pos) =>
    -- A unit is recovered from a row that is still being programmed once that row has ended (R277).
    (match e.owner with
    | .rescue _ => !(s.sset x.rb.set).rows.any (fun r => decide (r.die = x.rb.die) && decide (r.block = x.rb.block) && decide (r.wl = x.wl))
    | _ => true) && s.membersRun x (s.reconMembers e x pos outcomes) && s.buffersFree e.cls (s.reconBuffers e x pos outcomes)

/-- The next frame of those that wait for step 4, by class and age. -/
def pickRecon (l : List Recon) : Option (Recon × List Recon) :=
  ([0, 1, 2, 3].findSome? (fun c => l.find? (fun e => e.cls = c))).map (fun e => (e, l.erase e))

/-- The next frame for step 4 of those that can be read for, with the frames then left. -/
def State.nextRecon (s : State) (outcomes : List PageOutcome) : Option (Recon × List Recon) :=
  (pickRecon (s.fl.recon.filter (s.reconReady outcomes))).map (fun e => (e.1, s.fl.recon.erase e.1))

/-- A frame at step 4 is recovered from the other members of its stripe, which climb steps 1 to 3 on their own, or is declared lost (R164,
R165, R188). -/
def reconstruct (e : Recon) (outcomes : List PageOutcome) (s : State) : State :=
  match s.stripeOf e.pma with
  | none => resolveFrame e.owner e.pma e.frame none 5 e.degraded s
  | some (x, pos) =>
    let q := (x.gen.parity x.rb.die x.rb.block x.wl).2
    let (outcomes, s) := forceOutcomes x e.cls (s.reconMembers e x pos outcomes) [e.frame] outcomes s
    let withQ := s.needsQ x e.frame pos outcomes
    let others := (s.erasedAt x e.frame outcomes).filter (fun k => withQ || k ≠ q)
    let erased := if others.contains pos then others else pos :: others
    let members := s.reconMembers e x pos outcomes
    let found := (s.recoverFrame x e.frame pos erased).bind (fun p => if dataCrcOk p && !e.forced then some p else none)
    let s := (notePeak (s.reconBuffers e x pos outcomes) s).over members (readMember x [e.frame] outcomes)
    match found with
    | some p => resolveFrame e.owner e.pma e.frame (some p) 4 e.degraded (s.inc K.framesReconstructed)
    | none => declareStripeLoss 0 x e.frame erased (resolveFrame e.owner e.pma e.frame none 5 e.degraded s)

/-- RECONSTRUCT_FRAME (R164): the next frame at step 4 is recovered from the other members of its stripe, each of which resolved at
the step its outcome gives, or is declared lost and goes to step 5 (R165, R188). -/
def execReconstructFrame (outcomes : List PageOutcome) (s : State) : Res :=
  .next (match s.nextRecon outcomes with
    | none => s
    | some (e, rest) =>
      let s := s.modFl (fun x => { x with recon := rest })
      reconstruct e outcomes (s.when (!e.degraded) (freeBuffers e.cls 1)))

end Sys2Proof.Machine
end

