-- ==== Sys2Proof/Machine/Migration.lean ====
section
/-! DEFINITION. Migration.lean: changes of a ring's placement (R103 to R105). -/

namespace Sys2Proof.Machine

/-! ## Step 1: withdrawal (R103, R104) -/

/-- An abort that runs holds the ring (R106, R107). -/
def State.ringAborts (s : State) (n : Nat) : Bool := s.rings.aborts.any (fun a => a.tails.any (fun e => decide (e.1 = n)))

/-- State of an enabled ring: 3 while an abort of it runs, 2 while a migration does, else 1 (R109). -/
def refreshRing (n : Nat) (s : State) : State :=
  s.set (K.ringState n) (if s.flag (K.ringEnable n) = false then 0 else if s.ringAborts n then 3
    else if s.rings.migrations.any (fun g => decide (g.ring = n)) then 2 else 1)

/-- Takes everything an operation has in a queue out of it: page reads, frames waiting for step 4, host reads, die jobs,
admission. -/
def unqueueOp (ring slot : Nat) (s : State) : State :=
  let s := (dropReads ring slot s).modFl (fun x =>
    { x with dies := x.dies.map (fun e => (e.1, { e.2 with progs := e.2.progs.filter (fun j => !rawJobOf ring slot j.1) })) })
  let s := s.modWr (fun w => { w with admission := w.admission.filter (fun e => e ≠ (ring, slot)) })
  dropGather ring slot true s

/-- Where a ring goes when its placement is withdrawn: its FallbackPlacement, or none (R105). -/
def State.fallback (s : State) (n : Nat) : Nat :=
  let v := s.get (K.ringFallbackPlacement n)
  if plKind v ≠ 0 ∧ s.placementOk v ∧ s.placementWithdrawn v = false then v else 0

/-- Step 1 of a migration: the ring stops issuing, and what it has not issued is withdrawn. A migration that the buffer starts
reserves a completion slot, or waits for one (R103). -/
def startMigration (n : Nat) (slot : Option Nat) (placement : Nat) (s : State) : State :=
  let m := s.get (K.ringCompletionRing n)
  let reserved := slot.isSome || decide (0 < s.cringFree m)
  let s := s.when (slot.isNone && reserved) (fun s => s.inc (K.cringReserved m))
  let back := s.rings.ops.filter (fun o => decide (o.ring = n) && some o.slot ≠ slot && !s.hasBegun o)
  -- Of two operations fetched from one slot only the first is in a queue (log entry 131).
  let s := s.over back (fun s o =>
    (s.when (((s.op o.ring o.slot).map (fun x => x.seq)) = some o.seq) (unqueueOp o.ring o.slot)).modSeq o.seq
      (fun o => { o with phase := .withdrawn, left := 0, detail := 0, unmapped := false, bad := [] }))
  refreshRing n (s.modRings (fun r => { r with migrations := r.migrations ++
    [{ ring := n, slot := slot, placement := placement, reserved := reserved, again := false, aborted := s.ringAborts n }] }))

/-- MIGRATE (R103): starts the migration to the placement it names. -/
def execMigrate (ring : Fin 8192) (slot : Fin 65536) (s : State) : Res :=
  .next (match s.readyOp ring slot 0x21 with
    | some o =>
      if s.rings.migrations.any (fun g => decide (g.ring = ring.val)) then s
      else
        let s := s.modOp ring slot (fun o => { o with phase := .issued })
        startMigration ring (some slot) (descDuo o.desc 2 / 2 ^ 24 * 2 ^ 24) s
    | none => s)

/-- An event has withdrawn the placements that `hit` names: every enabled ring so placed moves to its fallback. A migration under way is followed
by a further one where its target is withdrawn, or, if the buffer started it, the current placement is withdrawn again (R105). -/
def withdrawPlacements (hit : Nat → Bool) (s : State) : State :=
  s.over s.enabledRings (fun s n =>
    let gone := fun (v : Nat) => hit v && s.placementWithdrawn v
    match s.rings.migrations.find? (fun g => decide (g.ring = n)) with
    | some g =>
      s.when (gone g.placement || (g.slot.isNone && gone (s.get (K.ringPlacement n)))) (fun s => s.modRings (fun r =>
        { r with migrations := mapIf (fun x => x.ring = n) (fun x => { x with again := true }) r.migrations }))
    | none => s.when (gone (s.get (K.ringPlacement n))) (startMigration n none (s.fallback n)))

/-- Placements that the loss or retirement of a die, or of a whole channel (die 16), touches. -/
def placedOn (c d v : Nat) : Bool := decide (plKind v = 2) && decide (plCh v = c) && (decide (d = 16) || decide (plDie v = d))

/-- A descriptor re-issued in a new placement: a raw PMA takes that placement's channel and die (R104). -/
def movedDesc (d : Descriptor) (pl : Nat) : Descriptor :=
  if 0x10 ≤ descOpcode d ∧ descOpcode d ≤ 0x12 then
    let pma := descDuo d 2
    let new := pma - pmaCh pma * 2 ^ 29 - pmaDie pma * 2 ^ 25 + plCh pl * 2 ^ 29 + plDie pl * 2 ^ 25
    BitVec.ofNat 320 (d.toNat - pma * 2 ^ 80 + new * 2 ^ 80)
  else d

/-- Step 4 of a migration: the withdrawn operations are issued in slot order in the new placement, or treated as R93 states when
the ring has none; after an abort they complete ABORTED (R103, R105, R108). -/
def reissue (n : Nat) (aborted : Bool) (s : State) : State :=
  let back := s.rings.ops.filter (fun o => decide (o.ring = n) && decide (o.phase = .withdrawn))
  let pl := s.get (K.ringPlacement n)
  let epoch := s.get (K.ringEpoch n)
  let s := refreshRing n s
  -- An abort that still runs counts the operations that end with it (R107).
  let s := s.when aborted (fun s => s.modRings (fun r => { r with
    aborts := mapIf (fun a => a.tails.any (fun e => decide (e.1 = n))) (fun a => { a with count := a.count + back.length }) r.aborts }))
  s.over back (fun s o =>
    let earlier := s.rings.ops.any (fun e => decide (e.ring = n) && decide (e.seq < o.seq))
    let o' := { o with epoch := epoch, desc := movedDesc o.desc pl, again := true, phase := if descBarrier o.desc && earlier then .barrier else .ready }
    let s := s.modSeq o.seq (fun _ => o')
    if aborted then finishOp o' 1 0 0 s
    else if o'.phase = .ready ∧ s.acts o' = false then refuseOp o' s
    else s)

/-- An operation of epoch E, the MIGRATE itself apart, is still left running, or its completion is not posted yet (R103, R104). -/
def State.epochRuns (s : State) (g : Migration) : Bool :=
  s.rings.ops.any (fun o => decide (o.ring = g.ring) && o.phase ≠ .withdrawn
    && !(some o.slot = g.slot && o.phase = .issued && decide (descOpcode o.desc = 0x21)))

/-- A migration ends (R103 to R105). -/
def finishMigration (g : Migration) (s : State) : State :=
  let m := s.get (K.ringCompletionRing g.ring)
  let epoch := (s.get (K.ringEpoch g.ring) + 1) % 16
  let s := (s.set (K.ringPlacement g.ring) g.placement).set (K.ringEpoch g.ring) epoch
  let s := s.modRings (fun r =>
    { r with migrations := r.migrations.filter (fun x => x.ring ≠ g.ring),
             noPlace := if g.placement = 0 ∧ g.slot.isNone then SMap.insert r.noPlace g.ring true else SMap.erase r.noPlace g.ring })
  let own := g.slot.bind (fun k => s.rings.ops.find? (fun o =>
    decide (o.ring = g.ring) && decide (o.slot = k) && decide (descOpcode o.desc = 0x21) && decide (o.phase = .issued)))
  let cmd := (own.map (fun o => descCommandId o.desc)).getD 0xFFFFF
  let c := completionBits 1 epoch g.ring (g.slot.getD (s.get (K.ringHead g.ring))) cmd 0 0 false false false 0 g.placement
  let s := match own with
    | some o => (s.dropOp o.seq).sub (K.ringInFlight g.ring) 1
    | none => s
  let s := postEntry m c (s.sub (K.cringReserved m) 1)
  if g.again then
    -- Step 4 is not run: the withdrawn operations pass to a further migration (R105).
    let reserved := decide (0 < s.cringFree m)
    let s := s.when reserved (fun s => s.inc (K.cringReserved m))
    s.modRings (fun r => { r with migrations := r.migrations ++
      [{ ring := g.ring, slot := none, placement := s.fallback g.ring, reserved := reserved, again := false, aborted := g.aborted }] })
  else reissue g.ring g.aborted s

/-- MIGRATION_DONE (R103, R104): no operation of epoch E is left running; the placement and the epoch change, the migration-done
completion is posted, and the withdrawn operations are issued anew, or pass to a further migration (R105). -/
def execMigrationDone (ring : Fin 8192) (s : State) : Res :=
  .next (match s.rings.migrations.find? (fun g => decide (g.ring = ring.val)) with
    | none => s
    | some g => if s.epochRuns g || !g.reserved then s else finishMigration g s)

end Sys2Proof.Machine
end

