-- ==== Sys2Proof/Machine/Saves.lean ====
section
/-! DEFINITION. Saves.lean: mapping saves (R347): their rotation and its pace, their pages, which the die queues program, and the release of journal
blocks. -/

namespace Sys2Proof.Machine

/-- Segments that set directories name: 2,048 × set + slot. -/
def State.saveSlots (s : State) : List Nat :=
  s.dram.directory.flatMap (fun e => (List.range e.2.length).map (fun k => 2048 * e.1 + k))

/-- JournalSequence at the start of the current save of a segment; 0 where there is none yet. -/
def State.saveStart (s : State) (k : Nat) : Nat := (SMap.getD s.wr.savedFrom k (0, 0)).1

/-- The start of the oldest current save. -/
def State.oldestSave (s : State) : Nat :=
  match s.saveSlots.map s.saveStart with
  | [] => s.get K.journalSequence
  | a :: l => l.foldl min a

/-- Location of the last Place record of a unit. -/
def State.placedAt (s : State) (set lui : Nat) : Option Nat :=
  ((s.wr.journal.filter (fun e => e.2.kind = .place && e.2.set = set && e.2.lui = lui)).getLast?).map (fun e => e.2.loc)

/-- Entries of a segment as a save keeps them; a unit in program is kept at the page its Place record names (DESIGN CHOICE, log entry 46). -/
def State.segmentEntries (s : State) (k : Nat) : SMap Nat :=
  let set := k / 2048
  s.wr.map.filterMap (fun e =>
    let lui := e.1 % 34359738368
    if e.1 / 34359738368 = set ∧ lui / 16777216 = k % 2048 then
      some (lui, match locOf e.2 with | .shadow _ => (s.placedAt set lui).getD e.2 | _ => e.2)
    else none)

/-- Sequence of the Stage record of the 262,144th most recent tagged WRITE; 0 while there are fewer (R347). -/
def State.tagFloor (s : State) : Nat :=
  match ((s.wr.journal.filter (fun e => e.2.kind = .stage && decide (e.2.tag ≠ 0) && decide (e.2.count ≠ 0))).reverse)[262143]? with
  | some e => e.1
  | none => 0

/-- Releases the journal blocks whose records are all older than both limits of R347. -/
def releaseJournal (s : State) : State :=
  let floor := min s.oldestSave s.tagFloor
  let inUse := s.fl.slcNext.map (fun e => 32768 * e.1 + 2048 * pmaDie e.2 + (if s.density = 2 then pmaBlock e.2 / 2 else pmaBlock e.2))
  let free := s.fl.slcSeq.filter (fun e => decide (e.2 ≤ floor) && !inUse.contains e.1)
  let s := s.over free (fun s e =>
    let b := e.1 % 2048
    pushErase (e.1 / 32768) (e.1 / 2048 % 16) (if s.density = 2 then 2 * b else b) 15 none none s)
  let s := s.modFl (fun x => { x with slcSeq := x.slcSeq.filter (fun e => !free.any (fun r => r.1 = e.1)) })
  s.modWr (fun w => { w with journal := w.journal.filter (fun e => decide (floor ≤ e.1)) })

/-- Pages of a save of one segment (R347). -/
abbrev savePages : Nat := 5122

/-- Frame f of page p of a save (R6, R133, R347): 819 entries of the segment from its unit 3,276·p + 819·f on, none beyond its 2²⁴, and metadata of
Kind 0x7 with the Sequence at which the save began. -/
def saveFrame (k start : Nat) (m : SMap Nat) (p f : Nat) : Payload :=
  let duos := (List.range 819).map (fun i =>
    let u := 3276 * p + 819 * f + i
    if u < 16777216 then SMap.getD m (16777216 * (k % 2048) + u) noLoc else 0)
  dataPayload (BitVec.ofNat 32768 (duosNat duos)) 0 0 start 7

/-- Header of page p of a save on a die-block (R135, R347). -/
def saveHeader (s : State) (c d b k start p : Nat) : PageHeader :=
  encodeHeader
    { kind := 7, set := k / 2048, position := 0, width := 0, index := 0, calends := s.tagFor c d b true, generation := 0, row := 0,
      lui := 16777216 * (k % 2048) + 3276 * p, tag := 0, seq := start }

/-- Every page of a segment's save has a valid check in at least one copy (R348). -/
def State.saveWhole (s : State) (k start : Nat) : Bool :=
  let firsts := s.fl.media.filterMap (fun e =>
    match (if e.2.slc then readHeader (pageHeader e.2.bits) else none) with
    | some h => if h.kind = 7 ∧ h.set = k / 2048 ∧ h.seq = start then some h.lui else none
    | none => none)
  (List.range savePages).all (fun p => firsts.contains (16777216 * (k % 2048) + 3276 * p))

/-- A limit of R347 is not kept: a save is older than 10 minutes, or 2^30 journal records follow the start of the oldest current one. -/
def State.saveLate (s : State) : Bool :=
  decide (2 ^ 30 ≤ s.get K.journalSequence - s.oldestSave) || s.wr.savedFrom.any (fun e => decide (600000000 < s.now - e.2.2))

/-- Bus class of a page of a save: background, or normal until the limits are safe again (R347). -/
def State.saveClass (s : State) : Nat := if s.saveLate then 1 else 3

/-- The next save is due: 600 s / MapSegmentsInUse after the start of the last, or at once while the journal grows so fast that 2^30 records would come
before 600 s (R347; the rate is that since the last start: DEDUCED, log entry 46). -/
def State.saveDue (s : State) : Bool :=
  match s.wr.saveBegan with
  | none => true
  | some (t, n) => decide (600000000 ≤ (s.now - t) * s.get K.mapSegmentsInUse) ||
    decide (2 ^ 30 * (s.now - t) < (s.get K.journalSequence - n) * 600000000)

/-- The segment next in rotation, in ascending order from the one saved last (R347). -/
def State.nextSegment (s : State) : Option Nat :=
  match s.saveSlots.find? (fun k => decide (s.wr.saveNext ≤ k)) with
  | some k => some k
  | none => s.saveSlots.head?

/-- Hands page p of a save to the die queue of a channel, to be programmed in SLC mode on the next page reserved there (R347). -/
def programSavePage (v : MapSave) (c : Nat) (s : State) : State :=
  let (pma, s) := slcPlace c s
  let b := if s.density = 2 then pmaBlock pma / 2 else pmaBlock pma
  let h := saveHeader s c (pmaDie pma) b v.seg v.start v.page
  pushProg c (pmaDie pma)
    (.slc { journal := none, block := pmaBlock pma, page := pmaPage pma, burst := false, save := some (v.seg, v.start),
            image := encodePage pma ((List.range 4).map (saveFrame v.seg v.start v.entries v.page)) h }) s

/-- The two channels that take a page of a save: round robin over those in service that can (R347). -/
def State.saveChannels (s : State) (p : Nat) : List Nat :=
  let cs := (List.range 96).filter s.slcReady
  (List.range (min 2 cs.length)).map (fun i => nth cs ((2 * p + i) % cs.length) 0)

/-- Hands the next page of the save under way to the die queues, once the copies of the one before have passed; it waits while no channel can take it
(R129, R347; one page at a time: DESIGN CHOICE, log entry 46). -/
def issueSavePage (s : State) : State :=
  match s.wr.save with
  | none => s
  | some v =>
    let cs := s.saveChannels v.page
    if v.left ≠ 0 ∨ savePages ≤ v.page ∨ cs = [] then s
    else
      let s := s.modWr (fun w => { w with save := some { v with page := v.page + 1, left := cs.length } })
      s.over cs (fun s c => programSavePage v c s)

/-- Begins the save of a segment (R347). -/
def startSave (k : Nat) (s : State) : State :=
  let v : MapSave := { seg := k, start := s.get K.journalSequence, began := s.now, entries := s.segmentEntries k }
  let olds := (SMap.getD s.nv.mapSaves k []).filter (fun e => s.saveWhole k e.1)
  let s := s.modNv (fun n => { n with mapSaves := SMap.insert n.mapSaves k (olds ++ [(v.start, v.entries)]) })
  s.modWr (fun w => { w with save := some v, saveBegan := some (v.began, v.start) })

/-- A copy of a page of a save has passed: the next page follows the second copy, and after the last page the save is the current one of its
segment (R347). -/
def savePassed (of : Nat × Nat) (s : State) : State :=
  match s.wr.save with
  | none => s
  | some v =>
    if (v.seg, v.start) ≠ of then s
    else
      let s := s.modWr (fun w => { w with save := some { v with left := v.left - 1 } })
      if 1 < v.left then s
      else if v.page < savePages then issueSavePage s
      else releaseJournal (s.modWr (fun w =>
        { w with save := none, savedFrom := SMap.insert w.savedFrom v.seg (v.start, v.began), saveNext := v.seg + 1 }))

/-- MAPPING_SAVE (R347): the save of the next segment in rotation begins when it is due; while one is under way, only its next page is taken up if it
waits. -/
def execMappingSave (s : State) : Res :=
  .next (
    if !s.serving then s
    else match s.wr.save, s.saveDue, s.nextSegment with
      | some _, _, _ => issueSavePage s
      | none, true, some k => issueSavePage (startSave k s)
      | none, _, _ => s)

end Sys2Proof.Machine
end

