-- ==== Sys2Proof/Machine/CfWords.lean ====
section
/-! DEFINITION. CfWords.lean: words of the code-flash array behind the remap entries (R449, R454), and what the record areas hold as their words
read: calibration records come from CalRecords.lean, retained entries from here (R456, R457). -/

namespace Sys2Proof.Machine

/-! ## Words -/

/-- Stored bits of a word of the one-time-programmable row. -/
def State.otpRaw (s : State) (w : Nat) : BitVec 26 := SMap.getD s.nv.otp w cfErased

def otpPut (w : Nat) (b : BitVec 26) (s : State) : State := s.modNv (fun n => { n with otp := SMap.put cfErased n.otp w b })

/-- Remap entries of the row that read valid: the sector replaced and its spare (R454, R468). -/
def State.remaps (s : State) : List (Nat × Nat) :=
  s.nv.otp.filterMap (fun e =>
    if 163 ≤ e.1 ∧ e.1 < 259 ∧ e.2 ≠ cfErased then (cfDecode e.2).map (fun w => (w.toNat, 4000 + (e.1 - 163))) else none)

/-- Sector that serves accesses to a sector: the spare that the last remap entry for it names (R454, R468; log entry 45). -/
def State.cfSector (s : State) (n : Nat) : Nat :=
  match (s.remaps.filter (fun e => e.1 = n)).getLast? with
  | some e => e.2
  | none => n

/-- CFA behind the remap entries. -/
def State.cfAddr (s : State) (cfa : Nat) : Nat := 2048 * s.cfSector (cfa / 2048) + cfa % 2048

/-- Stored bits of a word. -/
def State.cfRaw (s : State) (cfa : Nat) : BitVec 26 := SMap.getD s.nv.array (s.cfAddr cfa) cfErased

/-- Stores the bits of a word. -/
def cfPut (cfa : Nat) (b : BitVec 26) (s : State) : State :=
  let a := s.cfAddr cfa
  s.modNv (fun n => { n with array := SMap.put cfErased n.array a b })

/-- Words of a sector that do not read erased, by word number, in rising order. -/
def State.cfListed (s : State) (n : Nat) : SMap (BitVec 26) :=
  let k := s.cfSector n
  (s.nv.array.filter (fun e => e.1 / 2048 = k)).map (fun e => (e.1 % 2048, e.2))

/-- The n words from a on of a sector, of its listed words from a on. -/
def listedWords : Nat → Nat → SMap (BitVec 26) → List (BitVec 26)
  | 0, _, _ => []
  | n + 1, a, [] => cfErased :: listedWords n (a + 1) []
  | n + 1, a, (k, b) :: m => if k = a then b :: listedWords n (a + 1) m else cfErased :: listedWords n (a + 1) ((k, b) :: m)

/-- The n words from a on of a sector, as they read: none for CHECKFAIL. -/
def wordsFrom (m : SMap (BitVec 26)) (a n : Nat) : List (Option Word) :=
  (listedWords n a (m.filter (fun e => decide (a ≤ e.1)))).map cfDecode

/-! ## Retained objects (R456, R457) -/

/-- An entry of the retained area: its kind, object key (HalfNumber for a header), value and sequence. -/
structure RetEntry where
  kind : Nat
  key : Nat
  value : Nat
  seq : Nat
  deriving DecidableEq, Repr

/-- The entry that words begin with, if its Check is correct and its Commit written, and its length (R456). -/
def readEntry (ws : List Word) : Option (RetEntry × Nat) :=
  let x := fun k => (nth ws k 0).toNat
  let v := x 1 % 4
  let n := 5 + v
  if (v = 1 ∨ v = 2) ∧ (ws.take n).length = n ∧ (x 0 / 65536 = 1 ∨ x 0 / 65536 = 2) ∧ nth ws (n - 1) 1 = 0
      ∧ crc20Words (ws.take (3 + v)) = nth ws (3 + v) 0 then
    some ({ kind := x 0 / 65536, key := if x 0 / 65536 = 1 then 256 * (x 0 % 65536) + x 1 / 4096 else x 0 % 65536,
            value := x 2 + (if v = 2 then 1048576 * x 3 else 0), seq := x (2 + v) }, n)
  else none

/-- Entries in the words of a half, in the order written; an entry that was cut is passed over word by word. -/
def readEntries : Nat → List Word → List RetEntry
  | 0, _ => []
  | _, [] => []
  | n + 1, w :: ws =>
    match readEntry (w :: ws) with
    | some (e, k) => e :: readEntries n ((w :: ws).drop k)
    | none => readEntries n ws

/-- Words of a half that are programmed and read valid, in order: a writer passes over a word that reads CHECKFAIL (R451). -/
def State.halfWords (s : State) (h : Nat) : List Word :=
  (List.range 32).flatMap (fun i => (s.cfListed (2176 + 32 * h + i)).filterMap (fun e => cfDecode e.2))

/-- Entries of a half, its header among them once it is committed. -/
def State.halfEntries (s : State) (h : Nat) : List RetEntry :=
  let ws := s.halfWords h
  readEntries ws.length ws

/-- Number and base sequence of a committed half (R457). -/
def headOf (l : List RetEntry) : Option (Nat × Nat) := (l.find? (fun e => e.kind = 2)).map (fun e => (e.key, e.value))

/-- Distance of a sequence above another, modulo 2²⁰; 0 where it is not above it. -/
def seqAbove (a base : Nat) : Nat := let d := (a + 1048576 - base) % 1048576; if d < 524288 then d else 0

/-- What the retained area gives at Cold entry (R457): the half taken with its number, the entries to apply in order, and the highest Sequence
applied. Of two committed halves the one with the higher HalfNumber is taken, compared modulo 2¹⁶; with none, the entries of both count from
sequence 0 (DESIGN CHOICE, log entry 160). -/
def State.retainedImage (s : State) : Nat × Nat × List RetEntry × Nat :=
  let l := [s.halfEntries 0, s.halfEntries 1]
  let e := fun h => (nth l h []).filter (fun e => e.kind = 1)
  let take := match headOf (nth l 0 []), headOf (nth l 1 []) with
    | some a, some b => if (b.1 + 65536 - a.1) % 65536 < 32768 then some (1, b) else some (0, a)
    | some a, none => some (0, a)
    | none, some b => some (1, b)
    | none, none => none
  let (h, num, base, first) : Nat × Nat × Nat × List RetEntry := match take with
    | some (h, num, base) => (h, num, base, (e h).filter (fun x => seqAbove x.seq base = 0))
    | none => (0, 0, 0, [])
  let late := sortBy (fun x => seqAbove x.seq base) ((e 0 ++ e 1).filter (fun x => decide (0 < seqAbove x.seq base)))
  (h, num, first ++ late, match late.getLast? with | some x => x.seq | none => base)

end Sys2Proof.Machine
end

