-- ==== Sys2Proof/Machine/CalRecords.lean ====
section
/-! DEFINITION. CalRecords.lean: calibration (R318 to R335): how two runs of a step compare, the records with their words, the stored
set of an interface and its interpolation, what is kept, selected and imported. -/

namespace Sys2Proof.Machine

/-! ## Interfaces (R325, R394) -/

/-- Kind and instance of record i, 0 to 122 (R325). -/
def calKind (i : Nat) : Nat × Nat := if i < 96 then (1, i) else if i < 120 then (2, i - 96) else (3, i - 120)

/-- Number of the record of a kind and instance, if there is one. -/
def calIndex (kind inst : Nat) : Option Nat :=
  if kind = 1 ∧ inst < 96 then some inst
  else if kind = 2 ∧ inst < 24 then some (96 + inst)
  else if kind = 3 ∧ inst < 3 then some (120 + inst) else none

/-- Junction sensor of an interface (R394). -/
def calSensor (i : Nat) : Nat := if i < 96 then i / 12 else if i < 120 then 8 + (i - 96) / 6 else if i = 120 then 12 else 13

/-- Interface temperature T in 1/16 °C, clamped to −5 °C to 100 °C (R329). -/
def State.calTemp (s : State) (i : Nat) : Int := max (-80) (min 1600 (s20 (s.get (K.adcValue (calSensor i)))))

/-- Lanes of a port. -/
abbrev portLanes (p : Nat) : Nat := if p = 0 then 16 else 4

/-- Rate, DriveCode and OdtCode as the objects of an interface give them (R327). -/
def State.calObjects (s : State) (i : Nat) : Nat × Nat × Nat :=
  if i < 96 then (s.get (K.chDataRate i), s.get (K.chDriveCode i), s.get (K.chOdtCode i))
  else if i < 120 then (s.get K.dramRate, 0, 0) else (112000, 0, 0)

/-- Rate, DriveCode and OdtCode in force: a written value applies from the next training (R329, R337). -/
def State.calSettings (s : State) (i : Nat) : Nat × Nat × Nat := SMap.getD s.cal.inForce i (s.calObjects i)

/-- Parameter words P of record i (R327). -/
def calWords (i : Nat) : Nat := if i < 96 then 11 else if i < 120 then 167 else 15 * portLanes (i - 120)

/-! ## Two runs (R318, R322) -/

/-- Mean of two runs, rounded to the nearest step, halves toward zero (R322). -/
def calMean (a b : Int) : Int := Int.tdiv (a + b) 2

/-- Two runs agree on the parameters `own`, each within its tolerance (R318). A lane that failed its sweep agrees with nothing (DESIGN CHOICE, log
148). -/
def calAgree (tol : Nat → Nat) (own : List Nat) (a b : List (Option Int)) : Bool :=
  own.all (fun k => match nth a k none, nth b k none with
    | some x, some y => decide ((x - y).natAbs ≤ tol k)
    | _, _ => false)

/-- Result of a step: the parameters it owns, entered into `base`; on two disagreements those of the stored set, if there is one, with the
flag that it fell back (R322, R323). `runs` are the two pairs of runs in order. -/
def calStep (tol : Nat → Nat) (own : List Nat) (runs : List (List (Option Int))) (stored : Option CalSet) (base : List Int) :
    Option (List Int × Bool) :=
  let r := fun k => nth runs k []
  let enter := fun (v : Nat → Int) => (List.range base.length).map (fun k => if own.contains k then v k else nth base k 0)
  let v := fun n k => (nth (r n) k none).getD 0
  if calAgree tol own (r 0) (r 1) then some (enter (fun k => calMean (v 0 k) (v 1 k)), false)
  else if calAgree tol own (r 2) (r 3) then some (enter (fun k => calMean (v 2 k) (v 3 k)), false)
  else stored.map (fun c => (enter (fun k => nth c.params k 0), true))

/-! ## Words of a record (R327, R328, R333) -/

/-- Parameters as words: the packed ones are those of a flash channel's ReDelay and of a port's taps (R328). -/
def calPack (i : Nat) (ps : List Int) : List Word :=
  let w := fun k => BitVec.ofNat 20 (to20 (nth ps k 0))
  let byte := fun k => (nth ps k 0 % 256).toNat
  if i < 96 then
    (List.range 9).map w ++ [BitVec.ofNat 20 (byte 9 + 256 * byte 10), w 11]
  else if i < 120 then (List.range 167).map w
  else (List.range (portLanes (i - 120))).flatMap (fun j =>
    let b := 18 * j
    let duo := byte b * 2 ^ 32 + byte (b + 1) * 2 ^ 24 + byte (b + 2) * 2 ^ 16 + byte (b + 3) * 2 ^ 8 + byte (b + 4)
    [BitVec.ofNat 20 duo, BitVec.ofNat 20 (duo / 1048576)] ++ (List.range 13).map (fun k => w (b + 5 + k)))

/-- Parameters of words. -/
def calUnpack (i : Nat) (ws : List Word) : List Int :=
  let n := fun k => (nth ws k 0).toNat
  let u := fun k => (n k : Int)
  let v := fun k => s20 (n k)
  let byte := fun (x : Nat) => if x % 256 < 128 then ((x % 256 : Nat) : Int) else ((x % 256 : Nat) : Int) - 256
  if i < 96 then (List.range 9).map u ++ [((n 9 % 256 : Nat) : Int), ((n 9 / 256 % 256 : Nat) : Int), v 10]
  else if i < 120 then (List.range 167).map u
  else (List.range (portLanes (i - 120))).flatMap (fun j =>
    let b := 15 * j
    let duo := n b + 1048576 * n (b + 1)
    [byte (duo / 2 ^ 32), byte (duo / 2 ^ 24), byte (duo / 2 ^ 16), byte (duo / 2 ^ 8), byte duo, u (b + 2)]
      ++ (List.range 12).map (fun k => v (b + 3 + k)))

/-- The node nearest a temperature, ties to the lower node: −5, 25, 50, 75 and 100 °C in 1/16 °C (R328). -/
def calNode (t : Int) : Nat := if t ≤ 160 then 0 else if t ≤ 600 then 1 else if t ≤ 1000 then 2 else if t ≤ 1400 then 3 else 4

/-- Words of a set block; an empty set is erased (R328). -/
def calSetWords (i : Nat) (c : Option CalSet) : List Word :=
  match c with
  | none => List.replicate (calWords i + 6) 0xFFFFF
  | some c =>
    let ws := [BitVec.ofNat 20 (to20 c.temp), BitVec.ofNat 20 c.eyeWidth, BitVec.ofNat 20 c.eyeHeight, BitVec.ofNat 20 c.ber,
      BitVec.ofNat 20 (calNode c.temp)] ++ calPack i c.params
    ws ++ [crc20Words ws]

/-- Header words of a native record (R327). -/
def calHeader (i : Nat) (r : CalRec) : List Word :=
  let (kind, inst) := calKind i
  let ws := [0x0CA96, BitVec.ofNat 20 (2 * 65536 + kind * 4096 + inst), BitVec.ofNat 20 r.rate, BitVec.ofNat 20 (calWords i),
    BitVec.ofNat 20 r.seq, BitVec.ofNat 20 (4 * r.drive + r.odt), 0]
  ws ++ [crc20Words ws]

/-- Words of the five set blocks. -/
def calBody (i : Nat) (r : CalRec) : List Word := (List.range 5).flatMap (fun n => calSetWords i (nth r.sets n none))

/-- Words of a DX-32 record (R333). -/
def dxWords (i : Nat) (d : DxRec) : List Word :=
  let ws := [0x0D320, BitVec.ofNat 20 (65536 + 4096 + i), BitVec.ofNat 20 d.rate, BitVec.ofNat 20 (4 * d.drive + d.odt)]
    ++ calPack i d.set.params ++ [BitVec.ofNat 20 d.set.eyeWidth, BitVec.ofNat 20 d.set.eyeHeight, BitVec.ofNat 20 d.set.ber]
    ++ List.replicate 13 0
  ws ++ [BitVec.ofNat 20 (1048576 - (ws.map BitVec.toNat).sum % 1048576)]

/-- Reads set block n of words, if its Check is correct (R328). -/
def calReadSet (i n : Nat) (ws : List Word) : Option (Nat × CalSet) :=
  let p := calWords i
  let b := (ws.drop (8 + n * (p + 6))).take (p + 6)
  let x := fun k => nth b k 0
  if b.length = p + 6 ∧ crc20Words (b.take (p + 5)) = x (p + 5) then
    some ((x 4).toNat % 8,
      { temp := s20 (x 0).toNat, eyeWidth := (x 1).toNat, eyeHeight := (x 2).toNat, ber := (x 3).toNat,
        params := calUnpack i ((b.drop 5).take p) })
  else none

/-- Set block n reads all ones (R328). -/
def calSetErased (i n : Nat) (ws : List Word) : Bool :=
  ((ws.drop (8 + n * (calWords i + 6))).take (calWords i + 6)).all (fun w => w = 0xFFFFF)

/-- Reads a DX-32 record: signature, Format, Kind, rsvd words and sum (R333). -/
def dxRead (ws : List Word) : Option (Nat × DxRec) :=
  let x := fun k => (nth ws k 0).toNat
  if x 0 = 0x0D320 ∧ x 1 / 4096 = 17 ∧ (ws.take 32).length = 32 ∧ ((ws.drop 18).take 13).all (fun w => w = 0)
      ∧ ((ws.take 32).map BitVec.toNat).sum % 1048576 = 0 then
    some (x 1 % 4096,
      { rate := x 2, drive := x 3 / 4 % 4, odt := x 3 % 4,
        set := { temp := 0, eyeWidth := x 15, eyeHeight := x 16, ber := x 17, params := calUnpack 0 ((ws.drop 4).take 11) } })
  else none

/-! ## The current copy (R325, R326) -/

/-- First sector of record i; its sector B follows (R455). -/
abbrev calBase0 (i : Nat) : Nat := 1920 + 2 * i

/-- Words as they read, an unreadable one as 0xFFFFF (R450). -/
def readWords (l : List (Option Word)) : List Word := l.map (fun w => w.getD 0xFFFFF)

/-- The copy that a sector of record i holds, if its header is valid (R325 to R328, R333): a set, or the DX-32 words, with a word that does
not read are empty. -/
def State.calCopy (s : State) (i : Nat) (half : Bool) : Option CalRec :=
  let m := s.cfListed (calBase0 i + (if half then 1 else 0))
  let (kind, inst) := calKind i
  let head := wordsFrom m 0 8
  let ws := readWords head
  let x := fun k => (nth ws k 0).toNat
  if head.all (fun w => w.isSome) ∧ x 0 = 0x0CA96 ∧ x 1 = 2 * 65536 + kind * 4096 + inst ∧ x 3 = calWords i ∧ crc20Words (ws.take 7) = nth ws 7 0 then
    let p := calWords i + 6
    let body := wordsFrom m 8 (5 * p)
    let sets := (List.range 5).map (fun n =>
      if ((body.drop (n * p)).take p).all (fun w => w.isSome) then (calReadSet i n (ws ++ readWords body)).map (fun e => e.2) else none)
    let dx := if i < 96 then (dxRead (readWords (wordsFrom m 2016 32))).bind (fun e => if e.1 = i then some e.2 else none) else none
    some { rate := x 2, drive := x 5 / 4 % 4, odt := x 5 % 4, seq := x 4, sets := sets, dx := dx, sector := half }
  else none

/-- The current copy of record i: of the sectors whose header is valid the one with the higher RecordSequence, modulo 2²⁰ (R325). -/
def State.calRec (s : State) (i : Nat) : Option CalRec :=
  match s.calCopy i false, s.calCopy i true with
  | some a, some b => if 0 < seqAbove b.seq a.seq then some b else some a
  | some a, none => some a
  | none, b => b

/-! ## The stored set (R329, R330) -/

/-- Rounds a quotient to the nearest integer, halves away from zero (R330). -/
def roundAway (n : Int) (d : Nat) : Int :=
  let q : Nat := (2 * n.natAbs + d) / (2 * d)
  if n < 0 then -(q : Int) else (q : Int)

/-- Value at T between two measured points (R330). -/
def calLerp (t t1 t2 v1 v2 : Int) : Int := roundAway (v1 * (t2 - t1) + (v2 - v1) * (t - t1)) (t2 - t1).natAbs

/-- Valid sets of a record in order of MeasuredTemp. -/
def CalRec.valid (r : CalRec) : List CalSet :=
  sortBy (fun c => (c.temp + 524288).toNat) (r.sets.filterMap id)

/-- The record interpolated at T; beyond the measured range the nearest set unchanged (R330). -/
def CalRec.at (r : CalRec) (t : Int) : Option CalSet :=
  let l := r.valid
  let below := (l.filter (fun c => decide (c.temp ≤ t))).getLast?
  let above := l.find? (fun c => decide (t < c.temp))
  match below, above with
  | some a, some b =>
    let f := fun (x y : Int) => calLerp t a.temp b.temp x y
    some { temp := t, eyeWidth := (f a.eyeWidth b.eyeWidth).toNat, eyeHeight := (f a.eyeHeight b.eyeHeight).toNat,
           ber := (f a.ber b.ber).toNat, params := (a.params.zip b.params).map (fun e => f e.1 e.2) }
  | some a, none => some a
  | none, some b => some b
  | none, none => none

/-- A record matches the settings in force: its Rate, and for Kind 1 its DriveCode and OdtCode (R329). -/
def calMatches (i rate drive odt : Nat) (now : Nat × Nat × Nat) : Bool :=
  decide (rate = now.1) && (decide (96 ≤ i) || (decide (drive = now.2.1) && decide (odt = now.2.2)))

/-- The stored set that a copy of record i gives: its native record interpolated, or the DX-32 record of a channel (R329). -/
def State.calSetOf (s : State) (i : Nat) (r : CalRec) : Option CalSet :=
  let now := s.calSettings i
  match (if calMatches i r.rate r.drive r.odt now then r.at (s.calTemp i) else none) with
  | some c => some c
  | none => r.dx.bind (fun d => if calMatches i d.rate d.drive d.odt now then some d.set else none)

/-- The stored set of record i (R329). -/
def State.storedSet (s : State) (i : Nat) : Option CalSet := (s.calRec i).bind (s.calSetOf i)

/-- Records with a stored set (R338). -/
def State.recordsUsable (s : State) : Nat := ((List.range 123).filter (fun i => (s.storedSet i).isSome)).length

/-! ## Rewrites (R325, R326, R332) -/

/-- A record before anything is stored in it: its first copy goes to sector A. -/
def CalRec.empty : CalRec := { rate := 0, drive := 0, odt := 0, seq := 0, sets := List.replicate 5 none, dx := none, sector := true }

/-- The copy from which the next rewrite of a record starts: the one that the last rewrite accepted leaves (R337), or the current one. -/
def State.calBase (s : State) (i : Nat) : Option CalRec :=
  match (s.cal.pending.filter (fun e => e.1 = i)).getLast? with
  | some e => some e.2.1
  | none => s.calRec i

/-- CalStoreHold hours have passed since a record was last rewritten, a rewrite accepted and not yet durable counting as now (R332). -/
def State.calHoldOver (s : State) (i : Nat) : Bool :=
  !s.cal.pending.any (fun e => e.1 = i) && decide (SMap.getD s.nv.calRewritten i 0 + 60 * s.get K.calStoreHold ≤ s.get K.calendsNow)

def State.modCal (s : State) (f : Cal → Cal) : State := { s with cal := f s.cal }

/-- Queues the erase and the programs of a record's copy: the sets, which stay erased where they are empty, and the DX-32 words, and the
header last (R325, R328). A set has at most 246 words (R463). -/
def calQueue (i : Nat) (r : CalRec) (s : State) : State :=
  let base := 2048 * (calBase0 i + (if r.sector then 1 else 0))
  let s := cfPush 3 2 base 1 0 [] .areaErase s
  let s := s.over (List.range 5) (fun s n => match nth r.sets n none with
    | some c => cfPush 2 2 (base + 8 + n * (calWords i + 6)) (calWords i + 6) 0 (calSetWords i (some c)) (.calRecord 1000 0) s
    | none => s)
  let s := match r.dx with | some d => cfPush 2 2 (base + 2016) 32 0 (dxWords i d) (.calRecord 1000 0) s | none => s
  cfPush 2 2 base 8 0 (calHeader i r) (.calRecord i 0) s

/-- Rewrites a record to its other sector (R325). -/
def calRewrite (i : Nat) (r : CalRec) (isImport : Bool) (s : State) : State :=
  let b := (s.calBase i).getD CalRec.empty
  let r := { r with seq := (b.seq + 1) % 1048576, sector := !b.sector }
  calQueue i r (s.modCal (fun c => { c with pending := c.pending ++ [(i, r, isImport)] }))

/-- The oldest rewrite of a record has ended with its header: its new copy is current (R325). -/
def calDurable (i : Nat) (s : State) : State :=
  match s.cal.pending.find? (fun e => e.1 = i) with
  | none => s
  | some e =>
    let s := s.modCal (fun c => { c with pending := c.pending.erase e })
    let s := s.modNv (fun n => { n with calRewritten := SMap.insert n.calRewritten i (s.get K.calendsNow) })
    let s := s.inc K.recordRewrites
    let s := s.modNv (fun n => { n with saved := SMap.insert n.saved K.recordRewrites (s.get K.recordRewrites) })
    s.when (e.2.2 && !(s.cal.pending.any (fun e => e.2.2))) (fun s => s.set K.calImportState 2)

/-- Keeps a fresh result of a training that passed (R332). -/
def calStore (i : Nat) (c : CalSet) (s : State) : State :=
  if s.get K.calStoreMode ≠ 1 then s
  else
    let b := (s.calBase i).getD CalRec.empty
    let (rate, drive, odt) := s.calSettings i
    let n := calNode c.temp
    if b.rate ≠ rate ∨ b.drive ≠ drive ∨ b.odt ≠ odt then
      calRewrite i { b with rate := rate, drive := drive, odt := odt,
                            sets := (List.range 5).map (fun k => if k = n then some c else none) } false s
    else if (nth b.sets n none).isSome ∧ !s.calHoldOver i then s
    else calRewrite i { b with sets := (List.range 5).map (fun k => if k = n then some c else nth b.sets k none) } false s

/-! ## Select and import (R334, R335) -/

/-- Words of the native record as the current copy stores them (R327, R334). -/
def State.calStored (s : State) (i : Nat) (r : CalRec) : List Word :=
  readWords (wordsFrom (s.cfListed (calBase0 i + (if r.sector then 1 else 0))) 0 (8 + 5 * (calWords i + 6)))

/-- The effect of a write of 1 to CalSelect (R334): where no stored set exists the copy is all zeros, in either form. -/
def calSelectEffect (s : State) : State :=
  let zeros : List Word := List.replicate 1238 0
  let ws := match calIndex (s.get K.calSelectKind) (s.get K.calSelectInstance) with
    | none => zeros
    | some i =>
      if s.get K.calSelectForm = 0 then
        match s.calRec i with
        | some r => if (s.calSetOf i r).isSome then s.calStored i r else zeros
        | none => zeros
      else if i < 96 then
        match s.storedSet i with
        | some c =>
          let (rate, drive, odt) := s.calSettings i
          dxWords i { rate := rate, drive := drive, odt := odt, set := c }
        | none => zeros
      else zeros
  s.setBlob K.calRecordRead ws

/-- The record that CalImportData holds, if it passes every check of R335: its number and its sets, or its DX-32 words. Set n must hold node n
(R328; log entry 161); DX-32 words of a record that has no copy come with a header of their own settings and no set (log entry 161). -/
def State.calImported (s : State) : Option (Nat × CalRec) :=
  match calIndex (s.get K.calSelectKind) (s.get K.calSelectInstance) with
  | none => none
  | some i =>
    let ws := s.blob K.calImportData
    let x := fun k => (nth ws k 0).toNat
    let (kind, inst) := calKind i
    if s.get K.calSelectForm = 0 then
      let sets := (List.range 5).map (fun n => calReadSet i n ws)
      if x 0 = 0x0CA96 ∧ x 1 = 2 * 65536 + kind * 4096 + inst ∧ x 3 = calWords i ∧ crc20Words (ws.take 7) = nth ws 7 0
          ∧ (List.range 5).all (fun n => (nth sets n none).isSome || calSetErased i n ws)
          ∧ (sets.zip (List.range 5)).all (fun e => match e.1 with
            | some (node, c) => node == calNode c.temp && node == e.2
            | none => true) then
        let b := (s.calBase i).getD CalRec.empty
        some (i, { b with rate := x 2, drive := x 5 / 4 % 4, odt := x 5 % 4, sets := sets.map (fun e => e.map (fun p => p.2)) })
      else none
    else
      match dxRead ws with
      | some (n, d) =>
        let b := (s.calBase i).getD { CalRec.empty with rate := d.rate, drive := d.drive, odt := d.odt }
        if i < 96 ∧ n = i then some (i, { b with dx := some d }) else none
      | none => none

/-- The effect of a write of 1 to CalImport that is in range (R335). -/
def calImportEffect (s : State) : State :=
  match s.calImported with
  | some (i, r) => calRewrite i r true ((s.set K.calImportState 1).inc K.calImportsAccepted)
  | none => s

/-! ## Settings in force (R331, R337) -/

/-- A training of interface i starts: the settings written until now apply, and its stored set is formed (R337). -/
def calStart (i : Nat) (s : State) : State :=
  let s := s.modCal (fun c => { c with inForce := SMap.insert c.inForce i (s.calObjects i) })
  s.modCal (fun c => { c with formed := match s.storedSet i with | some x => SMap.insert c.formed i x | none => SMap.erase c.formed i })

/-- Puts settings in force for an interface, the fields `kept` of them from the stored set at the temperature T (R331). -/
def calApply (i : Nat) (ps : List Int) (kept : List Nat) (s : State) : State :=
  let t := s.calTemp i
  let s := s.modCal (fun c => { c with applied := SMap.insert c.applied i ps, appliedT := SMap.insert c.appliedT i t,
                                       kept := SMap.put [] c.kept i kept })
  -- The wake image holds the settings of DRAM and of the ports (R361).
  let s := s.when (decide (96 ≤ i)) (fun s => { s.set K.wakeImageValid 0 with pw := { s.pw with imageStale := true } })
  if i < 96 then
    let s := s.over (List.range 8) (fun s k => s.set (K.chDqDelay i k) (to20 (nth ps k 0)))
    let s := s.set (K.chDqsDelay i) (to20 (nth ps 8 0))
    s.set (K.chReDelay i) ((nth ps 9 0 % 256).toNat + 256 * (nth ps 10 0 % 256).toNat)
  else if i < 120 then s
  else s.over (List.range (portLanes (i - 120))) (fun s j =>
    let w := fun k => (nth ps (18 * j + k) 0 % 256).toNat
    s.set (K.portLaneTxTaps (i - 120) j) (w 0 * 2 ^ 32 + w 1 * 2 ^ 24 + w 2 * 2 ^ 16 + w 3 * 2 ^ 8 + w 4))

/-- CalSource of an interface. -/
def calSourceKey (i : Nat) : Nat :=
  if i < 96 then K.chCalSource i else if i < 120 then K.dramCalSource ((i - 96) / 3) else K.portCalSource (i - 120)

/-- Puts the settings of a rank in force, its references in MR10 of each component, MR11 and MR12 (R257, R331). -/
def applyRank (sub r : Nat) (ps : List Int) (kept : List Nat) (s : State) : State :=
  let code := fun k => (nth ps k 0).toNat
  let s := calApply (96 + 3 * sub + r) ps kept s
  let s := writeMode sub r 12 0 (.code (code 166)) (writeMode sub r 11 0 (.code (code 165)) s)
  s.over (List.range 10) (fun s j => writeMode sub r 10 (j + 1) (.code (code (120 + j))) s)

/-- The stored set at the temperature now is applied to the fields that came from it (R331). -/
def reapplyStored (i : Nat) (s : State) : State :=
  match s.storedSet i with
  | some c =>
    let kept := SMap.getD s.cal.kept i []
    let old := SMap.getD s.cal.applied i []
    let ps := (List.range old.length).map (fun k => if kept.contains k then nth c.params k 0 else nth old k 0)
    if kept = [] then s
    else if 96 ≤ i ∧ i < 120 then applyRank ((i - 96) / 3) ((i - 96) % 3) ps kept s
    else calApply i ps kept s
  | none => s

/-- REAPPLY_STORED_SET (R331): T has moved by ReapplyStep since the stored set was last applied; what was measured afresh stays. A port takes it
at its next fast retrain only. -/
def execReapplyStoredSet (i : Fin 123) (s : State) : Res :=
  .next (
    let moved := (s.calTemp i - SMap.getD s.cal.appliedT i 0).natAbs
    if s.get (calSourceKey i) ≠ 2 ∨ moved < 16 * s.get K.reapplyStep ∨ (120 ≤ i.val ∧ (s.port (i - 120)).recovery ≠ 1) then s
    else reapplyStored i s)

end Sys2Proof.Machine
end

