-- ==== Sys2Proof/Machine/CfArray.lean ====
section
/-! DEFINITION. CfArray.lean: the code-flash array and the one-time-programmable row (R449 to R454, R461, R468): what each operation does
to their words, however it ends, and what has come about once an operation has ended DONE. -/

namespace Sys2Proof.Machine

/-! ## Sectors -/

/-- EraseCounter and Seal of a sector (R452). -/
def State.cfHidden (s : State) (n : Nat) : BitVec 26 × BitVec 26 := SMap.getD s.nv.hidden (s.cfSector n) (cfEncode 0, cfEncode 0)

/-- A sector is sealed: its Seal reads 0x00000 with a valid check (R452). -/
def State.cfSealed (s : State) (n : Nat) : Bool := cfDecode (s.cfHidden n).2 = some 0

/-- EraseCounter of a sector as it reads. -/
def State.cfErases (s : State) (n : Nat) : Nat := (cfRead (s.cfHidden n).1).toNat

/-- Spares not yet used (R471). -/
def State.cfSparesLeft (s : State) : Nat := ((List.range 96).filter (fun k => s.otpRaw (163 + k) = cfErased)).length

/-! ## Operations -/

/-- Programs words in turn until one does not read erased: how many were done (R451). -/
def cfProgramWords (otp : Bool) : Nat → Nat → List Word → State → Nat × State
  | 0, _, _, s => (0, s)
  | _, _, [], s => (0, s)
  | n + 1, a, w :: ws, s =>
    if (if otp then s.otpRaw a else s.cfRaw a) ≠ cfErased then (0, s)
    else
      let (k, s) := cfProgramWords otp n (a + 1) ws (if otp then otpPut a (cfEncode w) s else cfPut a (cfEncode w) s)
      (k + 1, s)

/-- A word whose program was cut short: some zeros are not yet written, those of `left` (R450). -/
def cfCutWord (otp : Bool) (a : Nat) (w : Word) (left : BitVec 26) (s : State) : State :=
  if (if otp then s.otpRaw a else s.cfRaw a) ≠ cfErased then s
  else if otp then otpPut a (cfEncode w ||| left) s else cfPut a (cfEncode w ||| left) s

/-- An erase that ran to its end: every word erased, the count one up, the Seal programmed (R452). An erased EraseCounter is not a valid one
(DEDUCED, log entry 158). -/
def cfEraseDone (n hint : Nat) (s : State) : State :=
  let k := s.cfSector n
  let old := match cfDecode (s.cfHidden n).1 with
    | some w => if (s.cfHidden n).1 = cfErased then hint else w.toNat
    | none => hint
  let new := (cfEncode (BitVec.ofNat 20 (min 1048575 (old + 1))), cfEncode 0)
  s.modNv (fun v =>
    { v with array := v.array.filter (fun e => e.1 / 2048 ≠ k),
             hidden := SMap.put (cfEncode 0, cfEncode 0) v.hidden k new })

/-- CountHint of an erase: that of the descriptor, which warden firmware fills from its last save of the counters (R452). -/
def State.countHint (s : State) (d : CfDesc) : Nat :=
  if d.purpose = .raw then d.sram % 1048576 else SMap.getD s.nv.savedErases (s.cfSector (d.addr / 2048)) 0

/-- An erase cut short or failed: some zeros are already erased, those of `gone`; the sector is unsealed (R450, R452). -/
def cfEraseCut (n : Nat) (gone : BitVec 26) (s : State) : State :=
  let k := s.cfSector n
  let count := (s.cfHidden n).1
  s.modNv (fun v =>
    { v with array := (v.array.map (fun e => if e.1 / 2048 = k then (e.1, e.2 ||| gone) else e)).filter (fun e => e.2 ≠ cfErased),
             hidden := SMap.insert v.hidden k (count ||| gone, cfErased) })

/-- Status, words done and state after an operation of the array ends (R451, R452, R461, R464, R466). -/
def cfEnd (d : CfDesc) (o : CfOutcome) (s : State) : Nat × Nat × State :=
  let sector := d.addr / 2048
  let lock := fun (n : Nat) => SMap.getD s.cf.protect n false
  let mask := match o with
    | .stopped _ left => left
    | _ => BitVec.ofNat 26 (Config.freeNat s.freeIdx)
  let s := match o with | .failed _ => { s with freeIdx := s.freeIdx + 1 } | _ => s
  let done := match o with | .ran _ => d.data.length | .failed n => n | .stopped n _ => n
  let status := match o with | .ran _ => 0 | .failed _ => 1 | .stopped _ _ => 2
  match d.opcode with
  | 1 =>
    if d.count = 0 ∨ 2048 < d.addr % 2048 + d.count ∨ 4096 ≤ sector then (7, 0, s)
    else if status = 2 then (2, min d.count done, s)
    else
      let bad := ((List.range d.count).filter (fun i => (cfDecode (s.cfRaw (d.addr + i))).isNone)).length
      (if bad = 0 then 0 else 6, d.count, s.add K.checkFailsMet bad)
  | 2 =>
    if d.data = [] ∨ 2048 < d.addr % 2048 + d.data.length ∨ 4096 ≤ sector then (7, 0, s)
    else if lock sector then (3, 0, s)
    else if !s.cfSealed sector then (5, 0, s)
    else
      let n := min done d.data.length
      let (k, s) := cfProgramWords false n d.addr d.data s
      if k < n then (4, k, s)
      else if status = 0 ∨ n = d.data.length then (0, n, s)
      else (status, n, cfCutWord false (d.addr + n) (nth d.data n 0) mask s)
  | 3 =>
    if 4096 ≤ sector then (7, 0, s)
    else if lock sector then (3, 0, s)
    else if status = 0 then (0, 0, cfEraseDone sector (s.countHint d) s)
    else (status, 0, cfEraseCut sector mask s)
  | 4 =>
    if d.count = 0 ∨ 4096 < sector + d.count then (7, 0, s)
    else if status ≠ 0 then (status, 0, s)
    else (0, 0, s.modCf (fun c => { c with protect := (List.range d.count).foldl (fun m i => SMap.insert m (sector + i) true) c.protect }))
  | 5 =>
    if d.count = 0 ∨ 2048 < d.addr + d.count then (7, 0, s)
    else if status = 2 then (2, min d.count done, s)
    else
      let bad := ((List.range d.count).filter (fun i => (cfDecode (s.otpRaw (d.addr + i))).isNone)).length
      (if bad = 0 then 0 else 6, d.count, s.add K.checkFailsMet bad)
  | 6 =>
    if d.data = [] ∨ 2048 ≤ d.addr then (7, 0, s)
    else if s.otpRaw d.addr ≠ cfErased then (4, 0, s)
    else if status = 0 ∨ 1 ≤ done then (0, 1, (cfProgramWords true 1 d.addr d.data s).2)
    else (status, 0, cfCutWord true d.addr (nth d.data 0 0) mask s)
  | _ => (7, 0, s)

/-! ## What a DONE operation has made durable -/

/-- Values that the saves of counters and clocks keep, by object (R216, R236, R251, R354, R369, R387, R455). -/
def saveKeys : SaveKind → List Nat
  | .dieCounts => (List.range 96).flatMap (fun c => (List.range 16).flatMap (fun d => [K.chDieEraseCount c d, K.chDieProgramCount c d]))
  | .calends => [K.calendsNow]
  | .power => [K.coldEntries, K.lastColdCause, K.vigilCount, K.thermalTrips, K.holdupCapacitance, K.lastVigilOutcome,
      K.lastVigilDuration, K.lastVigilMarks, K.dumpNumber, K.recordRewrites]
  | .health | .ladder => (List.range 5).map (fun k => K.ladderTotal k)
  | _ => []

/-- The write of a wake image is under way. -/
def State.imagePending (s : State) : Bool :=
  (s.cf.cur.toList ++ s.cf.queue).any (fun d => decide (d.purpose = .save .wakeImage))

/-- A copy of the wake image is written: with the last one the image matches the settings in use, unless one has changed meanwhile (R361). -/
def imageWritten (s : State) : State := if s.imagePending || s.pw.imageStale || s.pw.s5Denied then s else s.set K.wakeImageValid 1

/-- The erase counts that a save keeps: those whose counter reads valid, and the last saved of the others (R452, R455). -/
def State.eraseCounts (s : State) : SMap Nat :=
  s.nv.hidden.foldl (fun m e => match cfDecode e.2.1 with
    | some w => if e.2.1 = cfErased then m else SMap.put 0 m e.1 w.toNat
    | none => m) s.nv.savedErases

/-- Applies a save (R455); the code-flash erase counts are kept with the clock. -/
def cfSaved (k : SaveKind) (s : State) : State :=
  let s := s.modNv (fun n => { n with saved := (saveKeys k).foldl (fun m i => SMap.put 0 m i (s.get i)) n.saved })
  match k with
  | .calends => s.modNv (fun n => { n with savedErases := s.eraseCounts })
  | .harvest => s.modNv (fun n => { n with savedHarvest := s.fl.harvest })
  | .scrub => s.modNv (fun n => { n with savedScrub := s.wr.sets.map (fun e => (e.1, e.2.scrub)) })
  | .health => s.modNv (fun n => { n with savedHist := s.fl.hist })
  | .wakeImage => imageWritten s
  | .rank sub r => s.modNv (fun n => { n with saved := SMap.insert n.saved (3 * sub + r) 1 })
  | _ => s

/-- A tear record becomes durable: a release retires every tear of its die-block, an end its intent (R378). -/
def tearDurable (r : TearRec) (s : State) : State :=
  let same := fun (t : TearRec) => t.channel = r.channel && t.die = r.die
  let s := match r.typ with
    | 3 => s.modNv (fun n => { n with tears := n.tears.filter (fun t => !(t.typ = 2 && same t && t.block = r.block && t.page = r.page)) })
    | 4 =>
      let k := fun (b : Nat) => if s.density = 2 then b / 2 else b
      s.modNv (fun n => { n with tears := n.tears.filter (fun t => !(same t && k t.block = k r.block)) })
    | _ => s.modNv (fun n => { n with tears := n.tears ++ [r] })
  s.set K.tornPages (s.nv.tears.filter (fun t => t.typ = 1)).length

/-- What comes about when the operation with a purpose has ended DONE. -/
def cfDurable (d : CfDesc) (s : State) : State :=
  match d.purpose with
  | .retained _ _ seq =>
    let s := s.modCf (fun c => { c with retainedWaiting := c.retainedWaiting.filter (fun x => x.2.2 ≠ seq) })
    s.set K.retainedDurable seq
  | .log src arg minute cold up =>
    let r : LogRec := { source := src, arg := arg, minute := minute, cold := cold, uptime := up }
    s.modNv (fun n => { n with log := n.log ++ [r] })
  | .loss k => s.modNv (fun n => { n with losses := mapIf (fun r => r.number = k) (fun r => { r with durable := true }) n.losses })
  | .checkpoint c => s.modNv (fun n => { n with ckpts := n.ckpts.filter (fun x => x.set ≠ c.set || x.number ≠ c.number) ++ [c] })
  | .generation set num =>
    (match (s.sset set).gens.find? (fun g => g.num = num) with
    | some g =>
      let dens := if s.nv.moduleDensity = 0 then s.density else s.nv.moduleDensity
      let l := (SMap.getD s.nv.gens set []).filter (fun x => x.num ≠ num) ++ [g]
      s.modNv (fun n => { n with gens := SMap.insert n.gens set l, moduleDensity := dens })
    | none => s)
  | .tear r => tearDurable r s
  | .mark k => s.modNv (fun n => { n with vigilEntry := n.vigilEntry.map (fun e =>
      let m := [k]
      let w := fun i => (nth d.data i 0).toNat
      let e := { e with marks := e.marks ++ m }
      let e := if k = 0 then { e with trigger := w 1 / 8, fromState := w 1 % 8, d0 := w 2 + 1048576 * w 3 } else e
      if k = 1 then { e with s1 := w 0 + 1048576 * w 1 } else e) })
  | .arm number designation addr =>
    -- What the last Vigil left but for units not yet placed has been resolved (R349, R382).
    s.modNv (fun n => { n with vigilEntry := some { number := number, designation := designation, addr := addr },
                               dump := n.dump.map (fun d => ({ units := d.units, dies := d.dies } : Dump)) })
  | .moveEntry addr => s.modNv (fun n => { n with vigilEntry := n.vigilEntry.map (fun e => { e with addr := addr }) })
  | .spare i x =>
    -- Its row block may be usable from now on (R129, R178).
    updateStalled (s.get (K.chStripeSet (i / 32768)))
      (s.modNv (fun n => { n with spareMap := if x = noLoc then SMap.erase n.spareMap i else SMap.insert n.spareMap i x }))
  | .save k => cfSaved k s
  | .calRecord i _ => calDurable i s
  | _ => s

/-! ## A cut (R384, R466) -/

/-- The operation in progress is cut by a loss of supply: how far it came is a free value, and what it leaves is as R450 states; what it
was for has come about only if its last word was done. -/
def cfCut (s : State) : State :=
  match s.cf.cur with
  | none => s
  | some d =>
    let (i, s) := s.free
    let (j, s) := s.free
    let n := Config.freeNat i % (d.data.length + 1)
    let (status, _, s) := cfEnd d (.stopped n (BitVec.ofNat 26 (Config.freeNat j))) s
    if status = 0 then cfDurable d s else s

end Sys2Proof.Machine
end

