-- ==== Sys2Proof/Machine/Cold.lean ====
section
/-! DEFINITION. Cold.lean: entry to Cold (R350, R365, R384): what a loss of supply or a reset leaves of the media and of code flash, and that
everything else is lost; and what code flash gives back at once (R44). -/

namespace Sys2Proof.Machine

/-- The page at a place has content that no rule states: a free value (R108). -/
def pageUndefined (pma : Nat) (slc : Bool) (s : State) : State :=
  let (i, s) := s.free
  s.modFl (fun x => { x with media := SMap.insert x.media (pmaPlace pma) { bits := BitVec.ofNat 147456 (Config.freeNat i), slc := slc } })

/-- The selected planes of a block have content that no rule states: an erase was cut (R108). -/
def eraseCut (c d block planes : Nat) (s : State) : State :=
  let (i, s) := s.free
  let s := { s with freeIdx := s.freeIdx + 8192 }
  s.over ((List.range 4).filter (fun p => planes.testBit p)) (fun s p =>
    let k := pmaOf 0 c d p block 0 / 2048
    let s := s.modFl (fun x => { x with media := x.media.filter (fun m => m.1 / 2048 ≠ k) })
    s.modFl (fun x => { x with undef := SMap.insert x.undef k (i + 2048 * p) }))

/-- An array operation that the loss of supply cuts: a program leaves its word line undefined, an erase its planes. -/
def cutJob (c d : Nat) (j : DieJob) (s : State) : State :=
  match j with
  | .member p => s.over (List.range 16) (fun s t => pageUndefined (s.memberPma p.channel p.die p.block p.wl t) false s)
  | .slc j => pageUndefined (pmaOf 0 c d j.plane j.block j.page) true s
  | .rawProg _ _ pma _ => pageUndefined pma false s
  | .erase e => eraseCut c d e.block e.planes s
  | _ => s

/-- What code flash gives at each Cold entry: saved counters, the retained objects whose entries read valid, and what the loss log and the tear
ledger count (R44, R197, R346, R387, R456, R457). -/
def restoreRetained (s : State) : State :=
  let s := s.over (s.nv.saved.filter (fun e => decide (256 ≤ e.1))) (fun s e => s.set e.1 e.2)
  let (half, num, entries, top) := s.retainedImage
  let s := s.modNv (fun n => { n with activeHalf := half, halfNumber := num })
  let s := s.over entries (fun s e => s.set e.key e.value)
  let issued := s.nv.losses.foldl (fun a r => max a r.number) 0
  let s := (s.set K.lossRecordsIssued issued).set K.lossPending (issued - s.get K.lossAckedThrough)
  let s := s.set K.tornPages (s.nv.tears.filter (fun t => t.typ = 1)).length
  (s.set K.retainedAccepted top).set K.retainedDurable top

/-! ## Rails (R364, R365) -/

def State.modPw (s : State) (f : Power → Power) : State := { s with pw := f s.pw }

/-- Bits of RailPowerGood of a group, numbered from 1 for A (R364). -/
def groupPairs (g : Nat) : List Nat := if g = 1 then [0] else if g = 2 then [1, 2, 3] else if g = 3 then [4, 5, 6, 7] else if g = 4 then [8, 9, 10, 11] else []

/-- Mask of RailPowerGood of the first n groups. -/
def groupsMask (n : Nat) : Nat := ((List.range n).flatMap (fun g => groupPairs (g + 1))).foldl (fun a k => a + 2 ^ k) 0

/-- The group raised last goes down, its power goods with it; the next follows 0.5 ms later (R365). -/
def lowerGroup (s : State) : State :=
  let n := s.pw.groups - 1
  let s := s.set K.railPowerGood (s.get K.railPowerGood &&& groupsMask n)
  s.modPw (fun p => { p with groups := n, hold := false, railsDone := false, lowering := if n = 0 then none else some s.now })

/-- Powers the rails down in reverse order of groups (R365). -/
def lowerRails (s : State) : State := if s.pw.lowering.isSome ∨ s.pw.groups = 0 then s else lowerGroup s

/-- The next group goes down 0.5 ms after the last (R365). -/
def lowerNext (s : State) : State :=
  match s.pw.lowering with
  | some t => if t + 500 ≤ s.now then lowerGroup s else s
  | none => s

/-- Every enable is low at once, as while MOD_RST_N is low (R342). -/
def railsOff (s : State) : State := (s.set K.railPowerGood 0).modPw (fun p => { p with groups := 0, hold := false, railsDone := false, lowering := none })

/-- Entry to Cold for a cause of LastColdCause (R350, R354): pins released, rails powered down (R365); the media, code flash and the one-time-programmable
row stay, with what was in progress cut. `wait` is the wait for VIN_GOOD after a Vigil (R386). -/
def enterCold (cause : Nat) (wait : Bool) (s : State) : State :=
  let s := lowerRails (cfCut s)
  let good := s.get K.railPowerGood
  let s := s.over s.fl.dies (fun s e =>
    match e.2.cur with
    | some j => s.when e.2.inArray (cutJob (e.1 / 16) (e.1 % 16) j)
    | none => s)
  let durable := s.get K.journalDurable
  -- A record is on media once a copy of its page has passed.
  let kept := fun (k : Nat) => decide (k < durable) || s.wr.jPages.any (fun p => p.first ≤ k && decide (k < p.first + p.n) && decide (p.left < p.copies))
  let last := match s.pw.vigil with | some v => max v.nextSeq (s.get K.journalSequence) | none => s.get K.journalSequence
  let nv := { s.nv with journal := s.wr.journal.filter (fun e => kept e.1), journalDurable := durable, journalEnd := last,
                        losses := s.nv.losses.filter (fun r => r.durable),
                        -- No record is dropped: those not yet durable, and those that wait, are declared again (R190, log 152).
                        lossKept := s.nv.losses.filter (fun r => !r.durable) ++ s.wr.lossWaiting ++ s.nv.lossKept }
  -- Before the restore has run the journal of the last loss of supply still stands.
  let nv := if s.pw.restored then nv
    else { nv with journal := s.nv.journal, journalDurable := s.nv.journalDurable, journalEnd := s.nv.journalEnd }
  let pw : Power := { groups := s.pw.groups, lowering := s.pw.lowering, straps := s.pw.straps,
                      manager := s.pw.manager, resetLow := s.pw.resetLow, aonValid := s.pw.aonValid, coreEn := s.pw.aonValid, supplyLow := s.pw.supplyLow,
                      tripped := s.pw.tripped, vinWait := wait, cause := cause, riseAt := s.now }
  let t := (restoreRetained
    { State.reset with
      nv := nv, pw := pw, out := s.out, pending := s.pending, now := s.now, coldAt := s.now, freeIdx := s.freeIdx,
      fl := { media := s.fl.media, undef := s.fl.undef, scrubPass := 0 },
      sb := s.sb.map (fun e => (e.1, { released := e.2.released })) }).when (decide (good ≠ 0)) (fun s => s.set K.railPowerGood good)
  -- The states of ranks whose retirement is recorded come from code flash (R275, R281).
  let t := t.over (List.range 8) (fun t sub => t.over ((List.range 2).filter (fun r => SMap.getD nv.saved (3 * sub + r) 0 = 1)) (fun t r =>
    (t.set (if r = 0 then K.dramRankState0 sub else K.dramRankState1 sub) 3).set (K.dramSpareHalfState sub) 3))
  -- The change of mode is an occurrence of ModeChange in the Cold that it enters; ModeChanges counts from there (R350, R354; log entry 168).
  if s.mode = 0 then t else occur 1176 (8 * s.mode + 64 * (s.get K.modeReason % 128)) t

end Sys2Proof.Machine
end

