-- ==== Sys2Proof/Machine/VigilSeq.lean ====
section
/-! DEFINITION. VigilSeq.lean: the steps of the Vigil sequence after its entry (R373 to R380): the dump pages, the frozen journal, the
in-flight lists, and the marks of the Vigil entry. -/

namespace Sys2Proof.Machine

def State.modVigil (s : State) (f : Vigil → Vigil) : State := { s with pw := { s.pw with vigil := s.pw.vigil.map f } }

/-- A flash rail of a channel is lost in this Vigil: pair 4 + c div 24 or 8 + c div 24 (R365, R386). -/
def State.unpowered (s : State) (c : Nat) : Bool :=
  (s.pw.vigil.map (fun v => v.lostRails.any (fun k => decide (k = 4 + c / 24) || decide (k = 8 + c / 24)))).getD false

/-- Changes the dump that a Vigil is writing. -/
def State.modDump (s : State) (f : Dump → Dump) : State := s.modNv (fun n => { n with dump := some (f (n.dump.getD {})) })

/-! ## Places (R373) -/

/-- Channels with a complete set of dump dies A, B and C. -/
def State.dumpChannels (s : State) : List Nat := (s.nv.dumpDies.filter (fun e => e.2.length = 3)).map (fun e => e.1)

/-- PMA of an SLC page of dump die A, B or C (0, 1 or 2) of a channel. -/
def State.dumpPma (s : State) (c which plane page : Nat) : Nat :=
  let (d, k) := nth (SMap.getD s.nv.dumpDies c []) which (0, 0)
  pmaOf (s.get K.deviceNumber) c d plane (if s.density = 2 then 2 * k else k) page

/-- Dump page assigned in advance to staging slot k (R373). A slot whose channel has no dump dies takes a page past the planned ones of
a die C (DESIGN CHOICE, log entry 40). -/
def State.slotPma (s : State) (k : Nat) : Nat :=
  let c := k % 96
  let j := k / 96
  let l := s.dumpChannels
  if l.contains c then
    (if j < 8 then s.dumpPma c 0 (j % 4) (4 + j / 4)
     else if j ≤ 17 then s.dumpPma c 1 (j % 4) ((j - 8) / 4)
     else s.dumpPma c 2 (j % 4) ((j - 18) / 4))
  else
    let q := k / l.length
    s.dumpPma (nth l (k % l.length) 0) 2 (q % 4) (200 + q / 4 % 300)

/-- The nth free dump page of dies B and C (R374 step 7). -/
def State.extraPma (s : State) (e : Nat) : Nat :=
  let l := s.dumpChannels
  let q := e / l.length
  s.dumpPma (nth l (e % l.length) 0) (1 + q % 2) (q / 2 % 4) (12 + q / 8 % 180)

/-- The nth page of journal tail, lists and state: SLC pages 0 to 3 of dies A (R373). -/
def State.frontPma (s : State) (m : Nat) : Nat :=
  let l := s.dumpChannels
  let q := m / l.length
  s.dumpPma (nth l (m % l.length) 0) 0 (q % 4) (q / 4 % 4)

/-! ## Dump pages (R375, R380) -/

/-- Header of a dump page (R375). -/
def dumpHeader (pma kind index set lui tag seq : Nat) (s : State) : PageHeader :=
  let k := if s.density = 2 then pmaBlock pma / 2 else pmaBlock pma
  encodeHeader
    { kind := kind, set := set, position := 0, width := 0, index := index, calends := s.tagFor (pmaCh pma) (pmaDie pma) k true,
      generation := if kind = 6 then s.get K.vigilCount % 1048576 else 0,
      row := if kind = 6 then (s.pw.vigil.map (fun v => v.ordinal)).getD 0 else 0, lui := lui, tag := tag, seq := seq }

/-- An entry of an in-flight list (R380). -/
def vprogDuo (p : VProg) : Nat :=
  p.result * 2 ^ 38 + (if p.slc then 2 ^ 37 else 0) + p.channel * 2 ^ 30 + p.die * 2 ^ 26 + p.planes * 2 ^ 22 + p.block * 2 ^ 10 + p.wl

/-- Frame f of an in-flight list as it stands, ended by a duo of all ones (R380). The metadata of its frames carries no kind of R133
(log entry 41). -/
def listFrame (l : List VProg) (f : Nat) : Payload :=
  dataPayload (BitVec.ofNat 32768 (duosNat (((l.map vprogDuo ++ [0xFFFFFFFFFF]).drop (819 * f)).take 819))) 0 0 0 6

/-- The page that a dump item makes at a place (R375, R380); a state page's layout is the buffer's own. -/
def dumpImage (pma : Nat) (item : DumpItem) (s : State) : BitVec 147456 :=
  match item with
  | .unit u seq => encodePage pma u.frames (dumpHeader pma 6 0 u.set u.lui u.tag seq s)
  | .list isInitial =>
    encodePage pma ((List.range 4).map (listFrame ((s.pw.vigil.map (fun v => v.inflight)).getD [])))
      (dumpHeader pma 6 (if isInitial then 0x3D else 0x3B) 0 0 0 0 s)
  | .tail first n => encodePage pma ((List.range 4).map (journalFrame s first n)) (dumpHeader pma 5 0 0 0 0 first s)
  | .state => encodePage pma ((List.range 4).map (fun f => Config.freePayload (4 * s.freeIdx + f))) (dumpHeader pma 6 0x3C 0 0 0 0 s)

/-- Queues the program of a dump page. -/
def pushDump (pma : Nat) (item : DumpItem) (s : State) : State :=
  let image := dumpImage pma item s
  let s := { s with freeIdx := s.freeIdx + 1 }
  let s := s.modVigil (fun v => { v with ordinal := v.ordinal + 1 })
  pushProg (pmaCh pma) (pmaDie pma)
    (.slc { journal := none, block := pmaBlock pma, page := pmaPage pma, image := image, burst := false, dump := some item, plane := pmaPlane pma }) s

/-- Units taken from shadows, with the next sequences above S1 in order (R375). -/
def numbered (n : Nat) (l : List (SUnit × Option Nat)) : List (SUnit × Option Nat) :=
  (l.zip (List.range l.length)).map (fun e => ({ e.1.1 with ticket := n + e.2 }, e.1.2))

/-- Dumps a unit taken from a shadow: one of a reset program on pages 6 to 9 of its die A, another on a free page of a die B or C (R374). -/
def dumpExtra (e : SUnit × Option Nat) (s : State) : State :=
  match s.pw.vigil with
  | none => s
  | some v =>
    let s := s.modVigil (fun v => { v with usedExtra := v.usedExtra + (if e.2.isNone then 1 else 0) })
    pushDump (e.2.getD (s.extraPma v.usedExtra)) (.unit e.1 e.1.ticket) s

/-- Programs copies of a page on different channels, from the front pages of dies A (R374). -/
def dumpCopies (n : Nat) (item : DumpItem) (s : State) : State :=
  s.over (List.range n) (fun s _ =>
    match s.pw.vigil with
    | none => s
    | some v => pushDump (s.frontPma v.usedA) item (s.modVigil (fun v => { v with usedA := v.usedA + 1 })))

/-- Journal records from one on, 816 to a page (R125). -/
def dumpTail (first last : Nat) : Nat → State → State
  | 0, s => s
  | n + 1, s =>
    if last ≤ first then s
    else dumpTail (first + 816) last n (dumpCopies 2 (.tail first (min 816 (last - first))) s)

/-- What the dump pages still queued or under way carry. -/
def State.dumpJobs (s : State) : List DumpItem :=
  s.fl.dies.flatMap (fun e =>
    ((match e.2.cur with | some j => [j] | none => []) ++ e.2.progs.map (fun x => x.1)).filterMap (fun j =>
      match j with | .slc j => j.dump | _ => none))

/-- A dump page has been programmed: what it holds is on media. -/
def dumpPassed (item : DumpItem) (s : State) : State :=
  match item with
  | .tail first n => s.modDump (fun d =>
      { d with tail := (List.range n).foldl (fun m i =>
          match SMap.find? s.wr.journal (first + i) with | some r => SMap.insert m (first + i) r | none => m) d.tail })
  | .list isInitial =>
    let l := (s.pw.vigil.map (fun v => v.inflight)).getD []
    let l := if isInitial then l.map (fun p => if p.result = 2 then p else { p with result := 3 }) else l
    s.modDump (fun d => if isInitial then { d with initial := some l } else { d with outcome := some l })
  | .unit u seq => s.modDump (fun d => { d with units := d.units ++ [(u, seq)], unitPages := d.unitPages + 1 })
  | .state => s.modDump (fun d =>
      { d with hasState := true, scrub := s.wr.sets.map (fun e => (e.1, e.2.scrub)), hist := s.fl.hist,
               saved := (saveKeys .dieCounts ++ saveKeys .ladder).foldl (fun m i => if s.get i = 0 then m else SMap.insert m i (s.get i)) [] })

/-! ## Marks (R379) -/

/-- Words of mark k: 0 Entry with Trigger, FromState and D0; 1 S1 and JournalSafe; 2 CheckpointsSafe; 3 ProgramsEnded; 4 StagingSafe. -/
def markWords (v : Vigil) (k : Nat) : Nat × List Word :=
  entryMark { number := 0, designation := 0, addr := 0, trigger := v.trigger, fromState := v.fromState, d0 := v.d0, s1 := v.s1.getD 1 - 1 } k

/-- Queues a mark, once, ahead of every other code-flash operation. -/
def queueMark (k : Nat) (s : State) : State :=
  match s.pw.vigil, s.nv.vigilEntry with
  | some v, some e =>
    if v.queued.testBit k then s
    else
      let (off, ws) := markWords v k
      cfPush 2 0 (e.addr + off) ws.length 0 ws (.mark k) (s.modVigil (fun v => { v with queued := v.queued ||| 2 ^ k }))
  | _, _ => s

/-- Marks written. -/
def State.marks (s : State) : List Nat := (s.nv.vigilEntry.map (fun e => e.marks)).getD []

/-- LastVigilMarks of marks written (R387): bit k for mark k in R379's order of Entry, JournalSafe, CheckpointsSafe, ProgramsEnded,
StagingSafe and End. -/
def marksValue (l : List Nat) : Nat := (List.range 6).foldl (fun a k => if l.contains k then a + 2 ^ k else a) 0

/-! ## Progress (R374) -/

/-- Step 4: the resets of step 3 have ended: the journal is frozen, the units taken from shadows take their numbers, and tail and initial list are queued
(R374, R375). -/
def vigilFreeze (s : State) : State :=
  match s.pw.vigil with
  | none => s
  | some v =>
    let s1 := s.get K.journalSequence
    let s := s.modVigil (fun v => { v with s1 := some s1, nextSeq := s1 + v.extra.length, extra := numbered s1 v.extra })
    -- From S3 and below only the marks and CalendsNow are written (R376).
    if 3 ≤ v.fromState then s else dumpCopies 2 (.list true) (dumpTail v.d0 s1 (s1 - v.d0) s)

/-- Step 6: every staged unit to its dump page, the units of reset programs, and the state pages (R374). -/
def vigilUnits (s : State) : State :=
  match s.pw.vigil with
  | none => s
  | some v =>
    let s := s.modVigil (fun v => { v with dumped := true, extra := [] })
    if 3 ≤ v.fromState then s
    else
      let staged := s.wr.sets.flatMap (fun e => e.2.queue)
      let s := s.over staged (fun s k => match SMap.find? s.wr.slots k with
        | some u => pushDump (s.slotPma k) (.unit u u.ticket) s
        | none => s)
      dumpCopies 1 .state (s.over v.extra (fun s u => dumpExtra u s))

/-- Step 7: the outcome list, and the units of programs that failed, numbered on from those before (R374, R375). -/
def vigilOutcome (s : State) : State :=
  match s.pw.vigil with
  | none => s
  | some v =>
    let s := s.modVigil (fun v => { v with outcomeBuilt := true, failSeq := v.nextSeq, nextSeq := v.nextSeq + v.failed.length, failed := [] })
    if 3 ≤ v.fromState then s
    else dumpCopies 2 (.list false) (s.over (numbered v.nextSeq (v.failed.map (fun u => (u, none)))) (fun s u => dumpExtra u s))

/-- A program that began before the entry is still under way. -/
def State.inFlight (s : State) : Bool :=
  s.fl.dies.any (fun e => match e.2.cur with
    | some (.member _) => true
    | some (.rawProg _ _ _ _) => true
    | some (.slc j) => j.dump.isNone
    | _ => false)

/-- A unit page of step 7 is still to be programmed. -/
def failedUnitLeft (v : Vigil) (item : DumpItem) : Bool := match item with | .unit _ seq => decide (v.failSeq ≤ seq) | _ => false

/-- Every die reset of step 3 has ended. -/
def State.resetsOver (s : State) : Bool := s.fl.dies.all (fun e => match e.2.cur with | some (.reset _) => false | _ => true)

/-- Ends the Vigil sequence: the rails go down and the buffer enters Cold, where it waits for VIN_GOOD; clean if the End mark was written
(R372, R374, R386). -/
def vigilOver (clean : Bool) (s : State) : State :=
  let since := match s.pw.vigil with | some v => s.now - v.startedAt | none => 0
  let s := s.modDump (fun d => 
      { d with duration := if clean then since else 0,
               dies := s.nv.dumpDies.foldl (fun m e => SMap.insert m e.1 (SMap.getD m e.1 [] ++ e.2)) d.dies })
  let s := s.modNv (fun n => { n with saved := SMap.insert n.saved K.vigilCount (s.get K.vigilCount) })
  enterCold (if clean then 3 else 4) true s

/-- The condition of a step of R374 holds. -/
def State.vigilStepMet (s : State) (v : Vigil) (k : Nat) : Bool :=
  match k with
  | 2 => true
  | 3 => true
  | 4 => s.resetsOver
  | 5 => s.marks.contains 0
  | 6 => s.marks.contains 1
  | 7 => !s.inFlight
  | 8 => s.marks.contains 3 && v.dumped && !s.dumpJobs.any (fun i => match i with | .unit _ _ => true | .state => true | _ => false)
  | 9 => s.marks.contains 2 && s.marks.contains 4
  | _ => false

/-- Takes every step of R374 whose condition now holds; Pepper ends the sequence at VigilCutStep (R487). -/
def vigilAdvance (s : State) : State :=
  match s.pw.vigil with
  | none => s
  | some v =>
    if s.pw.supplyLow then s
    else if s.flag K.pepperEnable ∧ s.vigilStepMet v (s.get K.vigilCutStep) then vigilOver false s
    else
    let s := if v.s1.isNone && s.resetsOver then vigilFreeze s else s
    let frozen := ((s.pw.vigil.map (fun v => v.s1.isSome)).getD false)
    let front := fun (i : DumpItem) => match i with | .tail _ _ => true | .list b => b | _ => false
    let s := s.when (frozen && !s.dumpJobs.any front) (queueMark 1)
    let s := s.when (s.marks.contains 1 && !v.dumped) vigilUnits
    let s := s.when (frozen && !v.outcomeBuilt && !s.inFlight) vigilOutcome
    match s.pw.vigil with
    | none => s
    | some v =>
      let jobs := s.dumpJobs
      let s := s.when (v.outcomeBuilt && !jobs.any (fun i => failedUnitLeft v i || i = .list false)) (queueMark 3)
      let units := jobs.any (fun i => match i with | .unit _ _ => true | .state => true | _ => false)
      let s := s.when (v.dumped && !units && s.marks.contains 3) (queueMark 4)
      let cf := (match s.cf.cur with | some d => [d] | none => []) ++ s.cf.queue
      s.when (s.marks.contains 0 && !cf.any (fun d => d.cls = 1)) (queueMark 2)

/-! ## Ends of media operations in Vigil (R374 step 3, R380) -/

/-- Notes the true result of a program in flight (R380). -/
def vigilResult (c d result : Nat) (s : State) : State :=
  s.modVigil (fun v => { v with inflight := mapIf (fun p => p.channel = c ∧ p.die = d ∧ p.result = 3) (fun p => { p with result := result }) v.inflight })

/-- Units of a member program, from its shadows: a relocated unit's source still holds it (R375). -/
def shadowUnits (p : MemberProg) : List SUnit := p.pages.filterMap (fun pg => pg.sunit.bind (fun u => if u.source.isNone then some u else none))

/-- The die-block of a page has been retired. -/
def State.retiredPage (s : State) (pma : Nat) : Bool := decide ((s.hrec (s.dieBlock (pmaCh pma) (pmaDie pma) (pmaBlock pma))).state = 4)

/-- A dump page that failed is programmed again on another dump die-block (R211). -/
def dumpAgain (item : DumpItem) (s : State) : State :=
  match s.pw.vigil with
  | none => s
  | some v =>
    let e := (((List.range 4096).map (fun i => v.usedExtra + i)).find? (fun e => !s.retiredPage (s.extraPma e))).getD v.usedExtra
    pushDump (s.extraPma e) item (s.modVigil (fun v => { v with usedExtra := e + 1 }))

/-- An array operation of a die has ended during Vigil, passed or not. -/
def vigilJobEnded (c d : Nat) (j : DieJob) (passed : Bool) (s : State) : State :=
  let s := s.modDie c d (fun x => { x with cur := none })
  let page := fun (pma : Nat) (slc : Bool) (image : BitVec 147456) (s : State) =>
    s.modFl (fun x => { x with media := SMap.insert x.media (pmaPlace pma) { bits := image, slc := slc } })
  let s := match j with
    | .member p =>
      if passed then vigilResult c d 0 (writeMember p (tagProgram c d p.block false p.started p.temp s))
      else
        let s := s.over (List.range 16) (fun s t => pageUndefined (s.memberPma c d p.block p.wl t) false s)
        (vigilResult c d 1 s).modVigil (fun v => { v with failed := v.failed ++ shadowUnits p })
    | .slc j =>
      let pma := pmaOf (s.get K.deviceNumber) c d j.plane j.block j.page
      if passed then
        let k := if s.density = 2 then j.block / 2 else j.block
        let s := tagProgram c d k true (s.die c d).start.1 (s.die c d).start.2 (page pma true j.image s)
        (match j.dump, j.journal with
        | some i, _ => dumpPassed i s
        | none, some first => vigilResult c d 0 (journalCopyPassed first s)
        | none, none => vigilResult c d 0 s)
      else
        let s := pageUndefined pma true s
        (match j.dump with
        | some i => dumpAgain i s
        | none =>
          -- The records of a journal page are programmed again, on a dump die-block: no other program starts now (R211, R374).
          let s := vigilResult c d 1 s
          (match j.journal with
          | some first => dumpCopies 1 (.tail first (match s.wr.jPages.find? (fun p => p.first = first) with | some p => p.n | none => 816)) s
          | none => s))
    | .rawProg _ _ pma image =>
      let s := ledgerAppend { typ := 3, planes := 2 ^ pmaPlane pma, channel := c, die := d, block := pmaBlock pma, page := pmaPage pma / 4 * 4,
                              cause := 0, slc := false } s
      if passed then
        let k := if s.density = 2 then pmaBlock pma / 2 else pmaBlock pma
        vigilResult c d 0 (tagProgram c d k false (s.die c d).start.1 (s.die c d).start.2 (page pma false image s))
      else vigilResult c d 1 (pageUndefined pma false s)
    | _ => s
  vigilAdvance s

end Sys2Proof.Machine
end

