-- ==== Sys2Proof/Machine/Channels.lean ====
section
/-! DEFINITION. Channels.lean: the channel sequencers: die queues, bus grants, status polls, busy timeouts, temperature and
throttling, capture framing, shorts, isolation and lost dies (Flash Channels). -/

namespace Sys2Proof.Machine

/-! ## Events and losses (R204, R230, R232) -/

/-- Notes that a set has lost a member: MEMBER_LOSS responds (R180). Die 16 stands for the whole channel. -/
def noteLoss (c d : Nat) (s : State) : State :=
  let set := s.get (K.chStripeSet c)
  s.when (decide (set ≤ 7)) (fun s => s.modSet set (fun t => { t with lossPending := t.lossPending ++ [(c, d)] }))

/-- A die becomes lost (R204, R232): cause 1 busy timeouts, 2 reset timeout, 3 failing blocks, 4 open chip enable, 5 missing at
training, 6 shorted chip enable. -/
def dieLost (c d cause : Nat) (s : State) : State :=
  if 3 ≤ s.get (K.chDieState c d) then s
  else
    let s := s.set (K.chDieState c d) 4
    withdrawPlacements (placedOn c d) (noteLoss c d (chEvent c 5 (d + 16 * cause) s))

/-- The four dies behind a chip-enable line become lost (R227, R228). -/
def lineLost (c line cause : Nat) (s : State) : State :=
  s.over (List.range 4) (fun s k => s.when (s.fitted c (4 * line + k)) (dieLost c (4 * line + k) cause))

/-- Turns the drivers of a channel off and ends a training of it (R227, R231). -/
def driversOff (c : Nat) (s : State) : State := s.modChan c (fun x => { x with driversOff := true, training := none })

/-- Isolates a channel (R230): State 3, Isolated, and its set responds; drivers go off for a short or an open DQS. A channel that leaves
service must train again before a plan lists it (R192). -/
def isolate (c cause : Nat) (s : State) : State :=
  let s := if cause ≤ 2 then driversOff c s else s.modChan c (fun x => { x with training := none })
  if s.get (K.chState c) = 3 then s
  else
    let s := (s.set (K.chState c) 3).set (K.chCalSource c) 0
    withdrawPlacements (placedOn c 16) (noteLoss c 16 (chEvent c 4 cause s))

/-- Starts a training of a channel, unless one runs: from State 2, State reads 1 meanwhile (R222). -/
def startTraining (c : Nat) (s : State) : State :=
  if (s.chan c).training.isSome then s
  else
    let st := s.get (K.chState c)
    let s := (calStart c s).modChan c (fun x => { x with training := some st })
    s.when (st = 2) (fun s => s.set (K.chState c) 1)

/-! ## Tears (R378, R381) -/

/-- Pages of the word line that a tear record names, on every plane of its mask (R381). -/
def tornPages (dev : Nat) (r : TearRec) : List Nat :=
  ((List.range 4).filter (fun p => r.planes.testBit p)).flatMap (fun p =>
    (if r.slc then [r.page] else (List.range 4).map (fun i => r.page + i)).map (fun g => pmaOf dev r.channel r.die p r.block g))

/-- A program was cut short: its pages enter the torn-page index in the same step as the tear record (R144), and what they hold is
undefined. -/
def tear (r : TearRec) (s : State) : State :=
  let s := s.over (tornPages (s.get K.deviceNumber) r) (fun s p =>
    let (i, s) := s.free
    s.modFl (fun x => { x with torn := SMap.put false x.torn (pmaPlace p) true,
                               media := SMap.insert x.media (pmaPlace p) { bits := BitVec.ofNat 147456 (Config.freeNat i), slc := r.slc } }))
  ledgerAppend r s

/-- The tear record of a member program. -/
def memberTear (s : State) (p : MemberProg) (cause : Nat) : TearRec :=
  { typ := 1, planes := 15, channel := p.channel, die := p.die, block := if s.density = 2 then 2 * p.block + p.wl / 512 else p.block,
    page := 4 * (p.wl % 512), cause := cause, slc := false }

/-- The tear record of an SLC or raw page. -/
def pageTear (typ pma cause : Nat) (slc : Bool) : TearRec :=
  { typ := typ, planes := 2 ^ pmaPlane pma, channel := pmaCh pma, die := pmaDie pma, block := pmaBlock pma,
    page := if slc then pmaPage pma else pmaPage pma / 4 * 4, cause := cause, slc := slc }

/-! ## Throttling (R217, R218) -/

/-- Temperature of a die in 1/16 °C. -/
def State.dieTemp (s : State) (c d : Nat) : Int := s20 (s.get (K.chDieTemperature c d))

/-- Fitted dies of a channel. -/
def State.fittedDies (s : State) (c : Nat) : List Nat := (List.range 16).filter (fun d => s.fitted c d)

/-- A die programs or erases, also an operation that no one waits for any longer. -/
def Die.writing (x : Die) : Bool := match x.cur with
  | some (.read _) => false
  | some (.reset _) => false
  | some (.gone p e) => decide (p + e ≠ 0)
  | none => false
  | _ => true

/-- Throttling keeps a program or erase from starting on a die (R218). -/
def State.throttled (s : State) (c d : Nat) : Bool :=
  let limit := s20 (s.get (K.chThrottleLimit c))
  s.flag (K.chThrottleActive c) && (decide (limit ≤ s.dieTemp c d) || (s.fittedDies c).any (fun k => decide (limit + 160 ≤ s.dieTemp c k))
    || decide (4 ≤ ((s.fittedDies c).filter (fun k => (s.die c k).writing)).length))

/-- Sets ThrottleActive from the temperatures of the channel's dies and raises Throttle at a change (R218). -/
def updateThrottle (c : Nat) (s : State) : State :=
  let limit := s20 (s.get (K.chThrottleLimit c))
  let dies := s.fittedDies c
  let hot := dies.foldl (fun a d => if s.dieTemp c a < s.dieTemp c d then d else a) (dies.headD 0)
  if s.flag (K.chThrottleActive c) then
    (if dies.all (fun d => decide (s.dieTemp c d ≤ limit - 48)) then chEvent c 10 (2 * hot) (s.set (K.chThrottleActive c) 0) else s)
  else (if dies.any (fun d => decide (limit ≤ s.dieTemp c d)) then chEvent c 10 (1 + 2 * hot) (s.set (K.chThrottleActive c) 1) else s)

/-- DIE_TEMPERATURE_READ (R217): only while the die has no array operation or reset in progress. -/
def execDieTemperatureRead (c : Fin 96) (d : Fin 16) (t : BitVec 20) (s : State) : Res :=
  .next (if s.fitted c d ∧ (s.die c d).inArray = false ∧ (s.chan c).driversOff = false ∧ (s.chan c).linesOff.contains (d.val / 4) = false
        ∧ s.get K.powerState = 0 then
      let s := s.modDie c d (fun x => { x with tempAt := some s.now })
      -- LUN Get Features at the profile's feature address (R199, R217).
      let s := s.emit (.dieCommand c d 0xD4 (match (s.chan c).profile with | some x => x.tempFeature.toNat | none => 0))
      updateThrottle c (s.set (K.chDieTemperature c d) t.toNat)
    else s)

/-- ZQ_CALIBRATION_SHORT (R223): only while every LUN of the target is idle, and the flash PHYs are on (R355). -/
def execZqCalibrationShort (c : Fin 96) (target : Fin 4) (s : State) : Res :=
  .next (
    let dies := (List.range 4).map (fun k => 4 * target.val + k)
    if (s.chan c).driversOff = false ∧ (s.chan c).training.isNone ∧ dies.all (fun d => !(s.die c d).inArray) ∧ s.serving ∧ s.get K.powerState = 0 then
      let s := s.over dies (fun s d => s.modDie c d (fun x => { x with zqTemp := s.get (K.chDieTemperature c d) }))
      s.emit (.dieCommand c (4 * target.val) 0xD9 0)
    else s)

/-- WRITE_CHECK (R223): run on an idle die; a failed check starts a retrain. -/
def execWriteCheck (c : Fin 96) (d : Fin 16) (passed : Bool) (s : State) : Res :=
  .next (if s.fitted c d ∧ (s.die c d).cur.isNone ∧ s.get (K.chState c) = 2 ∧ s.get K.powerState = 0 then
      let s := (s.modChan c (fun x => { x with writeCheckAt := s.now })).emit (.onfiTraining c d 2)
      if passed then s else startTraining c s
    else s)

/-- PIN_CURRENT_PEAK_SAMPLE (R396): the peak detector keeps the highest current since the last read. -/
def execPinCurrentPeakSample (c : Fin 96) (current : BitVec 20) (s : State) : Res :=
  .next (if SMap.getD s.mon.faultyCh c false then s
    else if s20 (s.get (K.chPinCurrentPeak c)) < s20 current.toNat then s.set (K.chPinCurrentPeak c) current.toNat else s)

/-- PIN_CURRENT_TRIP (R227): a short of a data or control line turns the drivers off and isolates the channel; a short of
chip-enable lines alone loses their dies. -/
def execPinCurrentTrip (c : Fin 96) (lines : BitVec 17) (current : BitVec 20) (s : State) : Res :=
  .next (if (s.chan c).driversOff ∨ lines = 0 then s
    else
      let v := lines.toNat
      let s := if SMap.getD s.mon.faultyCh c false = false ∧ s20 (s.get (K.chPinCurrentPeak c)) < s20 current.toNat then
        s.set (K.chPinCurrentPeak c) current.toNat else s
      let s := chEvent c 2 (v + 2 ^ 17) (s.set (K.chShortMask c) (s.get (K.chShortMask c) ||| (v % 1024)))
      if v % 1024 ≠ 0 ∨ v / 16384 ≠ 0 then isolate c 1 s
      else s.over (List.range 4) (fun s k => s.when (v.testBit (10 + k)) (fun s =>
        lineLost c k 6 (s.modChan c (fun x => { x with linesOff := if x.linesOff.contains k then x.linesOff else x.linesOff ++ [k] })))))

/-- A write of Recalibrate (R222). -/
def recalibrateEffect (c : Nat) (s : State) : State := if 2 ≤ s.get (K.chState c) then startTraining c s else s

/-- A write of 1 to AdminIsolate while State is 2 isolates the channel (R230). -/
def adminIsolateEffect (c : Nat) (s : State) : State := if s.get (K.chState c) = 2 then isolate c 3 s else s

/-! ## Issue (R149, R150, R205, R206) -/

/-- Reads of a die's queue that it may take: a retired or lost die takes raw reads only (R203). -/
def State.queuedReads (s : State) (c d : Nat) : List (Nat × PageRead) :=
  let l := (s.die c d).readEntries.filterMap (fun i => (SMap.find? s.fl.reads i).map (fun r => (i, r)))
  if 3 ≤ s.get (K.chDieState c d) then l.filter (fun e => s.rawRead e.2.owner) else l

/-- The read at a die's queue that is served next: in class order, oldest first, and one background read in 64 picks (R149). -/
def State.leadRead (s : State) (c d : Nat) : Option (Nat × PageRead) :=
  let rs := s.queuedReads c d
  let bg := rs.find? (fun e => e.2.cls = 3)
  if 63 ≤ (s.die c d).sinceBackground ∧ bg.isSome then bg else [0, 1, 2, 3].findSome? (fun c => rs.find? (fun e => e.2.cls = c))

/-- Two reads of a die can be one multi-plane read: one class, page number and mode, distinct planes, and one block unless the die profile
marks the planes as independently addressable (R206). -/
def State.mergeable (s : State) (a b : PageRead) : Bool :=
  let free := match (s.chan (pmaCh a.pma)).profile with | some x => x.planesFree | none => false
  a.cls = b.cls && pmaPage a.pma = pmaPage b.pma && (free || pmaBlock a.pma = pmaBlock b.pma) && pmaPlane a.pma ≠ pmaPlane b.pma
    && s.slcPage a.pma = s.slcPage b.pma

/-- Reads merged with a lead, at most four, on distinct planes. -/
def State.mergeSet (s : State) (c d : Nat) (lead : Nat × PageRead) : List (Nat × PageRead) :=
  (s.queuedReads c d).foldl
    (fun acc e => if acc.length < 4 && acc.all (fun a => a.1 ≠ e.1 && s.mergeable a.2 e.2) then acc ++ [e] else acc) [lead]

/-- Issues a read or a merged read, each plane with its read-offset prefix (R157, R214); what it was issued with stays with the read. -/
def issueReads (c d : Nat) (es : List (Nat × PageRead)) (s : State) : State :=
  let ids := es.map (fun e => e.1)
  let bg := es.any (fun e => e.2.cls = 3)
  let s := s.modDie c d (fun x =>
    { x with reads := x.reads.filter (fun i => !ids.contains i), cur := some (.read ids), inArray := true,
             sinceBackground := if bg then 0 else x.sinceBackground + 1 })
  let s := s.over es (fun s e =>
    let l := s.readThresholds e.2
    let s := match e.2.owner with | .op ring slot _ => s.modOp ring slot (fun o => { o with begun := true }) | _ => s
    let s := s.when (e.2.step < 3 || e.2.last = []) (fun s => s.modFl (fun x =>
      { x with reads := SMap.insert x.reads e.1 { e.2 with last := if e.2.step < 3 then l else s.thresholds e.2.pma e.2.shift } }))
    emitRead e.2.pma l s)
  s.when (s.get (K.chDieState c d) = 1) (fun s => s.set (K.chDieState c d) 2)

/-- Bus class of a member program's page (R207). -/
def State.pageClass (s : State) (p : MemberProg) : Nat :=
  match nth (p.pages.map some) p.burst none with
  | some pg => (match pg.sunit with
    | some u => s.unitClass u
    | none => (((s.sset p.set).rows.find? (fun r => r.row = p.row)).map (fun r => r.cls)).getD 3)
  | none => 3

/-- Data-in is pending on the channel and no whole page is ready to burst, two pages whose shadow writes go on filling the prefetch: panic for
the page at its head, unless its panic stands (R209, R267). -/
def panicCheck (c : Nat) (s : State) : State :=
  match (s.chan c).xfers.any (fun x => x.read.isNone), s.prefetchHeld c with
  | true, j :: _ :: _ => if s.dram.panics.contains (j, c) && s.shadowWriting j c then s else raisePanic j c s
  | _, _ => s

/-- Queues a transfer for the bus. -/
def pushXfer (c d : Nat) (read : Option Nat) (cls : Nat) (s : State) : State :=
  panicCheck c (s.modChan c (fun x => { x with xfers := x.xfers ++ [{ die := d, read := read, cls := cls, since := s.now, tries := 0 }] }))

/-- The die begins an array operation. -/
def startArray (c d : Nat) (s : State) : State :=
  let s := s.modDie c d (fun x => { x with inArray := true, stretch := none })
  s.when (s.get (K.chDieState c d) = 1) (fun s => s.set (K.chDieState c d) 2)

/-- The header of a page that the buffer programs carries its die-block's write tag, which this program sets if there is none yet (R235). -/
def retagSlc (c d : Nat) (j : SlcJob) (s : State) : SlcJob :=
  match readHeader (pageHeader j.image) with
  | some h =>
    let tag := s.tagFor c d (if s.density = 2 then j.block / 2 else j.block) true
    { j with image := encodeHeader { h with calends := tag } ++ j.image.extractLsb' 0 146432 }
  | none => j

/-- Issues a program, whose data-in then takes the bus, or an erase, which starts at once. A RAW_PROGRAM leaves an intent record
first (R378). -/
def issueJob (c d : Nat) (j : DieJob) (s : State) : State :=
  let (minute, temp) := (s.get K.calendsNow, s.get (K.chDieTemperature c d))
  let j := match j with
    | .member p => .member { p with started := minute, temp := temp }
    | .slc p => .slc (retagSlc c d p s)
    | j => j
  let s := s.modDie c d (fun x => { x with cur := some j, inArray := false, forced := false, start := (minute, temp) })
  match j with
  | .member p => pushXfer c d none (s.pageClass p) s
  -- The list of R207 gives no class for the data-in of a journal or dump page: normal (DESIGN CHOICE, log entry 180).
  | .slc p => pushXfer c d none (if p.save.isSome then s.saveClass else 1) s
  | .rawProg ring slot pma _ => pushXfer c d none (s.opClass ring slot) (ledgerAppend (pageTear 2 pma 0 false) s)
  | .erase e => (startArray c d s).emit (.dieCommand c d 0x60 e.block)
  | .reset _ => (startArray c d s).emit (.dieCommand c d 0xFA 0)
  | .gone _ _ => s
  | .read _ => s

/-- A job is one of a raw descriptor. -/
def DieJob.isRaw : DieJob → Bool
  | .rawProg _ _ _ _ => true
  | .erase e => e.raw.isSome
  | _ => false

/-- A member program waits: P or Q of an earlier word line of the same row block is still to be issued on its channel, and word lines are programmed in
ascending order (R137). -/
def State.wordLineHeld (s : State) (p : MemberProg) : Bool :=
  (s.sset p.set).rows.any (fun r =>
    decide (r.die = p.die) && decide (r.wl < p.wl) && !r.parityIssued && decide (s.memberBlock p.channel p.die r.block = p.block)
      && (match s.genRec p.set r.gen with
          | some g => let (a, b) := g.parity r.die r.block r.wl; decide (nth g.channels a 127 = p.channel) || decide (nth g.channels b 127 = p.channel)
          | none => false))

/-- The program or erase that a die may start next: the first of its queue whose reads have ended and that throttling allows
(R150, R218); a retired or lost die takes raw operations only (R203). -/
def State.nextJob (s : State) (c d : Nat) : Option DieJob :=
  let x := s.die c d
  if s.throttled c d then none
  else (x.progEntries.find? (fun e =>
    (e.1.isRaw || decide (s.get (K.chDieState c d) ≤ 2)) &&
      (match e.1 with
       | .erase j => j.after.all (fun i => !((s.readsOn c d).contains i))
       | .member p => !s.wordLineHeld p
       | _ => true))).map (fun e => e.1)

/-- Pepper withholds the bus of a channel for the first part of each duty period (R487). -/
def State.busWithheld (s : State) (c : Nat) : Bool :=
  s.flag K.pepperEnable && s.mode ≠ 5 && (s.get K.channelSelect = c || s.get K.channelSelect = 255)
    && decide (s.now % s.get K.dutyPeriod * 100 < s.get K.busWithhold * s.get K.dutyPeriod)

/-- The sequencer issues operations to a channel's dies now: its drivers are on, no training or abort holds it, and the mode runs
the media. -/
def State.chanRuns (s : State) (c : Nat) : Bool :=
  let x := s.chan c
  !x.driversOff && x.training.isNone && !x.aborting && 1 ≤ s.mode && s.mode ≤ 5

/-- A temperature read of the die is due, 10 ms after the last one: it is made before any further operation is issued (R217; log entry 142); not
of a die whose chip-enable line is off, which does not answer. -/
def State.tempDue (s : State) (c d : Nat) : Bool :=
  match (s.die c d).tempAt with
  | some t => decide (t + 10000 ≤ s.now) && !((s.chan c).linesOff.contains (d / 4))
  | none => false

/-- A free die may take an operation: its channel issues and it is not absent (R203). A die whose chip-enable line is off is a lost one: it takes raw
operations, does not answer, and ends each at its busy timeout (R81, R227). -/
def State.dieTakes (s : State) (c d : Nat) : Bool :=
  s.chanRuns c && (s.die c d).cur.isNone && s.get (K.chDieState c d) ≠ 0 && !s.tempDue c d

/-- The Calends tags and offsets B that a read needs are in SRAM: after an exit from S3 it waits for their reload (R359). -/
def State.tablesBack (s : State) : Bool := !s.pw.parked.contains .mediaRecords && !s.pw.parked.contains .offsets

/-- DIE_QUEUE_ISSUE (R149): a free die takes its next read, merged read, program or erase. -/
def execDieQueueIssue (c : Fin 96) (d : Fin 16) (s : State) : Res :=
  .next (
    let x := s.die c d
    if !s.dieTakes c d then s
    else
      let lead := if s.tablesBack then s.leadRead c d else none
      match s.nextJob c d with
      | some j =>
        if x.forced ∨ lead.isNone then
          issueJob c d j (s.modDie c d (fun x => { x with progs := x.progs.eraseP (fun e => decide (e.1 = j)) }))
        else (match lead with | some l => issueReads c d (s.mergeSet c d l) s | none => s)
      | none => match lead with | some l => issueReads c d (s.mergeSet c d l) s | none => s)

/-- PROGRAM_HOLDOFF (R149): a program or erase has waited ProgramHoldoff, and is issued next. -/
def execProgramHoldoff (c : Fin 96) (d : Fin 16) (s : State) : Res :=
  .next (if (s.die c d).progs = [] then s else s.modDie c d (fun x => { x with forced := true }))

/-! ## Bus grants (R207 to R209, R224, R225) -/

/-- A transfer can be granted: a read's needs frame buffers (R151). -/
def State.xferReady (s : State) (x : Xfer) : Bool :=
  match x.read with
  | none => true
  | some i =>
    match SMap.find? s.fl.reads i with
    | none => true
    | some r => s.buffersFree r.cls (if r.step = 1 then r.frames.length else if r.step = 3 && 0 < r.pass then r.frames.length else 0)

/-- The transfer granted next and whether it is an aged data-in burst (R207). -/
def State.pickXfer (s : State) (c : Nat) : Option (Xfer × Bool) :=
  let ch := s.chan c
  -- A data-in burst starts only with a whole page ready: two pages whose shadow writes go on fill the prefetch (R209).
  let full := decide (2 ≤ (s.prefetchHeld c).length)
  let l := (ch.xfers.filter s.xferReady).filter (fun x => !(full && x.read.isNone))
  let aged := l.find? (fun x => x.read.isNone && decide (x.since + 64 ≤ s.now))
  let dl := l.any (fun x => x.cls = 0)
  match aged with
  | some x =>
    if ch.lastAged && dl then (l.find? (fun x => x.cls = 0)).map (fun x => (x, false)) else some (x, true)
  | none => ([0, 1, 2, 3].findSome? (fun k => l.find? (fun x => x.cls = k))).map (fun x => (x, false))

/-- Follows the gate edge: after 16 transfers on one side, G moves one step toward it, which ReDelay reports (R224). -/
def trackGate (c : Nat) (side : Option Bool) (s : State) : State :=
  let run := (s.chan c).gateRun
  let run := match side with
    | none => 0
    | some true => if 0 < run then run + 1 else 1
    | some false => if run < 0 then run - 1 else -1
  let s := s.modChan c (fun x => { x with gateRun := if run.natAbs = 16 then 0 else run })
  -- ReDelay reports G in [15:8] (R62).
  let v := s.get (K.chReDelay c)
  let g := v / 256 % 256
  let put := fun (g' : Nat) => s.set (K.chReDelay c) (v % 256 + 256 * g')
  if run = 16 then put (min 255 (g + 1)) else if run = -16 then put (g - 1) else s

/-- The die's register is free once every plane of its read has been transferred. -/
def readTransferred (c d id : Nat) (s : State) : State :=
  s.modDie c d (fun x => match x.cur with
    | some (.read ids) =>
      let rest := ids.filter (fun i => i ≠ id)
      { x with cur := if rest = [] then none else some (.read rest) }
    | _ => x)

/-- The frames of a page have been transferred: they enter the channel's decoder, or a RAW_READ undecoded is delivered; a step-3
page is read again for its next threshold, and enters the soft-decoder pool after the third (R155, R156, R166). -/
def pageArrived (c id : Nat) (r : PageRead) (s : State) : State :=
  let r := { r with page := s.pageBits r.pma }
  match r.owner, s.rawRead r.owner with
  | .op ring slot _, true =>
    let d3 := match s.op ring slot with | some o => descDuo o.desc 3 | none => 0
    let s := if r.step = 1 ∧ r.header ∧ d3.testBit 4 then deliverHeader ring slot (pageHeader r.page) s else s
    if d3.testBit 5 = false ∨ r.frames = [] then
      let s := s.modFl (fun x => { x with reads := SMap.erase x.reads id })
      let s := noteLadder ring slot (if r.frames = [] then 0 else 1) false s
      let s := notePeak r.frames.length s
      let s := s.over r.frames (fun s f => deliverRaw ring slot f (some (pageFrame r.page f).toNat) false true s)
      finishRead ring slot s
    else ladderArrive r s
  | _, _ => ladderArrive r s
where
  ladderArrive (r : PageRead) (s : State) : State :=
    let n := r.frames.length
    let refs := r.frames.map (fun f => ({ read := id, frame := f, cls := r.cls } : FrameRef))
    let more := if r.step = 1 ∨ (r.step = 3 ∧ 0 < r.pass) then n else 0
    let s := s.when (more ≠ 0) (takeBuffers r.cls more)
    let r := { r with held := r.held + more }
    if r.step < 3 then
      let s := s.modFl (fun x => { x with reads := SMap.insert x.reads id { r with pending := r.frames } })
      s.modChan c (fun x => { x with hardQ := x.hardQ ++ refs })
    else if r.pass < 2 then requeueRead id { r with pass := r.pass + 1, again := 0 } s
    else
      let s := s.modFl (fun x => { x with reads := SMap.insert x.reads id { r with pending := r.frames }, softQ := x.softQ ++ refs })
      s.set K.softQueuePeak (max (s.get K.softQueuePeak) s.fl.softQ.length)

/-- A mis-framed transfer (R225): two re-transfers, one more array read, then a retrain of the channel, before which DQS is probed: an open
line isolates the channel instead (R228). -/
def misFramed (c : Nat) (x : Xfer) (id : Nat) (code : Nat) (dqsOpen : Bool) (s : State) : State :=
  let s := match x.misframed with | some a => chEvent c 9 a s | none => s
  let arg := x.die + 16 * code
  if x.tries < 2 then
    s.modChan c (fun ch => { ch with xfers := { x with tries := x.tries + 1, since := s.now, misframed := some arg } :: ch.xfers })
  else
    let s := readTransferred c x.die id (chEvent c 9 arg s)
    match SMap.find? s.fl.reads id with
    | none => s
    | some r =>
      let s := requeueRead id { r with again := if r.again = 0 then 1 else 0 } s
      if r.again = 0 then s
      else if dqsOpen then
        isolate c 2 (chEvent c 3 (2 ^ 4 + 2 ^ 17) (s.set (K.chOpenMask c) (s.get (K.chOpenMask c) ||| 2 ^ 4)))
      else startTraining c s

/-- Transfers that are dropped from the bus queue: a mis-framed one that waited for its re-transfer raises its CaptureFraming now (R225). -/
def noteMisframed (c : Nat) (l : List Xfer) (s : State) : State :=
  s.over l (fun s x => match x.misframed with | some a => chEvent c 9 a s | none => s)

/-- A data-out transfer is granted. -/
def grantRead (c : Nat) (x : Xfer) (id : Nat) (framing : Framing) (parityBad : Option FabricStage) (s : State) : State :=
  -- Change Read Column Enhanced selects the frames (R199).
  let s := match SMap.find? s.fl.reads id with
    | some r => s.emit (.columnSelect (s.dieAddr r.pma (s.slcPage r.pma)) r.frames r.header)
    | none => s
  match framing with
  | .early => misFramed c x id 1 false s
  | .late => misFramed c x id 2 false s
  | .lateOpen => misFramed c x id 2 true s
  | .miscount => misFramed c x id 3 false s
  | .good side =>
    let s := trackGate c side s
    let s := match x.misframed with | some a => chEvent c 9 (a + 64) s | none => s
    let s := readTransferred c x.die id s
    match SMap.find? s.fl.reads id with
    | none => s
    | some r =>
      match parityBad with
      | some b =>
        let s := integrityError b.cls b.stage (freeBuffers r.cls r.held (s.modFl (fun f => { f with reads := SMap.erase f.reads id })))
        (match r.owner with
        | .op ring slot _ => stopIntegrity ring slot s
        | .merge ring slot _ => stopIntegrity ring slot s
        | .rescue _ => s)
      | none => pageArrived c id r s

/-- A parity mismatch met while staging feeds a program, after the page was folded (R91): the unit's range is lost, and the beat is never
programmed; the page carries the unit's blocks as carried losses, in the accumulators as on the die. -/
def stagingLoss (p : MemberProg) (t : Nat) (s : State) : MemberProg × State :=
  match nth (p.pages.map some) t none with
  | none => (p, s)
  | some pg =>
    let (pg', s) := losePage p.set p.row p.position t pg s
    let diff := (List.range 4).map (fun f => nth pg.payloads f 0 ^^^ nth pg'.payloads f 0)
    let s := s.modRow p.set p.row (fun r =>
      { r with pAcc := (r.pAcc.zip (List.range 64)).map (fun e => if e.2 / 4 = t then e.1 ^^^ nth diff (e.2 % 4) 0 else e.1),
               qAcc := (r.qAcc.zip (List.range 64)).map (fun e => if e.2 / 4 = t then e.1 ^^^ mulGPow p.index (nth diff (e.2 % 4) 0) else e.1) })
    ({ p with pages := (p.pages.zip (List.range 16)).map (fun e => if e.2 = t then pg' else e.1) }, s)

/-- Sends the unit of an unreadable shadow to ladder step 4: its frames are recovered from the other members of its row (R164, R277). -/
def rescueUnit (pma j : Nat) (s : State) : State :=
  s.modFl (fun x => { x with recon := x.recon ++ (List.range 4).map (fun f =>
    { owner := .rescue j, pma := pma, frame := f, cls := 1, degraded := true }) })

/-- A member program fails: a host unit whose shadow is unreadable is recovered from its row's other members through ladder step 4, or is lost beyond
two erasures (R139, R277). -/
def programFailed (p : MemberProg) (retire : Bool) (s : State) : State :=
  let others := match s.blockOfRow p.set p.row with
    | some rb => (rb.failedRows.filter (fun x => x.1 = p.wl ∧ x.2 ≠ p.position)).length
    | none => 0
  let bad := fun (s : State) (pg : ProgPage) => match pg.shadow, pg.sunit with
    | some j, some u => s.dram.badShadows.contains j && u.source.isNone && decide (s.entry u.set u.lui = shadowLoc j)
    | _, _ => false
  if others < 2 then
    -- Those units keep their shadows until they have been recovered.
    let go := (p.pages.zip (List.range 16)).filterMap (fun e =>
      if bad s e.1 then e.1.shadow.map (fun j => (s.memberPma p.channel p.die p.block p.wl e.2, j)) else none)
    let s := memberFailed { p with pages := p.pages.map (fun pg => if bad s pg then { pg with sunit := none } else pg) } retire s
    s.over go (fun s e => rescueUnit e.1 e.2 s)
  else
    let (p, s) := (List.range 16).foldl (fun (a : MemberProg × State) t =>
      match nth (a.1.pages.map some) t none with
      | some pg => if bad s pg then stagingLoss a.1 t a.2 else a
      | none => a) (p, s)
    memberFailed p retire s

/-- A data-in burst of a member program is granted: its page moves to the die and to its shadow, and its staging slot is released;
after the sixteenth the die programs, and after the last data member's the P and Q programs are issued (R127, R137, R208). Each burst is a
page of the multi-plane program (R199). -/
def grantMember (c d : Nat) (p : MemberProg) (s : State) : State :=
  let s := match nth (p.pages.map some) p.burst none with
    | some pg =>
      let s := match pg.shadow with | some j => writeShadow j c s | none => s
      (match pg.staged with | some k => freeSlot k s | none => s)
    | none => s
  let s := emitProgram (s.memberPma c d p.block p.wl p.burst) false s
  -- The page has left staging (R137).
  let p := { p with burst := p.burst + 1,
                    pages := (p.pages.zip (List.range 16)).map (fun e => if e.2 = p.burst then { e.1 with staged := none } else e.1) }
  let s := s.modDie c d (fun x => { x with cur := some (.member p) })
  if p.burst < 16 then pushXfer c d none (s.pageClass p) s
  else panicCheck c (dataInOver p (startArray c d s))

/-- A fabric parity mismatch in a data-in burst of a member program (R12, R91): a page that holds a unit goes on with its blocks lost; a filler, P
or Q page has nothing to lose, and its program stops, as one that is cut short (R139). -/
def grantMemberBad (c d : Nat) (p : MemberProg) (b : FabricStage) (s : State) : State :=
  let s := integrityError b.cls b.stage s
  match (nth (p.pages.map some) p.burst none).bind (fun pg => pg.sunit) with
  | some _ => let (p, s) := stagingLoss p p.burst s; grantMember c d p s
  | none => programFailed p false (s.modDie c d (fun x => { x with cur := none }))

/-- A data-in burst is granted. -/
def grantDataIn (c : Nat) (x : Xfer) (parityBad : Option FabricStage) (s : State) : State :=
  match (s.die c x.die).cur with
  | some (.member p) => (match parityBad with | some b => grantMemberBad c x.die p b s | none => grantMember c x.die p s)
  | some (.slc j) =>
    let s := emitProgram (pmaOf (s.get K.deviceNumber) c x.die j.plane j.block j.page) true s
    -- A burst with bad parity is not written to media (R12): the page, which the buffer still holds, is programmed anew.
    (match parityBad with
    | some b => pushProg c x.die (.slc j) (integrityError b.cls b.stage (s.modDie c x.die (fun y => { y with cur := none })))
    | none => startArray c x.die (s.modDie c x.die (fun y => { y with cur := some (.slc { j with burst := true }) })))
  | some (.rawProg ring slot pma _) =>
    let s := emitProgram pma false s
    (match parityBad with
    | some b =>
      let s := s.modDie c x.die (fun y => { y with cur := none })
      stopIntegrity ring slot (ledgerAppend (pageTear 3 pma 0 false) (integrityError b.cls b.stage s))
    | none => startArray c x.die s)
  | _ => s

/-- BUS_GRANT (R207): the bus goes to the next transfer; `framing` is how a data-out transfer was captured, `parityBad` the stage that
finds a fabric parity mismatch in its beats on their way (R12). -/
def execBusGrant (c : Fin 96) (framing : Framing) (parityBad : Option FabricStage) (s : State) : Res :=
  .next (if (s.chan c).driversOff ∨ s.busWithheld c then s
    else match s.pickXfer c with
      | none => s
      | some (x, aged) =>
        let s := s.modChan c (fun ch => { ch with xfers := ch.xfers.erase x, lastAged := aged })
        match x.read with
        | some id => grantRead c x id framing parityBad s
        | none => grantDataIn c x parityBad s)

/-! ## Ends of operations (R210 to R213, R215) -/

/-- Counts pages programmed or planes erased on the channel and the die (R215). -/
def countPrograms (c d n : Nat) (s : State) : State := (s.add (K.chPagePrograms c) n).add (K.chDieProgramCount c d) n
def countErases (c d n : Nat) (s : State) : State := (s.add (K.chBlockErases c) n).add (K.chDieEraseCount c d) n

/-- A block of the die failed; failures on 16 blocks within 24 h lose the die (R204). -/
def blockFailed (c d block : Nat) (s : State) : State :=
  let l := ((s.die c d).failedBlocks.filter (fun e => decide (s.now < e.2 + 86400000000)) |>.filter (fun e => e.1 ≠ block)) ++ [(block, s.now)]
  let s := s.modDie c d (fun x => { x with failedBlocks := l })
  if 16 ≤ l.length then dieLost c d 3 s else s

/-- The effects of an erase of a whole die-block (R161, R235, R243, R378): erased media, its tag, B, its count, and a release record
that retires its tears. -/
def eraseDieBlock (c d k : Nat) (s : State) : State :=
  let i := 32768 * c + 2048 * d + k
  let first := if s.density = 2 then 2 * k else k
  let inside := fun (p : Nat) => pmaCh p = c && pmaDie p = d && (pmaBlock p = first || (s.density = 2 && pmaBlock p = first + 1))
  let temp := (max 0 (min 255 (s.dieTemp c d / 16 + 64))).toNat
  let s := s.modFl (fun x =>
    { x with media := x.media.filter (fun e => !inside e.1), torn := x.torn.filter (fun e => !inside e.1),
             undef := x.undef.filter (fun e => !inside (e.1 * 2048)), offsetB := SMap.erase x.offsetB i, tags := SMap.insert x.tags i (s.get K.calendsNow % 2 ^ 28 * 4096 + temp * 16) })
  let s := s.modHrec i (fun h => { h with erases := min 131071 (h.erases + 1) })
  ledgerAppend { typ := 4, planes := 0, channel := c, die := d, block := first, page := 0, cause := 0, slc := false } s

/-- A raw erase of some planes: a whole die-block, or the pages of those planes (R81). -/
def erasePlanes (c d block planes : Nat) (s : State) : State :=
  if planes = 15 ∧ s.density ≠ 2 then eraseDieBlock c d block s
  else
    let inside := fun (p : Nat) => pmaCh p = c && pmaDie p = d && pmaBlock p = block && planes.testBit (pmaPlane p)
    s.modFl (fun x => { x with media := x.media.filter (fun e => !inside e.1), undef := x.undef.filter (fun e => !inside (e.1 * 2048)) })

/-- Frees the substitutes of a row block's members: their entries leave the spare map, and its durable copy (R178). -/
def freeSubstitutes (set d b : Nat) (s : State) : State :=
  let own := fun (e : Nat × Nat) => e.1 % 2048 = b && e.1 / 2048 % 16 = d && s.get (K.chStripeSet (e.1 / 32768)) = set
  let gone := s.wr.spareMap.filter own
  s.over gone (fun s e =>
    cfAppend .spareMap 2 (duoWords [e.1, noLoc]) (.spare e.1 noLoc) (s.modWr (fun w => { w with spareMap := SMap.erase w.spareMap e.1 })))

/-- One member's erase of a row block has ended, passed or failed: with the last, the row block is released (R243). Those that Harvest took as
victims count as reclaimed (R253). -/
def rowBlockErased (set d b : Nat) (s : State) : State :=
  match s.rowBlock set d b with
  | none => s
  | some rb =>
    let left := rb.erasing.getD 1 - 1
    if 0 < left then s.modRowBlock set d b (fun r => { r with erasing := some left })
    else
      let s := freeSubstitutes set d b (s.modWr (fun w =>
        { w with rowBlocks := w.rowBlocks.filter (fun r => ¬(r.set = set ∧ r.die = d ∧ r.block = b)) }))
      let s := if (s.sset set).victim.map (fun v => (v.1, v.2.1)) = some (d, b) then
          ((s.modSet set (fun t => { t with victim := none })).set (K.setCurrentVictim set) 0xFFFFF).inc K.rowBlocksReclaimed
        else s
      updateProtection set (updateStalled set (freeGens set s))

/-- State of a die-block after an erase that passed: a retired one stays retired, one of the spare reserve is a spare again, any other is erased
(R177, R178, R238, R243). -/
def State.erasedState (s : State) (c k old : Nat) : Nat :=
  if old = 4 then 4
  else
    let set := s.get (K.chStripeSet c)
    if 7 < set then 8 else if 2048 - s.get (K.setSetSpareReserve set) ≤ k then 5 else 0

/-- An erase passed on a whole die-block (R161, R235, R243). -/
def dieBlockErased (c d k : Nat) (s : State) : State :=
  (eraseDieBlock c d k s).modHrec (32768 * c + 2048 * d + k) (fun h =>
    { h with state := s.erasedState c k h.state, refresh := false, failed := false })

/-- Ends an erase. The two blocks of a 4 Tbit die-block take one command each (R20, R238): the second is the next program or erase of its die, after a
temperature read that is due and as throttling allows (R217, R218). A failed erase leaves its block retired, and counts
among the die's failing blocks (R204, R211). -/
def eraseEnded (c d : Nat) (e : EraseJob) (passed : Bool) (s : State) : State :=
  let s := countErases c d ((List.range 4).filter (fun p => e.planes.testBit p)).length s
  let k := if s.density = 2 then e.block / 2 else e.block
  match e.raw with
  | some (ring, slot) =>
    let s := if passed then erasePlanes c d e.block e.planes s else blockFailed c d e.block (chEvent c 8 (d + 16 * e.block + 2 ^ 16) s)
    (match s.op ring slot with
    | some o => if passed then finishOp o 0 (s.fullLength o.desc) 0 s else finishOp o 5 0 (descDuo o.desc 2) s
    | none => s)
  | none =>
    if passed && s.density = 2 && !e.second then
      s.modDie c d (fun x => { x with progs := (.erase { e with block := e.block + 1, second := true, after := [] }, s.now) :: x.progs, forced := true })
    else
      let s := if passed then dieBlockErased c d k s else blockFailed c d e.block (retireBlock c d k (chEvent c 8 (d + 16 * e.block) s))
      match e.set with | some (set, b) => rowBlockErased set d b s | none => updateStalled (s.get (K.chStripeSet c)) s

/-- The reads of a die have ended: each page counts, and its transfer waits for the bus (R207, R215). -/
def readsEnded (c d : Nat) (ids : List Nat) (s : State) : State :=
  let s := s.add (K.chPageReads c) ids.length
  s.over ids (fun s i =>
    match SMap.find? s.fl.reads i with
    | some r => pushXfer c d (some i) r.cls s
    | none => readTransferred c d i s)

/-- An SLC page programmed: its place on media, the tag, and the journal copy or the page of a save that it was (R125, R235, R347). -/
def slcPassed (c d : Nat) (j : SlcJob) (s : State) : State :=
  let pma := pmaOf (s.get K.deviceNumber) c d j.plane j.block j.page
  let s := s.modFl (fun x => { x with media := SMap.insert x.media (pmaPlace pma) { bits := j.image, slc := true } })
  let k := if s.density = 2 then j.block / 2 else j.block
  let s := tagProgram c d k true (s.die c d).start.1 (s.die c d).start.2 s
  match j.journal with
  | some first =>
    let n := match s.wr.jPages.find? (fun p => p.first = first) with | some p => p.n | none => 816
    let s := s.modFl (fun x => { x with slcSeq := SMap.modify x.slcSeq (32768 * c + 2048 * d + k) 0 (max (first + n)) })
    journalCopyPassed first s
  | none =>
    match j.save with
    | some v =>
      savePassed v (s.modFl (fun x => { x with slcSeq := SMap.modify x.slcSeq (32768 * c + 2048 * d + k) 0 (max (v.2 + 1)) }))
    | none => s

/-- The block of an SLC page is retired, and the page is programmed again on another reserved block (R211): so is one whose program timed out, or whose
die became lost, where the manual does not say what becomes of it (DESIGN CHOICE, log entries 143 and 179). -/
def slcAgain (c d : Nat) (j : SlcJob) (s : State) : State :=
  let k := if s.density = 2 then j.block / 2 else j.block
  let s := (retireBlock c d k s).modFl (fun x => { x with slcNext := SMap.erase x.slcNext c })
  replaceSlc c j s

/-- An SLC page failed: ProgramFailed, and the failure counts among the die's failing blocks (R204, R211). -/
def slcFailed (c d : Nat) (j : SlcJob) (s : State) : State :=
  slcAgain c d j (blockFailed c d j.block (chEvent c 7 (d + 16 * (j.block % 4096) + 2 * 2 ^ 16) s))

/-- What a report of FAIL in Vigil brings besides the step of its sequence: the event, the block of a member or SLC page retired, and the failure counted
(R204, R211, R232). -/
def vigilFailed (c d : Nat) (j : DieJob) (s : State) : State :=
  match j with
  | .member p =>
    let block := if s.density = 2 then 2 * p.block + p.wl / 512 else p.block
    blockFailed c d block (retireBlock c d p.block ((chEvent c 7 (d + 16 * block + (if 0x3E ≤ p.index then 2 ^ 16 else 0)) s).inc K.programFailures))
  | .slc j =>
    blockFailed c d j.block (retireBlock c d (if s.density = 2 then j.block / 2 else j.block) (chEvent c 7 (d + 16 * (j.block % 4096) + 2 * 2 ^ 16) s))
  | .rawProg _ _ pma _ => blockFailed c d (pmaBlock pma) (chEvent c 7 (d + 16 * pmaBlock pma + 3 * 2 ^ 16) s)
  | _ => s

/-- What a busy timeout in Vigil leaves of the operation: an interrupted page is in the tear ledger, and its block is retired as in service (R212). -/
def vigilTimedOut (c d : Nat) (j : DieJob) (s : State) : State :=
  match j with
  | .member p => retireBlock c d p.block (tear (memberTear s p 2) s)
  | .slc j => retireBlock c d (if s.density = 2 then j.block / 2 else j.block)
      (tear (pageTear 1 (pmaOf (s.get K.deviceNumber) c d j.plane j.block j.page) 2 true) s)
  | .rawProg _ _ pma _ => tear (pageTear 1 pma 2 false) s
  | _ => s

/-- Ends the operation of a die as its status reports it (R210, R211). -/
def opEnded (c d : Nat) (j : DieJob) (passed : Bool) (s : State) : State :=
  if s.mode = 5 then
    let s := s.when (!passed) (vigilFailed c d j)
    vigilJobEnded c d j passed (match j with
      | .member _ => countPrograms c d 16 s
      | .slc _ => countPrograms c d 1 s
      | .rawProg _ _ _ _ => countPrograms c d 1 s
      | .erase e => countErases c d ((List.range 4).filter (fun p => e.planes.testBit p)).length s
      | .read ids => s.add (K.chPageReads c) ids.length
      | .gone p e => countErases c d e (countPrograms c d p s)
      | .reset _ => s)
  else
  match j with
  | .read ids => readsEnded c d ids s
  | .reset _ => s.modDie c d (fun x => { x with cur := none })
  | .gone p e => countErases c d e (countPrograms c d p (s.modDie c d (fun x => { x with cur := none })))
  | .member p =>
    let s := countPrograms c d 16 (s.modDie c d (fun x => { x with cur := none }))
    if passed then memberPassed p s
    else
      let block := if s.density = 2 then 2 * p.block + p.wl / 512 else p.block
      let s := chEvent c 7 (d + 16 * block + (if 0x3E ≤ p.index then 2 ^ 16 else 0)) s
      blockFailed c d block (programFailed p true s)
  | .slc j =>
    let s := countPrograms c d 1 (s.modDie c d (fun x => { x with cur := none }))
    if passed then slcPassed c d j s else slcFailed c d j s
  | .erase e => eraseEnded c d e passed (s.modDie c d (fun x => { x with cur := none }))
  | .rawProg ring slot pma image =>
    let s := countPrograms c d 1 (s.modDie c d (fun x => { x with cur := none }))
    let s := ledgerAppend (pageTear 3 pma 0 false) s
    let k := if s.density = 2 then pmaBlock pma / 2 else pmaBlock pma
    if passed then
      let s := s.modFl (fun x => { x with media := SMap.insert x.media (pmaPlace pma) { bits := image, slc := false } })
      let s := tagProgram c d k false (s.die c d).start.1 (s.die c d).start.2 s
      (match s.op ring slot with | some o => finishOp o 0 (s.fullLength o.desc) 0 s | none => s)
    else
      let s := blockFailed c d (pmaBlock pma) (chEvent c 7 (d + 16 * pmaBlock pma + 3 * 2 ^ 16) s)
      (match s.op ring slot with | some o => finishOp o 5 0 pma s | none => s)

/-- Kind of a job as BusyTimeout names it (R232) and as Pepper's BusyOps selects it (R487): 0 read, 1 program, 2 erase, 3 reset; of one that no one waits
for any longer, what it was. -/
def DieJob.kind : DieJob → Nat
  | .read _ => 0
  | .erase _ => 2
  | .reset _ => 3
  | .gone p e => if p ≠ 0 then 1 else if e ≠ 0 then 2 else 0
  | _ => 1

/-- Ends a RAW_READ whose page read timed out: every selected frame and the header, if selected, are delivered as 0xFF bytes, whatever had been
delivered before, and it completes MEDIA_FAIL with the full length (R90, R212). -/
def rawReadTimedOut (ring slot : Nat) (s : State) : State :=
  match s.op ring slot with
  | none => s
  | some o =>
    let d3 := descDuo o.desc 3
    let s := dropReads ring slot s
    let fill := fun (n off : Nat) (s : State) => hostWrite o.seq o.cls false (descHost o.desc + off) n (2 ^ (8 * n) - 1) s
    let s := s.over ((List.range 4).filter (fun f => d3.testBit f)) (fun s f => fill (partBytes o) (rawOffset o f) s)
    let s := s.when (d3.testBit 4) (fill 128 (rawOffset o 4))
    endRead o 5 (s.fullLength o.desc) (descDuo o.desc 2) s

/-- Ends an operation that timed out, before the die is reset (R212). Two points that the manual leaves open: an SLC page's program is treated as
one that is cut short, its block retired and the page programmed again, and no program or erase so ended counts among the
die's 16 failing blocks of R204 (DESIGN CHOICE, log entries 143 and 144). -/
def opTimedOut (c d : Nat) (j : DieJob) (s : State) : State :=
  match j with
  | .read ids =>
    s.over ids (fun s i =>
      match SMap.find? s.fl.reads i with
      | none => s
      | some r =>
        match r.owner, s.rawRead r.owner with
        | .op ring slot _, true => rawReadTimedOut ring slot s
        | _, _ => requeueRead i r s)
  | .member p => programFailed p true (tear (memberTear s p 2) s)
  | .slc j => slcAgain c d j (tear (pageTear 1 (pmaOf (s.get K.deviceNumber) c d j.plane j.block j.page) 2 true) s)
  | .erase e =>
    (match e.raw with
    | some (ring, slot) => (match s.op ring slot with | some o => finishOp o 5 0 (descDuo o.desc 2) s | none => s)
    | none =>
      let s := retireBlock c d (if s.density = 2 then e.block / 2 else e.block) s
      (match e.set with | some (set, b) => rowBlockErased set d b s | none => s))
  | .rawProg ring slot pma _ =>
    let s := tear (pageTear 1 pma 2 false) s
    (match s.op ring slot with | some o => finishOp o 5 0 pma s | none => s)
  | _ => s

/-- A busy timeout (R212): BusyTimeout, the probe of the chip-enable line, Reset LUN, and the end of the operation; a second one
within 60 s, or a reset that does not end, loses the die. -/
def busyTimeout (c d : Nat) (j : DieJob) (chipOpen : Bool) (s : State) : State :=
  let again := match (s.die c d).timeoutAt with | some t => decide (s.now < t + 60000000) | none => false
  let s := chEvent c 6 (d + 16 * (j.kind + 1)) s
  let s := s.modDie c d (fun x => { x with timeoutAt := some s.now, cur := none, inArray := false, stretch := none })
  let s := if s.mode = 5 then vigilJobEnded c d j false (vigilTimedOut c d j s) else opTimedOut c d j s
  if chipOpen then
    let s := s.set (K.chOpenMask c) (s.get (K.chOpenMask c) ||| 2 ^ (d / 4))
    lineLost c (d / 4) 4 (chEvent c 3 (2 ^ (d / 4) + 2 ^ 17) s)
  else if j.kind = 3 then dieLost c d 2 s
  else
    let s := issueJob c d (.reset (if s.mode = 5 then 3 else 2)) s
    if again then dieLost c d 1 s else s

/-- Pepper stretches the operation: it is treated as busy for BusyStretch past the poll that shows it ended (R487). -/
def stretched (c d : Nat) (j : DieJob) (s : State) : Bool × State :=
  let x := s.die c d
  if s.flag K.pepperEnable ∧ s.mode ≠ 5 ∧ 0 < s.get K.busyStretch ∧ (s.get K.busyChannel = c ∨ s.get K.busyChannel = 255)
      ∧ (s.get K.busyDieMask).testBit d ∧ (s.get K.busyOps).testBit j.kind then
    match x.stretch with
    | none => (true, s.modDie c d (fun y => { y with stretch := some s.now }))
    | some t => (decide (s.now < t + s.get K.busyStretch), s)
  else (false, s)

/-- STATUS_POLL (R210): a due poll of a die whose array operation runs; no status is read while the drivers are off (R230), and a die whose chip-enable
line is off answers none, so that only its busy timeout ends the operation (R81, R212); no more does one whose rail is lost in Vigil (R386). -/
def execStatusPoll (c : Fin 96) (d : Fin 16) (r : PollResult) (s : State) : Res :=
  .next (match (s.die c d).cur with
    | none => s
    | some j =>
      if (s.die c d).inArray = false ∨ (s.chan c).driversOff then s
      else if (s.chan c).linesOff.contains (d / 4) ∨ s.unpowered c then (match r with | .timeout open_ => busyTimeout c d j open_ s | _ => s)
      else
        -- Read Status Enhanced (R199, R210).
        let s := s.emit (.dieCommand c d 0x78 0)
        let ended := fun (passed : Bool) =>
          let (busy, s) := stretched c d j s
          if busy then s
          else
            let s := s.modDie c d (fun x => { x with inArray := false, stretch := none })
            programEnded (opEnded c d j passed (s.when (s.get (K.chDieState c d) = 2) (fun s => s.set (K.chDieState c d) 1)))
        match r with
        | .busy => s
        | .pass => ended true
        | .fail => ended false
        | .timeout open_ => busyTimeout c d j open_ s)

end Sys2Proof.Machine
end

