-- ==== Sys2Proof/Machine/Redundancy.lean ====
section
/-! DEFINITION. Redundancy.lean: generations, the loss of a member, walks, loss scans, reshape plans and retirement (Stripe Sets,
Rebuild and Reshape). -/

namespace Sys2Proof.Machine

/-! ## Capacity (R177, R197) -/

/-- Data positions present at a die number, or none where no row is opened (R177). -/
def GenRec.dataAt (g : GenRec) (d : Nat) : Nat := if g.opensAt d then (g.present d).length - 2 else 0

/-- MaxLogicalUnits of a generation (R177). -/
def State.maxUnits (s : State) (g : GenRec) : Nat :=
  ((List.range 16).map (fun d => (2048 - g.spare - 64) * s.wordLines * 16 * g.dataAt d)).sum

/-- RebuildFitUnits of a generation (R177). -/
def State.fitUnits (s : State) (g : GenRec) : Nat :=
  ((List.range 16).map (fun d => (2048 - g.spare - 64) * s.wordLines * 16 * (g.dataAt d - 1))).sum

/-- Units of a set whose entries hold a location (R197). -/
def State.unitsMapped (s : State) (set : Nat) : List Nat :=
  s.wr.map.filterMap (fun e => if e.1 / 34359738368 = set ∧ e.2 ≠ noLoc then some (e.1 % 34359738368) else none)

def State.highestMapped (s : State) (set : Nat) : Nat := (s.unitsMapped set).foldl (fun a u => max a (u + 1)) 0
def State.liveUnits (s : State) (set : Nat) : Nat := (s.unitsMapped set).length

/-! ## Generations (R174, R176) -/

/-- Die numbers at which a channel's position is absent (R174): out of service, no die fitted, or die retired or lost. -/
def State.absentMask (s : State) (c : Nat) : Nat :=
  (List.range 16).foldl (fun a d =>
    if 95 < c || 3 ≤ s.get (K.chState c) || !s.fitted c d || 3 ≤ s.get (K.chDieState c d) then a + 2 ^ d else a) 0

/-- Sets the figures that follow from a generation's layout (R177, R193). -/
def setCapacity (set : Nat) (g : GenRec) (s : State) : State :=
  (s.set (K.setMaxLogicalUnits set) (s.maxUnits g)).set (K.setRebuildFitUnits set) (s.fitUnits g)

/-- A reshape is under way: it walks, waits for a loss scan, or waits for a generation record. Until it ends the set shows the capacities of
its old layout, and the positions that the new one drops stay in LostLow and LostHigh (R193). -/
def State.reshaping (s : State) (set : Nat) : Bool :=
  let t := s.sset set
  t.walk.any (fun w => decide (w.kind = 2)) || t.paused.any (fun w => decide (w.kind = 2)) || t.owed.any (fun o => decide (o.2 = 2))

/-- The set takes the capacities of its current generation, unless a reshape is under way (R193). -/
def takeCapacity (set : Nat) (s : State) : State :=
  match s.curGen set with
  | some g => if s.reshaping set then s else setCapacity set g s
  | none => s

/-- Positions of a set with their channel out of service or a die lost or retired, as bits (R197). -/
def State.lostPositions (s : State) (set : Nat) : Nat :=
  ((List.range 96).filter (fun c => decide (s.get (K.chStripeSet c) = set) && decide (s.get (K.chMemberPosition c) < 48)
      && (decide (3 ≤ s.get (K.chState c)) || (List.range 16).any (fun d => decide (3 ≤ s.get (K.chDieState c d)))))).foldl
    (fun a c => a ||| 2 ^ s.get (K.chMemberPosition c)) 0

/-- LostLow and LostHigh (R193, R197). -/
def updateLost (set : Nat) (s : State) : State :=
  let old := if s.reshaping set then s.get (K.setLostLow set) + 2 ^ 40 * s.get (K.setLostHigh set) else 0
  let v := s.lostPositions set ||| old
  (s.set (K.setLostLow set) (v % 2 ^ 40)).set (K.setLostHigh set) (v / 2 ^ 40)

/-- Starts the next generation of a set with the channels given: its record goes to code flash, and the open rows of the former
generation are closed without taking a further unit (R176). -/
def newGeneration (set : Nat) (channels : List Nat) (s : State) : State :=
  let s := closeRow false none set s
  let t := s.sset set
  let num := (s.get (K.setGeneration set) + 1) % 1048576
  let g : GenRec :=
    { num := num, width := channels.length, firstRow := t.nextRow, channels := channels, absent := channels.map s.absentMask,
      logicalUnits := s.get (K.setLogicalUnits set), spare := s.get (K.setSetSpareReserve set) }
  let s := s.modSet set (fun t => { t with gens := t.gens ++ [g] })
  let s := s.set (K.setGeneration set) num
  let s := s.over (s.wr.rowBlocks.filter (fun r => r.set = set)) (fun s r => markClosed set r s)
  updateStalled set (updateLost set (cfAppend (.generation set) 1 (duoWords (genDuos set g)) (.generation set num) s))

/-- Changes a set's State, with SetChange (R181, R479). BlockReason reads 0 unless a walk is paused (R181, R184, R197). -/
def setActivity (set v : Nat) (s : State) : State :=
  let s := s.when (decide (v ≠ 5)) (fun s => s.set (K.setBlockReason set) 0)
  if s.get (K.setState set) = v then s else setChanged set (s.set (K.setState set) v)

/-! ## Walks (R182 to R187, R193, R194) -/

/-- Programs of a row have yet to end, so its units are still to become live (R181, R509). -/
def State.rowInProgram (s : State) (set row : Nat) : Bool := (s.sset set).rows.any (fun r => decide (r.row = row))

/-- Rows of a set that hold a live unit. -/
def State.liveRows (s : State) (set : Nat) : List Nat :=
  s.wr.map.filterMap (fun e =>
    if e.1 / 34359738368 ≠ set then none
    else match locOf e.2 with
      | .media p => (s.rowOfPma p).bind (fun r => (r.1.rows.find? (fun x => x.2 = r.2.2.1)).map (fun x => x.1))
      | _ => none)

/-- A row block is of a walk's target: it holds a lost position, or its generation is older than the reshape's (R182). -/
def State.targets (s : State) (w : Walk) (rb : RowBlock) (g : GenRec) : Bool :=
  if w.kind = 1 then s.lostOf rb g ≠ [] else decide (rb.gen ≠ w.target)

/-- Live rows that a walk visits, ascending: row, row block, generation, word line (R182). -/
def State.walkRows (s : State) (set : Nat) (w : Walk) : List (Nat × RowBlock × GenRec × Nat) :=
  let live := s.liveRows set
  let blocks := s.wr.rowBlocks.filterMap (fun rb =>
    if rb.set = set then (s.genRec set rb.gen).bind (fun g => if s.targets w rb g then some (rb, g) else none) else none)
  let rows := blocks.flatMap (fun e => e.1.rows.map (fun r => (r.1, e.1, e.2, r.2)))
  sortBy (fun r => r.1) (rows.filter (fun r => decide (r.1 < w.endRow) && (live.contains r.1 || s.rowInProgram set r.1)))

/-- The next row to walk at or above a stripe number. -/
def State.nextWalkRow (s : State) (set : Nat) (w : Walk) : Option (Nat × RowBlock × GenRec × Nat) :=
  (s.walkRows set w).find? (fun r => w.next / 16 ≤ r.1)

/-- Sets the walk's visible figures. -/
def showWalk (set : Nat) (w : Walk) (s : State) : State :=
  (s.set (K.setWalkBoundary set) w.boundary).set (K.setWalkRowsLeft set) w.rowsLeft

/-- Appends a checkpoint of a walk (R194). -/
def checkpoint (set : Nat) (w : Walk) (s : State) : State :=
  let number := (s.sset set).ckptNext
  let c : Ckpt :=
    { set := set, kind := w.kind, number := number, target := w.target, boundary := w.boundary, endRow := w.endRow,
      seq := s.get K.journalSequence, rowsLeft := w.rowsLeft }
  let mark := fun (w : Walk) => { w with lastCheckpoint := c.boundary }
  let s := s.modSet set (fun t => { t with ckptNext := (number + 1) % 1048576, walk := t.walk.map mark, paused := t.paused.map mark })
  cfAppend (.checkpoint set) 1 (duoWords (ckptDuos c)) (.checkpoint c) s

/-- Starts a walk: 1 rebuild, 2 reshape (R182, R194). It starts at the lowest live row of its target, which after a further loss is the first
row not yet rebuilt; what a walk before it has staged goes on, and is not moved again (R185). -/
def startWalk (set kind : Nat) (newChannels : List Nat) (s : State) : State :=
  match s.curGen set with
  | none => s
  | some g =>
    let before := (s.sset set).walk.orElse (fun _ => (s.sset set).paused)
    let w : Walk :=
      { kind := kind, target := g.num, endRow := g.firstRow, next := 0, boundary := 0, lastCheckpoint := 0,
        moving := (before.map (fun w => w.moving)).getD [], needSeq := (before.map (fun w => w.needSeq)).getD 0, rowsLeft := 0,
        newChannels := newChannels }
    let rows := s.walkRows set w
    let first := 16 * ((rows.head?.map (fun r => r.1)).getD w.endRow)
    let w := { w with next := first, boundary := first, lastCheckpoint := first, rowsLeft := rows.length }
    let s := s.modSet set (fun t => { t with walk := some w, paused := none })
    checkpoint set w (showWalk set w ((setActivity set (if kind = 1 then 2 else 3) s).set (K.setBlockReason set) 0))

/-- Pauses a walk (R184). -/
def blockWalk (set reason : Nat) (s : State) : State := setActivity set 5 (s.set (K.setBlockReason set) reason)

/-- A row can take a walk's units now (R178, R184). -/
def State.roomForWalk (s : State) (set : Nat) : Bool :=
  (s.takingRow set).isSome || (match s.curGen set with | some g => (s.findPlace set g).isSome | none => false)

/-- An abort of the device or of a channel cuts a walk short: it resumes from its last checkpoint, and the units that it has staged go on to
their rows without being moved again (R108, R184). -/
def cutWalk (set : Nat) (s : State) : State :=
  let back := fun (w : Walk) => { w with next := w.lastCheckpoint, boundary := w.lastCheckpoint }
  let s := s.modSet set (fun t => { t with walk := t.walk.map back, paused := t.paused.map back })
  match (s.sset set).walk with
  | some w => showWalk set w s
  | none => s

/-- A copy of the unit that lives at a page is on its way to another row: it is staged, waits for a slot, or its program goes on (R182, R184,
R185). -/
def State.moving (s : State) (pma : Nat) : Bool :=
  let from_ := fun (u : SUnit) => decide (u.source = some pma)
  s.wr.slots.any (fun e => from_ e.2) || s.wr.shadows.any (fun e => from_ e.2) || s.wr.waitingUnits.any from_
    || s.wr.returning.any (fun e => from_ e.1)

/-- Frame f of a data position that is relocated: read or recovered, with its source metadata, or a carried loss, declared with its erasures
(R186, R187, R509). -/
def relocateFrame (x : Stripe) (pos : Nat) (os : List PageOutcome) (s : State) (f : Nat) : Option Payload × State :=
  let erased := s.erasedAt x f os
  match s.frameOr x f pos erased with
  | some p => (some p, s.when (erased.contains pos) (countLadder (nth x.gen.channels pos 127) 4))
  | none => (none, declareStripeLoss 1 x f erased s)

/-- WriteTag and Sequence of a relocated unit: those of its source page's header; of a page that cannot be read, those of the frames recovered
(R509). -/
def State.sourceTags (s : State) (x : Stripe) (pos : Nat) (frames : List (Option Payload)) : Nat × Nat :=
  let header := if s.memberRead x pos then readHeader (pageHeader (s.pageBits (s.stripePma x pos))) else none
  match header with
  | some h => (h.tag, h.seq)
  | none =>
    match frames.findSome? id with
    | some p => ((metaOf p).tag, (metaOf p).seq)
    | none => (0, 0)

/-- One data position of a stripe under a walk, or Harvest copy: the unit that lives there, if no copy of it is on its way already, its frames
read or recovered, those declared lost as carried losses (R182, R186, R187). -/
def relocateUnit (origin : Origin) (x : Stripe) (pos : Nat) (os : List PageOutcome) (s : State) : State :=
  let pma := s.stripePma x pos
  match s.unitAt pma with
  | none => s
  | some (set, lui) =>
    let row := ((x.rb.rows.find? (fun r => r.2 = x.wl)).map (fun r => r.1)).getD 0
    let move := (16 * row + x.page, lui)
    let s := s.modSet set (fun t => if origin = .walk then { t with walk := t.walk.map (fun w =>
      { w with moving := if w.moving.contains move then w.moving else w.moving ++ [move] }) } else t)
    if s.moving pma then s
    else
      let (frames, s) := (List.range 4).foldl (fun (a : List (Option Payload) × State) f =>
        let r := relocateFrame x pos os a.2 f
        (a.1 ++ [r.1], r.2)) ([], s)
      let (tag, seq) := s.sourceTags x pos frames
      let u : SUnit :=
        { set := set, lui := lui, frames := (frames.zip (List.range 4)).map (fun e => e.1.getD (setSeq (carriedLoss (4 * lui + e.2)) seq)),
          tag := tag, seq := seq, origin := origin, source := some pma, ticket := 0, stripe := move.1 }
      stageBackground u s

/-- Members of a stripe that are read to move its units: the pages that hold live units, and where one of those is erased, the other data
pages and P, with Q where P does not suffice (R182). Lost positions and torn pages are not read (R186). -/
def State.stripeReads (s : State) (x : Stripe) (os : List PageOutcome) : List Nat :=
  let data := x.gen.dataPresent x.rb.die x.rb.block x.wl
  let (p, q) := x.gen.parity x.rb.die x.rb.block x.wl
  let live := data.filter (fun k => (s.unitAt (s.stripePma x k)).isSome)
  let hurt := (List.range 4).flatMap (fun f => (live.filter (fun k => (s.erasedAt x f os).contains k)).map (fun k => (f, k)))
  let needQ := hurt.any (fun e => s.needsQ x e.1 e.2 os)
  (if hurt = [] then live else data ++ [p] ++ (if needQ then [q] else [])).filter (s.memberRead x)

/-- Data pages of a stripe that Harvest reads for their header alone: no entry holds them any longer (R243 step 2). -/
def State.headerReads (s : State) (x : Stripe) : List Nat :=
  (x.gen.dataPresent x.rb.die x.rb.block x.wl).filter (fun k => s.memberRead x k && (s.unitAt (s.stripePma x k)).isNone)

/-- Background reads of a stripe wait: a channel that they need is aborting or training, or no frame buffers are free for a page (R107, R151). -/
def State.stripeWaits (s : State) (x : Stripe) (members : List Nat) : Bool := !s.membersRun x members || !s.buffersFree 3 4

/-- Moves every live unit of a stripe to staging. -/
def relocateStripe (origin : Origin) (x : Stripe) (os : List PageOutcome) (s : State) : State :=
  let s := s.when (origin = .harvest) (fun s => s.over (s.headerReads x) (fun s k =>
    let pma := s.stripePma x k
    (emitRead pma (s.thresholds pma 0) s).inc (K.chPageReads (pmaCh pma))))
  let cls := if origin = .walk then (if s.get (K.setProtection x.rb.set) = 2 then 1 else 3) else if s.harvestUrgent x.rb.set then 1 else 3
  let (os, s) := forceOutcomes x cls (s.stripeReads x os) (List.range 4) os s
  let s := s.over (s.stripeReads x os) (readMember x (List.range 4) os)
  s.over (x.gen.dataPresent x.rb.die x.rb.block x.wl) (fun s p => relocateUnit origin x p os s)

/-- A walk finds no row: a substitution makes one, one under way is waited for, or the walk pauses (R178, R184). -/
def makeRoom (set : Nat) (s : State) : State :=
  match s.curGen set with
  | none => s
  | some g =>
    if s.substituting set then s
    else match s.canSubstitute set g with
      | some (d, b, cs) => substitute set d b cs s
      | none => blockWalk set (if (s.needsSubstitutes set g).isSome then 2 else 1) s

/-- WALK_STRIPE (R182): the next stripe of the walk is read, recovered and staged; a walk without an erased row block pauses (R184). A
row whose programs go on is waited for, since the walk takes every live unit of it (DEDUCED, log 130). -/
def execWalkStripe (set : Fin 8) (outcomes : List PageOutcome) (s : State) : Res :=
  .next (match (s.sset set).walk with
    | none => s
    | some w =>
      if !(s.get (K.setState set) = 2 || s.get (K.setState set) = 3) || !s.serving || s.get K.powerState ≠ 0 then s
      else
        match s.nextWalkRow set w with
        | none => s.modSet set (fun t => { t with walk := t.walk.map (fun w => { w with next := 16 * w.endRow }) })
        | some (row, rb, g, wl) =>
          if s.rowInProgram set row then s
          else if !s.roomForWalk set then makeRoom set s
          else
            let page := if row = w.next / 16 then w.next % 16 else 0
            let x : Stripe := { rb := rb, gen := g, wl := wl, page := page }
            if s.stripeWaits x (s.stripeReads x outcomes) then s
            else
            let s := s.modSet set (fun t => { t with walk := t.walk.map (fun w => { w with next := 16 * row + page + 1 }) })
            relocateStripe .walk x outcomes s)

/-- A row block that a checkpoint has put below the boundary is released for erase (R182, R194). -/
def releaseWalked (set : Nat) (s : State) : State :=
  match (s.nv.ckpts.filter (fun c => c.set = set)).getLast? with
  | none => s
  | some c =>
    s.over (s.wr.rowBlocks.filter (fun r => r.set = set && !r.released)) (fun s r =>
      let walked := r.rows.all (fun x => decide (16 * x.1 + 16 ≤ c.boundary)) && decide (r.gen ≠ c.target) && !s.liveBlock r
      s.when walked (fun s => s.modRowBlock set r.die r.block (fun r => { r with released := true })))

/-- A channel leaves its set (R192, R193): it reads State 4, or stays isolated where a dissolved set leaves it so; it holds no position, and
must train again before a plan lists it, its CalSource reading 0. Its die-blocks lie outside every set, and its substitutes are free (R178,
R238). -/
def leaveSet (isolatedStays : Bool) (c : Nat) (s : State) : State :=
  let gone := s.wr.spareMap.filter (fun e => e.1 / 32768 = c)
  let s := s.over gone (fun s e =>
    cfAppend .spareMap 2 (duoWords [e.1, noLoc]) (.spare e.1 noLoc) (s.modWr (fun w => { w with spareMap := SMap.erase w.spareMap e.1 })))
  let out := fun (h : HRec) => if h.state = 4 ∨ h.state = 7 then h else { h with state := 8 }
  let s := s.modFl (fun x => { x with harvest := x.harvest.map (fun e => (e.1, if e.1 / 32768 = c then out e.2 else e.2)) })
  let st := s.get (K.chState c)
  let s := if st = 1 ∨ st = 2 ∨ (st = 3 ∧ isolatedStays = false) then s.set (K.chState c) 4 else s
  let s := s.modChan c (fun x => { x with removed := true, training := x.training.map (fun k => if k = 2 then 4 else k) })
  ((s.set (K.chStripeSet c) 0xFF).set (K.chMemberPosition c) 0xFF).set (K.chCalSource c) 0

/-- The walk has ended: its last checkpoint, and what a reshape leaves (R193, R194). -/
def endWalk (set : Nat) (w : Walk) (s : State) : State :=
  let w := { w with boundary := 16 * w.endRow, next := 16 * w.endRow, rowsLeft := 0 }
  let s := checkpoint set w (showWalk set w s)
  let s := s.modSet set (fun t => { t with walk := none })
  let s := if w.kind = 2 then
      let gone := (List.range 96).filter (fun c => s.get (K.chStripeSet c) = set && !w.newChannels.contains c)
      let s := s.over gone (fun s c => leaveSet false c s)
      s.over gone (fun s c => withdrawPlacements (placedOn c 16) s) |> takeCapacity set |> updateLost set
    else s
  updateProtection set (setActivity set 1 s)

/-- BOUNDARY_ADVANCE (R193): the boundary moves past every stripe whose programs have passed and whose Relocate records are durable;
a checkpoint follows each 256 stripes; row blocks below a durable one are released. -/
def execBoundaryAdvance (set : Fin 8) (s : State) : Res :=
  .next (match (s.sset set).walk with
    | none => releaseWalked set s
    | some w =>
      let limit := w.moving.foldl (fun a m => min a m.1) w.next
      let b := if w.needSeq ≤ s.get K.journalDurable then max w.boundary limit else w.boundary
      let left := ((s.walkRows set w).filter (fun r => decide (b < 16 * r.1 + 16))).length
      let w := { w with boundary := b, rowsLeft := left }
      let s := showWalk set w (s.modSet set (fun t => { t with walk := some w }))
      let s := if w.moving = [] ∧ (s.nextWalkRow set w).isNone ∧ w.needSeq ≤ s.get K.journalDurable then endWalk set w s
        else if w.lastCheckpoint + 256 ≤ b then checkpoint set w s
        else s
      releaseWalked set s)

/-! ## Loss of a member (R180, R185, R191) -/

/-- Page reads in flight on a lost member are re-issued as degraded reads (R169). -/
def degradeReads (lost : Nat → Bool) (s : State) : State :=
  s.over (s.fl.reads.filter (fun e => lost e.2.pma && !s.rawRead e.2.owner)) (fun s e =>
    let r := e.2
    let fs := if r.pending ≠ [] then r.pending ++ r.failed.map (fun x => x.1) else r.frames
    let s := freeBuffers r.cls r.held s
    let s := s.over s.fl.chans (fun s c => noteMisframed c.1 (c.2.xfers.filter (fun y => y.read = some e.1)) s)
    s.modFl (fun x =>
      { x with reads := SMap.erase x.reads e.1, softQ := x.softQ.filter (fun f => f.read ≠ e.1),
               recon := x.recon ++ fs.map (fun f => { owner := r.owner, pma := r.pma, frame := f, cls := r.cls, degraded := true }),
               chans := x.chans.map (fun c => (c.1, { c.2 with hardQ := c.2.hardQ.filter (fun f => f.read ≠ e.1),
                                                               xfers := c.2.xfers.filter (fun y => y.read ≠ some e.1) })) }))

/-- What the end of an operation counts (R215): pages programmed, planes erased. -/
def DieJob.counts : DieJob → Nat × Nat
  | .member _ => (16, 0)
  | .slc _ => (1, 0)
  | .rawProg _ _ _ _ => (1, 0)
  | .erase e => (0, ((List.range 4).filter (fun p => e.planes.testBit p)).length)
  | .gone p e => (p, e)
  | _ => (0, 0)

/-- What a lost die was given ends: member programs count as failed, erases are dropped, its reads leave its queue; an operation
inside the die runs to its end unheeded, and counts then (R180, R204, R215, R230). Raw operations go on, since a RAW opcode acts on any die
(R81). -/
def clearDie (c d : Nat) (s : State) : State :=
  let x := s.die c d
  let jobs := x.progs.map (fun e => e.1) ++ x.cur.toList
  let stays := fun (j : DieJob) => match j with
    | .read l => l.any (fun i => (SMap.find? s.fl.reads i).isSome)
    | j => j.isRaw
  let cur := match x.cur with
    | none => none
    | some j => if stays j then some j else if x.inArray then some (.gone j.counts.1 j.counts.2) else none
  let s := match x.cur with
    | some (.read l) => s.when (!stays (.read l) && x.inArray) (fun s => s.add (K.chPageReads c) l.length)
    | _ => s
  let s := s.modDie c d (fun x =>
    { x with cur := cur, progs := x.progs.filter (fun e => e.1.isRaw),
             reads := x.reads.filter (fun i => (SMap.find? s.fl.reads i).isSome), forced := false })
  let s := s.when (cur.isNone) (fun s => s.modChan c (fun ch => { ch with xfers := ch.xfers.filter (fun y => !(decide (y.die = d) && y.read.isNone)) }))
  s.over jobs (fun s j =>
    match j with
    | .member p => programFailed p true s
    | .erase e => (match e.raw, e.set with | none, some (set, b) => rowBlockErased set d b s | _, _ => s)
    | .slc j => slcAgain c d j s
    | _ => s)

/-- Flags the rows of the oldest generation of a set for reclaim ahead of their score (R184, R238, R241). -/
def flagOldest (set : Nat) (s : State) : State :=
  let oldest := ((s.gensInUse set).head?.map (fun g => g.num)).getD 0
  s.over (s.wr.rowBlocks.filter (fun r => r.set = set && r.gen = oldest)) (fun s r =>
    let s := s.modRowBlock set r.die r.block (fun r => { r with oldestAt := some (r.oldestAt.getD s.now) })
    match s.genRec set r.gen with
    | some g => s.over (g.channelsAt r.die) (fun s c =>
        s.modHrec (32768 * c + 2048 * r.die + s.memberBlock c r.die r.block) (fun h => { h with failed := true }))
    | none => s)

/-- All 64 generation records are in use: the next generation waits, and Harvest reclaims the rows of the oldest ahead of their score (R176,
R184, R238). -/
def recordsFull (set : Nat) (channels : List Nat) (follow : Nat) (s : State) : State :=
  -- A plan replaces what waits; the response to a loss follows with the plan that waits (R192).
  let next := match (s.sset set).owed with
    | some o => if o.2 = 2 ∧ follow ≠ 2 then o else (channels, max o.2 follow)
    | none => (channels, follow)
  flagOldest set (s.modSet set (fun t => { t with owed := some next }))

/-- All 64 generation records of a set are in use (R176). -/
def State.gensFull (s : State) (set : Nat) : Bool := decide (64 ≤ (s.gensInUse set).length)

/-- Starts the next generation of a set, with the capacities that it gives, or waits for a free record (R176, R184). -/
def nextGeneration (set : Nat) (channels : List Nat) (follow : Nat) (s : State) : State :=
  let s := freeGens set s
  if s.gensFull set then recordsFull set channels follow s else takeCapacity set (newGeneration set channels s)

/-- The choice of R180 step 4 and R191: which walk follows a loss. A paused reshape resumes also where RebuildAuto is 1: both bullets of R191 apply then, and
the manual does not say which wins (DESIGN CHOICE, log entry 178); its target includes every row that a rebuild would visit. A walk that needs a generation which waits for a record pauses with
BlockReason 3 (R184). -/
def chooseWalk (set : Nat) (s : State) : State :=
  let t := s.sset set
  let rebuilds := decide (s.get (K.setRebuildAuto set) = 1)
  let before := t.paused.orElse (fun _ => t.walk)
  if t.owed.isSome then
    (if before.isSome || rebuilds then blockWalk set 3 (s.modSet set (fun t => { t with walk := before, paused := none })) else setActivity set 1 s)
  else match before with
    | some w =>
      if w.kind = 1 then startWalk set 1 [] s
      else showWalk set w (setActivity set 3 (s.modSet set (fun t => { t with walk := some w, paused := none })))
    | none => if rebuilds then startWalk set 1 [] s else setActivity set 1 s

/-- Positions of a row block are among those lost now, which leave more than two of a live row lost (R191). -/
def State.dataLost (s : State) (set : Nat) (lost : List (Nat × Nat)) : Bool :=
  (s.liveBlocks set).any (fun e =>
    let l := s.lostOf e.1 e.2
    decide (2 < l.length) && l.any (fun p => lost.any (fun x => decide (x.1 = nth e.2.channels p 127) && (decide (x.2 = 16) || decide (x.2 = e.1.die)))))

/-- The summary record of a loss of data (R188, R191, cause 3). -/
def State.summaryRecord (s : State) (set : Nat) : LossRec :=
  let worst := s.worstLoss set
  { number := 0, cause := 3, set := set, more := decide (s.get K.lossDetail = 1), erasures := worst.length, minute := s.get K.calendsNow,
    generation := s.get (K.setGeneration set), die := 0, plane := 0, block := 0, page := 0, frame := 0,
    erased := worst.foldl (fun a p => a ||| 2 ^ p) 0, ranges := [], durable := false, noticed := false }

/-- A loss scan starts, and pauses the walk that runs; a scan that runs already starts again (R191). -/
def startScan (set : Nat) (s : State) : State :=
  setActivity set 4 (s.modSet set (fun t => { t with paused := t.walk.orElse (fun _ => t.paused), walk := none, scanAt := 0 }))

/-- The lost positions of a set are taken out of it (R180). -/
def takeLosses (set : Nat) (lost : List (Nat × Nat)) (s : State) : State :=
  let gone := fun (p : Nat) => lost.any (fun e => e.1 = pmaCh p && (e.2 = 16 || e.2 = pmaDie p))
  let s := s.modSet set (fun t => { t with lossPending := [] })
  let s := degradeReads gone s
  let s := s.over lost (fun s e => s.over (if e.2 = 16 then List.range 16 else [e.2]) (fun s d => clearDie e.1 d s))
  let s := match s.curGen set with
    | some g => updateLost set (nextGeneration set g.channels 1 s)
    | none => s
  -- The mode is derived once it is known whether a walk starts (R350).
  let s := noteProtection set s
  let scans := s.dataLost set lost
  let s := s.when scans (fun s => declareLoss [s.summaryRecord set] s)
  deriveMode (if scans ∧ s.get K.lossDetail = 1 then startScan set s else if s.get (K.setState set) = 4 then s else chooseWalk set s)

/-- Records of a loss scan from a mapping entry on (R191): every unit of the set that lies on a lost position of a row with more than two, with
its entry. -/
def State.scanRecords (s : State) (set : Nat) : List (Nat × LossRec) :=
  let units := s.wr.map.filter (fun e => decide (e.1 / 34359738368 = set) && decide ((s.sset set).scanAt ≤ e.1))
  units.filterMap (fun e =>
    match locOf e.2 with
    | .media p =>
      (match s.stripeOf p with
      | some (x, pos) =>
        let lost := s.lostOf x.rb x.gen
        if 2 < lost.length ∧ lost.contains pos then
          some (e.1, ({ number := 0, cause := 4, set := set, more := false, erasures := lost.length, minute := s.get K.calendsNow,
                        generation := x.gen.num, die := x.rb.die, plane := pmaPlane p, block := pmaBlock p, page := pmaPage p, frame := 0,
                        erased := lost.foldl (fun a k => a ||| 2 ^ k) 0, ranges := [(4 * (e.1 % 34359738368), 4)], durable := false,
                        noticed := false } : LossRec))
        else none
      | none => none)
    | _ => none)

/-- Loss records that may be issued now: the others wait for acknowledgement (R190). -/
def State.lossRoom (s : State) : Nat := if s.wr.lossWaiting = [] then 1024 - s.get K.lossPending else 0

/-- LOSS_SCAN_END (R191): the scan has read the set's entries: a cause-4 record for every unit on a lost position of a row with more
than two; then the walk that follows. Records beyond the 1,024 pending hold the scan back at the first of them. -/
def execLossScanEnd (set : Fin 8) (s : State) : Res :=
  .next (if s.get (K.setState set) ≠ 4 then s
    else
      let l := s.scanRecords set
      let n := s.lossRoom
      let t := declareLoss ((l.take n).map (fun e => e.2)) s
      match l[n]? with
      | some e => t.modSet set (fun x => { x with scanAt := e.1 })
      | none => chooseWalk set t)

/-! ## Commands of host firmware (R192, R195, R197) -/

/-- RebuildStart (R197). -/
def rebuildStartEffect (set : Nat) (s : State) : State :=
  if s.get (K.setState set) = 1 ∧ 0 < s.get (K.setProtection set) then startWalk set 1 [] s else s

/-- Channels that a plan lists. -/
def State.planList (s : State) : List Nat := (List.range (s.get K.planWidth)).map (fun k => s.get (K.planMembers k))

/-- Present members of a set. -/
def State.members (s : State) (set : Nat) : List Nat := (List.range (s.get (K.setWidth set))).map (fun k => s.get (K.setSetMembers set k))

/-- The generation that a plan would lay down, as a record for its capacity. -/
def State.planGen (s : State) (set : Nat) (l : List Nat) (spare : Nat) : GenRec :=
  { num := 0, width := l.length, firstRow := 0, channels := l,
    absent := l.map (fun c => (List.range 16).foldl (fun a d => if !s.fitted c d || 3 ≤ s.get (K.chDieState c d) then a + 2 ^ d else a) 0
      ||| (if s.get (K.chState c) = 3 && s.get (K.chStripeSet c) = set then 65535 else 0)),
    logicalUnits := 0, spare := spare }

/-- A committed plan is in range (R192). One of width 0 for a set that is not defined asks for nothing, and the list of R192 does not name it: it is
out of range here (DESIGN CHOICE, log entry 147). -/
def State.planOk (s : State) : Bool :=
  let set := s.get K.planSet
  let w := s.get K.planWidth
  let l := s.planList
  let cur := s.members set
  let defined := s.get (K.setState set) ≠ 0
  let spare := if defined then s.get (K.setSetSpareReserve set) else s.get K.spareReserve
  -- A plan of another set that waits for a generation record holds the channels that it lists, and its width (R173, R192).
  let waits := fun (k : Nat) => match (s.sset k).owed with | some (m, 2) => m | _ => []
  let others := ((List.range 8).filter (fun k => k ≠ set)).map (fun k => max (s.get (K.setWidth k)) (waits k).length) |>.sum
  (w = 0 || (12 ≤ w && w ≤ 48))
    && l.all (fun c => c ≠ 0xFF) && ((List.range 48).filter (fun k => w ≤ k)).all (fun k => s.get (K.planMembers k) = 0xFF)
    && decide l.Nodup && l.all (fun c => s.get (K.chStripeSet c) = 0xFF || s.get (K.chStripeSet c) = set)
    && ((List.range 8).filter (fun k => k ≠ set)).all (fun k => l.all (fun c => !(waits k).contains c))
    && l.all (fun c => (defined && cur.contains c) ||
        ((s.get (K.chState c) = 3 || s.get (K.chState c) = 4) && s.get (K.chDiesFitted c) ≠ 0 && s.get (K.chCalSource c) ≠ 0))
    && s.get (K.setState set) ≠ 3 && s.get (K.setState set) ≠ 4 && others + w ≤ 96 && (defined || w ≠ 0)
    && (w = 0 || s.get (K.setLogicalUnits set) ≤ s.maxUnits (s.planGen set l spare)) && (w ≠ 0 || s.liveUnits set = 0)

/-- The die-blocks of a channel that joins a set come under it (R177, R238): one that holds a page is erased first, any other that lay outside
every set is erased or a spare by its place. -/
def joinBlocks (c : Nat) (s : State) : State :=
  let used := (s.fl.media.filter (fun e => decide (pmaCh e.1 = c))).map (fun e => s.dieBlock c (pmaDie e.1) (pmaBlock e.1))
  let outside := (s.fl.harvest.filter (fun e => decide (e.1 / 32768 = c) && decide (e.2.state = 8))).map (fun e => e.1)
  let s := s.over (outside.filter (fun i => !used.contains i)) (fun s i => s.modHrec i (fun h => { h with state := s.erasedState c (i % 2048) h.state }))
  s.over used.eraseDups (fun s i =>
    let h := s.hrec i
    if h.state = 4 ∨ h.state = 7 ∨ h.state = 3 then s
    else pushErase c (i / 2048 % 16) (if s.density = 2 then 2 * (i % 2048) else i % 2048) 15 none none (s.modHrec i (fun h => { h with state := 3 })))

/-- Gives the set its members, and the new ones their State. -/
def seatMembers (set : Nat) (l : List Nat) (s : State) : State :=
  let s := s.over (List.range 48) (fun s k => s.set (K.setSetMembers set k) (nth l k 0xFF))
  let s := s.over (l.zip (List.range l.length)) (fun s e =>
    let joins := decide (s.get (K.chStripeSet e.1) ≠ set)
    let s := if joins then (s.set (K.chState e.1) 2).set (K.chAdminIsolate e.1) 0 else s
    ((s.set (K.chStripeSet e.1) set).set (K.chMemberPosition e.1) e.2).when joins (joinBlocks e.1))
  s.set (K.setWidth set) l.length

/-- Dissolves a set (R192). The manual does not say which State its channels take, or what becomes of its row blocks: one in service reads State
4, as those that a reshape removes do, an isolated one stays isolated, and the row blocks are forgotten without an erase, which comes when the
channel joins a set again (DESIGN CHOICE, log entry 146). -/
def dissolve (set : Nat) (s : State) : State :=
  let members := (List.range 96).filter (fun c => s.get (K.chStripeSet c) = set)
  let s := s.modWr (fun w => { w with rowBlocks := w.rowBlocks.filter (fun r => r.set ≠ set) })
  let s := s.over members (fun s c => leaveSet true c s)
  let s := s.over (List.range 48) (fun s k => s.set (K.setSetMembers set k) 0xFF)
  let s := s.over [K.setProtection set, K.setWidth set, K.setLostLow set, K.setLostHigh set, K.setMaxLogicalUnits set,
    K.setRebuildFitUnits set, K.setSetSpareReserve set, K.setWalkBoundary set, K.setWalkRowsLeft set, K.setBlockReason set,
    K.setLogicalUnits set, K.setWriteStalled set, K.setHarvestState set] (fun s k => s.set k 0)
  let s := s.set (K.setCurrentVictim set) 0xFFFFF
  let s := s.modSet set (fun t =>
    { t with walk := none, paused := none, owed := none, rows := [], queue := [], gens := [], victim := none, lossPending := [], scrub := 0 })
  let s := fillDirectory set 0 s
  let s := s.modNv (fun n => { n with gens := SMap.erase n.gens set, ckpts := n.ckpts.filter (fun c => c.set ≠ set) })
  let s := setActivity set 0 s
  s.over members (fun s c => withdrawPlacements (placedOn c 16) s) |> withdrawPlacements (fun v => decide (plKind v = 1) && decide (plSet v = set))

/-- A generation follows a plan or a loss: the reshape walk of a plan that changes the members, the choice of a walk after a loss, no walk after an
adoption (R180, R192). -/
def beginGeneration (set : Nat) (l : List Nat) (follow : Nat) (s : State) : State :=
  let s := s.modSet set (fun t => { t with owed := none })
  if follow = 2 then startWalk set 2 l (newGeneration set l (seatMembers set l s))
  else
    let s := takeCapacity set (newGeneration set l s)
    if follow = 1 ∧ s.get (K.setState set) ≠ 4 then chooseWalk set s else s

/-- WALK_RESUME (R184): a paused walk goes on once row blocks, substitutions or generation records are free. -/
def execWalkResume (set : Fin 8) (s : State) : Res :=
  .next (
    let t := s.sset set
    match t.owed, t.walk with
    | some (l, follow), _ => if s.gensFull set then s else beginGeneration set l follow (freeGens set s)
    | none, some w =>
      let room := s.roomForWalk set || (s.curGen set).any (fun g => (s.canSubstitute set g).isSome)
      if s.get (K.setState set) = 5 ∧ room then
        setActivity set (if w.kind = 1 then 2 else 3) (s.set (K.setBlockReason set) 0)
      else s
    | none, none => s)

/-- PlanCommit (R192): creates, dissolves, adopts dies, or reshapes. -/
def planCommitEffect (s : State) : State :=
  let set := s.get K.planSet
  let l := s.planList
  let s := freeGens set s
  let full := s.gensFull set
  if s.get (K.setState set) = 0 then
    let s := (s.set (K.setSetSpareReserve set) (s.get K.spareReserve)).set (K.setLogicalUnits set) 0
    setActivity set 1 (takeCapacity set (newGeneration set l (seatMembers set l s)))
  else if l = [] then dissolve set s
  else if l = s.members set then (if full then recordsFull set l 0 s else beginGeneration set l 0 s)
  else if full then blockWalk set 3 (recordsFull set l 2 s)
  else beginGeneration set l 2 s

/-- Positions of a set absent at a die number, as of now. -/
def State.absentAt (s : State) (set d : Nat) : Nat := ((s.members set).filter (fun c => (s.absentMask c).testBit d)).length

/-- RetireCommit is in range (R195): the die is fitted, and its retirement leaves at most two positions of its set absent at its number. -/
def State.retireOk (s : State) : Bool :=
  let c := s.get K.retireChannel
  let d := s.get K.retireDie
  let set := s.get (K.chStripeSet c)
  let after := s.absentAt set d + (if (s.absentMask c).testBit d then 0 else 1)
  s.fitted c d && (decide (7 < set) || decide (after ≤ 2))

/-- RetireCommit (R195): a die that serves is retired and its set responds; a retired or lost one stays as it is (R204). -/
def retireCommitEffect (s : State) : State :=
  let c := s.get K.retireChannel
  let d := s.get K.retireDie
  if 3 ≤ s.get (K.chDieState c d) then s
  else withdrawPlacements (placedOn c d) (noteLoss c d (s.set (K.chDieState c d) 3))

/-- LossAck (R190, R197): records up to the number are acknowledged; waiting records are issued. -/
def lossAckEffect (v : Nat) (s : State) : State :=
  let s := (s.set K.lossAckedThrough v).set K.lossPending (s.get K.lossRecordsIssued - v)
  let s := s.modNv (fun n => { n with saved := SMap.insert n.saved K.lossAckedThrough v })
  let l := s.wr.lossWaiting
  declareLoss l (s.modWr (fun w => { w with lossWaiting := [] }))

/-- LogicalUnits (R177, R197): kept with the set's generation record. -/
def logicalUnitsEffect (set v : Nat) (s : State) : State :=
  let num := s.get (K.setGeneration set)
  let s := s.modSet set (fun t => { t with gens := mapIf (fun g => g.num = num) (fun g => { g with logicalUnits := v }) t.gens })
  let s := fillDirectory set v (s.set (K.setLogicalUnits set) v)
  match s.curGen set with
  | some g => cfAppend (.generation set) 1 (duoWords (genDuos set g)) (.generation set num) s
  | none => s

end Sys2Proof.Machine
end

