-- ==== Sys2Proof/Machine/Media.lean ====
section
/-! DEFINITION. Media.lean: the minute clock, reclaim, wear, scrub and the health report (Harvest, Calends and Media Health). -/

namespace Sys2Proof.Machine

/-! ## The minute clock (R236, R251) -/

/-- Bin of a die temperature given in 1/16 °C (R251). -/
def tempBin (t : Int) : Nat :=
  let c := t / 16
  if c < 0 then 0 else if c < 20 then 1 else if c < 40 then 2 else if c < 55 then 3 else if c < 70 then 4 else if c < 85 then 5
  else if c < 95 then 6 else 7

/-- Fitted dies of the module, as 16 × channel + die. -/
def State.allDies (s : State) : List Nat := (List.range 96).flatMap (fun c => (s.fittedDies c).map (fun d => dieKey c d))

/-! ## Health (R250, R252) -/

/-- Free spare die-blocks of a set, the lowest over its member dies (R197). -/
def State.spareFree (s : State) (set : Nat) : Nat :=
  let spare := s.get (K.setSetSpareReserve set)
  let used := fun (c d : Nat) => (s.fl.harvest.filter (fun e =>
    e.1 / 2048 = dieKey c d && 2048 - spare ≤ e.1 % 2048 && e.2.state ≠ 5)).length
  ((s.members set).flatMap (fun c => (s.fittedDies c).map (fun d => spare - used c d))).foldl min spare

/-- SpareLeft in 0.01 % (R250). -/
def State.spareLeft (s : State) : Nat :=
  let l := ((List.range 8).filter (fun k => s.get (K.setState k) ≠ 0 && s.get (K.setSetSpareReserve k) ≠ 0)).map (fun k =>
    10000 * s.spareFree k / s.get (K.setSetSpareReserve k))
  match l with
  | [] => 0
  | a :: r => r.foldl min a

/-- Die-blocks in states 0 to 3 of fitted dies in sets: their number, the sum of their erases, and the highest (R250). -/
def State.wearSum (s : State) : Nat × Nat × Nat :=
  let dies := s.allDies.filter (fun k => s.get (K.chStripeSet (k / 16)) ≤ 7)
  let base := (dies.map (fun k => 2048 - s.get (K.setSetSpareReserve (s.get (K.chStripeSet (k / 16)))))).sum
  let listed := s.fl.harvest.filter (fun e => dies.contains (e.1 / 2048))
  let spare := fun (i : Nat) => 2048 - s.get (K.setSetSpareReserve (s.get (K.chStripeSet (i / 32768)))) ≤ i % 2048
  let n := listed.foldl (fun n e =>
    if decide (e.2.state ≤ 3) && decide (spare e.1) then n + 1 else if decide (3 < e.2.state) && !decide (spare e.1) then n - 1 else n) base
  let live := listed.filter (fun e => e.2.state ≤ 3)
  (n, (live.map (fun e => e.2.erases)).sum, live.foldl (fun a e => max a e.2.erases) 0)

/-- RatedCycles: the lowest endurance among the die profiles of the fitted dies (R250). -/
def State.rated (s : State) : Nat :=
  match ((List.range 96).filter (fun c => s.get (K.chDiesFitted c) ≠ 0)).filterMap (fun c => (s.chan c).profile.map (fun x => x.endurance)) with
  | [] => Config.ratedCycles s.density
  | a :: l => l.foldl min a

def State.wearMean (s : State) : Nat := let (n, sum, _) := s.wearSum; 10000 * sum / (n * s.rated)
def State.wearMax (s : State) : Nat := let (_, _, m) := s.wearSum; 10000 * m / s.rated

/-- HealthFlags (R252). Bits 0 and 1 are set in the serving modes only: before the restore the buffer has no spares and no wear to report
(log entry 66). -/
def State.healthBits (s : State) : Nat :=
  (if s.serving ∧ s.spareLeft < s.get K.spareWarn then 1 else 0) + (if s.serving ∧ s.get K.wearWarn < s.wearMax then 2 else 0)
    + (if s.get K.clockTrusted = 0 then 4 else 0)
    + (if (List.range 8).any (fun k => 0 < s.get (K.setProtection k)) then 8 else 0)

/-- Raises HealthWarning when bit 0 or bit 1 sets (R252, R479). -/
def updateHealth (s : State) : State :=
  let old := s.get K.healthFlags
  let new := s.healthBits
  let s := s.report K.healthFlags new
  s.when ((new.testBit 0 && !old.testBit 0) || (new.testBit 1 && !old.testBit 1)) (occur 1183 (new % 4))

/-- The minute clock advances: in S0 to S4, up to its stop, and not in S5 or without supply; Vigil holds S0 on the bank (R236, R341). -/
def State.clockRuns (s : State) : Bool :=
  decide (s.get K.powerState ≠ 5) && (decide (s.mode = 5) || (s.pw.aonValid && !s.pw.supplyLow)) && decide (s.get K.calendsNow < 2 ^ 28 - 1)

/-- CALENDS_ADVANCE (R236): the clock advances in S0 to S4 and stops at 2^28 − 1; each fitted die's bin gains a minute (R251). -/
def execCalendsAdvance (s : State) : Res :=
  .next (if s.clockRuns = false then s
    else
      let s := s.inc K.calendsNow
      let s := s.over s.allDies (fun s k =>
        s.modFl (fun x => { x with hist := SMap.modify x.hist (8 * k + tempBin (s.dieTemp (k / 16) (k % 16))) 0 (fun n => n + 1) }))
      updateHealth s)

/-- Saves of what a restore brings back: in a serving mode, and in Bringup once the restore has run, which precedes the first save that follows a Vigil
(R216, R251, R375). -/
def State.savesTables (s : State) : Bool := s.serving || (decide (s.mode = 1) && s.pw.restored)

/-- CALENDS_SAVE (R236), HARVEST_TABLE_SAVE (R239), SCRUB_POSITION_SAVE (R247), HEALTH_SAVE (R251). CalendsNow, which a Cold entry resumes, is saved in
Bringup too. -/
def execCalendsSave (s : State) : Res := .next (if s.serving ∨ s.mode = 1 then cfSave .calends s else s)
def execHarvestTableSave (s : State) : Res := .next (if s.savesTables then cfSave .harvest s else s)
def execScrubPositionSave (s : State) : Res := .next (if s.savesTables then cfSave .scrub s else s)
def execHealthSave (s : State) : Res := .next (if s.savesTables then cfSave .health s else s)

/-- DIE_COUNT_SAVE (R216). -/
def execDieCountSave (s : State) : Res := .next (if s.savesTables then cfSave .dieCounts s else s)

/-- A write of CalendsNow sets the clock (R236). -/
def calendsNowEffect (v : Nat) (s : State) : State := (s.set K.calendsNow v).set K.clockTrusted 1

/-! ## Reclaim (R240 to R246) -/

/-- ValidUnits of a row block over its present members. -/
def State.blockValid (s : State) (rb : RowBlock) (g : GenRec) : Nat :=
  ((g.channelsAt rb.die).map (fun c => SMap.getD s.fl.valid (32768 * c + 2048 * rb.die + s.memberBlock c rb.die rb.block) 0)).sum

/-- A row block is closed (R240). -/
def State.closedBlock (s : State) (rb : RowBlock) : Bool :=
  (decide (s.wordLines ≤ rb.rows.length) || rb.gen ≠ s.get (K.setGeneration rb.set)
    || (match s.genRec rb.set rb.gen with | some g => s.retiredMember rb g | none => false))
    && !(s.sset rb.set).rows.any (fun r => decide (r.die = rb.die) && decide (r.block = rb.block))

/-- The durable boundary of the newest checkpoint of a walk to a generation (R194). -/
def State.durableBoundary (s : State) (set target : Nat) : Nat :=
  match (s.nv.ckpts.filter (fun c => c.set = set)).getLast? with
  | some c => if c.target = target then c.boundary else 0
  | none => 0

/-- A walk that runs or is paused will visit the row block, or has visited it in part with no checkpoint above all its rows yet, so that it is
not released for erase (R184, R194). -/
def State.walkTarget (s : State) (rb : RowBlock) (g : GenRec) : Bool :=
  let t := s.sset rb.set
  (t.walk.toList ++ t.paused.toList).any (fun w =>
    s.targets w rb g && rb.rows.any (fun r => decide (r.1 < w.endRow) && decide (s.durableBoundary rb.set w.target < 16 * r.1 + 16)
      && (decide (16 * r.1 < w.next) || s.liveBlock rb)))

/-- Candidates of a set (R240). -/
def State.candidates (s : State) (set : Nat) : List (RowBlock × GenRec) :=
  ((s.wr.rowBlocks.filter (fun r => r.set = set && s.closedBlock r && !r.victim && !r.released && r.erasing.isNone)).filterMap
    (fun r => (s.genRec set r.gen).map (fun g => (r, g)))).filter (fun e => !s.walkTarget e.1 e.2)

/-- Earliest minute among the write tags of a row block's members. -/
def State.earliestTag (s : State) (rb : RowBlock) (g : GenRec) : Option Nat :=
  let l := (g.channelsAt rb.die).filterMap (fun c =>
    let t := SMap.getD s.fl.tags (32768 * c + 2048 * rb.die + s.memberBlock c rb.die rb.block) noLoc
    if t = noLoc ∨ t % 16 = 0 then none else some (t / 4096))
  match l with
  | [] => none
  | a :: r => some (r.foldl min a)

/-- Score of a candidate (R240). -/
def State.score (s : State) (rb : RowBlock) (g : GenRec) : Nat :=
  let cap := g.dataAt rb.die * s.wordLines * 16
  let f := 1024 - 1024 * s.blockValid rb g / cap
  let a := match s.earliestTag rb g with
    | none => 31
    | some m => let age := s.get K.calendsNow - m; if age = 0 then 0 else min 31 (Nat.log2 age + 1)
  let cs := g.channelsAt rb.die
  let n := (cs.map (fun c => (s.hrec (32768 * c + 2048 * rb.die + s.memberBlock c rb.die rb.block)).erases)).sum / cs.length
  let e := 1024 - min 1024 (1024 * n / s.rated)
  let (wv, wa, ww) := (s.get K.weightValid, s.get K.weightAge, s.get K.weightWear)
  (wv * f + wa * (32 * a) + ww * e) / (wv + wa + ww)

/-- The candidate flagged longest ago for a reason. -/
def oldestFlagged (l : List (RowBlock × GenRec)) (at_ : RowBlock → Option Nat) : Option (RowBlock × GenRec) :=
  l.foldl (fun a e => match at_ e.1, a with
    | none, _ => a
    | some _, none => some e
    | some t, some b => if t < (at_ b.1).getD 0 then some e else a) none

/-- The victim that R241 selects, and whether a flag chose it. -/
def State.pickVictim (s : State) (set : Nat) : Option (RowBlock × GenRec × Bool) :=
  let l := s.candidates set
  match [fun (r : RowBlock) => r.failedAt, fun r => r.oldestAt, fun r => r.refreshAt, fun r => r.wearAt].findSome? (oldestFlagged l) with
  | some e => some (e.1, e.2, true)
  | none =>
    match s.curGen set with
    | none => none
    | some g =>
      -- The die number with the fewest erased row blocks among those at which rows are opened (R129, R174).
      let few := ((List.range 16).filter g.opensAt).foldl (fun (a : Option (Nat × Nat)) d =>
        let n := (s.erasedRowBlocks set g d).length
        match a with | some b => if n < b.2 then some (d, n) else a | none => some (d, n)) none
      let d := (few.map (fun e => e.1)).getD 0
      let at_ := sortBy (fun e => e.1.block) (l.filter (fun e => e.1.die = d))
      (at_.foldl (fun (a : Option (RowBlock × GenRec)) e => match a with
        | none => some e
        | some b => if s.score b.1 b.2 < s.score e.1 e.2 then some e else a) none).map (fun e => (e.1, e.2, false))

/-- Changes a Harvest record of every present member of a row block. -/
def overMembers (rb : RowBlock) (g : GenRec) (f : HRec → HRec) (s : State) : State :=
  s.over (g.channelsAt rb.die) (fun s c => s.modHrec (32768 * c + 2048 * rb.die + s.memberBlock c rb.die rb.block) f)

/-- Scrub, background Harvest and the survey pause below S0, and until the Harvest and Calends records are back (R357, R359). -/
def State.paused (s : State) : Bool := decide (s.get K.powerState ≠ 0) || s.pw.parked.contains .mediaRecords

/-- Harvest runs (R242). -/
def State.harvests (s : State) (set : Nat) : Bool := s.serving && s.get (K.setState set) ≠ 0

/-- HarvestState of a set (R241, R242): 0 idle, 1 background, 2 urgent, 3 no candidate. -/
def State.harvestState (s : State) (set : Nat) : Nat :=
  let pace := if s.harvestUrgent set then 2 else 1
  if !s.harvests set then 0
  else if (s.sset set).victim.isSome then pace
  else if 64 ≤ s.erasedLowest set then 0
  else if (s.pickVictim set).isNone then 3 else pace

/-- SELECT_VICTIM (R241, R243 step 1). -/
def execSelectVictim (set : Fin 8) (s : State) : Res :=
  .next (if !s.harvests set ∨ s.paused ∨ (s.sset set).victim.isSome then s
    else if 64 ≤ s.erasedLowest set then s
    else
      match s.pickVictim set with
      | none => s
      | some (rb, g, flagged) =>
        let s := s.modRowBlock set rb.die rb.block (fun r => { r with victim := true })
        let s := overMembers rb g (fun h => if h.state = 4 then h else { h with state := 3 }) s
        let s := s.modSet set (fun t => { t with victim := some (rb.die, rb.block, 0), victimSeq := 0 })
        let s := s.set (K.setCurrentVictim set) (rb.die * 4096 + rb.block)
        s.when flagged (fun s => s.inc K.reclaimsAhead))

/-- Stripes of a row block in Row order, then plane and page order: word line and page. -/
def State.stripesOf (_ : State) (rb : RowBlock) : List (Nat × Nat) :=
  (sortBy (fun r => r.1) rb.rows).flatMap (fun r => (List.range 16).map (fun p => (r.2, p)))

/-- HARVEST_COPY (R243 steps 2 and 3): the next stripe of the victim; its live units are staged through the background budget. A victim that no
entry points into is erased without copy (R241). -/
def execHarvestCopy (set : Fin 8) (outcomes : List PageOutcome) (s : State) : Res :=
  .next (match (s.sset set).victim with
    | none => s
    | some (d, b, i) =>
      if !s.harvests set ∨ s.paused then s
      else
        match s.rowBlock set d b with
        | none => s
        | some rb =>
          match s.genRec set rb.gen, (s.stripesOf rb)[i]? with
          | some g, some (wl, page) =>
            let x : Stripe := { rb := rb, gen := g, wl := wl, page := page }
            if s.blockValid rb g = 0 ∨ s.stripeWaits x (s.stripeReads x outcomes ++ s.headerReads x) then s
            else
              let s := s.modSet set (fun t => { t with victim := some (d, b, i + 1) })
              relocateStripe .harvest x outcomes s
          | _, _ => s)

/-- Units of a set that wait in staging or in programs with a source in a row block. -/
def State.movesFrom (s : State) (rb : RowBlock) (g : GenRec) : Bool :=
  let inside := fun (u : SUnit) => match u.source with
    | some p => pmaDie p = rb.die && (g.channelsAt rb.die).contains (pmaCh p) && (match s.rowOfPma p with | some e => e.1.block = rb.block && e.1.set = rb.set | none => false)
    | none => false
  s.wr.slots.any (fun e => inside e.2) || s.wr.shadows.any (fun e => inside e.2) || s.wr.waitingUnits.any inside || s.wr.returning.any (fun e => inside e.1)

/-- Queues the erases of every present member's die-block of a row block, each after the reads its die holds (R150, R243 step 4). -/
def eraseRowBlock (rb : RowBlock) (g : GenRec) (s : State) : State :=
  let cs := (g.channelsAt rb.die).filter (fun c => !s.memberLost c rb.die)
  let s := s.modRowBlock rb.set rb.die rb.block (fun r => { r with erasing := some cs.length })
  if cs = [] then rowBlockErased rb.set rb.die rb.block s
  else s.over cs (fun s c =>
    let k := s.memberBlock c rb.die rb.block
    pushErase c rb.die (if s.density = 2 then 2 * k else k) 15 (some (rb.set, rb.block)) none s)

/-- A victim may be erased: no entry points into it, every moved unit's program has passed and every record of the moves is durable. -/
def State.victimReady (s : State) (set : Nat) (rb : RowBlock) (g : GenRec) : Bool :=
  decide (s.blockValid rb g = 0) && !s.movesFrom rb g && rb.erasing.isNone && decide ((s.sset set).victimSeq ≤ s.get K.journalDurable)

/-- The victim of a set, with its generation. -/
def State.victimOf (s : State) (set : Nat) : Option (RowBlock × GenRec) :=
  match (s.sset set).victim with
  | some (d, b, _) => (s.rowBlock set d b).bind (fun rb => (s.genRec set rb.gen).map (fun g => (rb, g)))
  | none => none

/-- The first row block that a walk has released and that may be erased (R182). -/
def State.releasedBlock (s : State) (set : Nat) : Option (RowBlock × GenRec) :=
  (s.wr.rowBlocks.filter (fun r => r.set = set && r.released && r.erasing.isNone)).findSome? (fun r =>
    (s.genRec set r.gen).bind (fun g => if s.victimReady set r g then some (r, g) else none))

/-- VICTIM_ERASE (R243 step 4): no entry points into the victim, every moved unit's program has passed and every record of the moves
is durable; a row block that a walk released is erased in the same way (R182). -/
def execVictimErase (set : Fin 8) (s : State) : Res :=
  .next (if !s.harvests set ∨ s.paused then s
    else
      match s.victimOf set with
      | some (rb, g) => if s.victimReady set rb g then eraseRowBlock rb g s else s
      | none =>
        match s.releasedBlock set with
        | some (rb, g) => eraseRowBlock rb g s
        | none => s)

/-- A set may flag a row block for wear again: one in 60 minutes (R246). -/
def State.wearDue (s : State) (set : Nat) : Bool :=
  match (s.sset set).wearAt with | some t => decide (t + 3600000000 ≤ s.now) | none => true

/-- The closed row block that holds the least erased die-block of a die whose erase counts spread beyond WearSpread (R246). -/
def State.wornBlock (s : State) (set : Nat) : Option RowBlock :=
  let dies := (s.members set).flatMap (fun c => (s.fittedDies c).map (fun d => (c, d)))
  let counted := fun (c d : Nat) => (List.range 2048).filter (fun k => (s.hrec (32768 * c + 2048 * d + k)).state ≤ 3)
  let erasesOf := fun (c d k : Nat) => (s.hrec (32768 * c + 2048 * d + k)).erases
  dies.findSome? (fun e =>
    let ks := counted e.1 e.2
    let lo := ks.foldl (fun (a : Option Nat) k => match a with | none => some k | some j => if erasesOf e.1 e.2 k < erasesOf e.1 e.2 j then some k else a) none
    let hi := ks.foldl (fun a k => max a (erasesOf e.1 e.2 k)) 0
    match lo with
    | some k =>
      if erasesOf e.1 e.2 k + s.get K.wearSpread < hi then
        s.wr.rowBlocks.find? (fun r => r.set = set && r.die = e.2 && s.closedBlock r && s.memberBlock e.1 e.2 r.block = k)
      else none
    | none => none)

/-- WEAR_CHECK (R246): when erase counts of a die spread too far, the closed row block that holds its least erased die-block is
flagged for wear, one for each set in 60 minutes. -/
def execWearCheck (set : Fin 8) (s : State) : Res :=
  .next (match s.curGen set with
    | none => s
    | some _ =>
      match s.wearDue set, s.wornBlock set with
      | true, some rb =>
        let s := s.modSet set (fun t => { t with wearAt := some s.now })
        s.modRowBlock set rb.die rb.block (fun r => { r with wearAt := some (r.wearAt.getD s.now) })
      | _, _ => s)

/-! ## Scrub (R247 to R249) -/

/-- Flags a row block for refresh (R248, R249). -/
def flagRefresh (rb : RowBlock) (g : GenRec) (s : State) : State :=
  if rb.refreshAt.isSome then s
  else
    let s := s.modRowBlock rb.set rb.die rb.block (fun r => { r with refreshAt := some s.now })
    (overMembers rb g (fun h => { h with refresh := true }) s).inc K.refreshFlagged

/-- Rows that scrub reads in a pass, ascending: closed row blocks with live units, no victim, no walk target (R247). -/
def State.scrubRows (s : State) (set : Nat) : List (Nat × RowBlock × GenRec × Nat) :=
  sortBy (fun r => r.1) (((s.liveBlocks set).filter (fun e => s.closedBlock e.1 && !e.1.victim && !e.1.released && !s.walkTarget e.1 e.2)).flatMap
    (fun e => e.1.rows.map (fun r => (r.1, e.1, e.2, r.2))))

/-- A page holds filler only (R128, R247). -/
def State.fillerAt (s : State) (pma : Nat) : Bool :=
  match SMap.find? s.fl.media (pmaPlace pma) with
  | some m => (match readHeader (pageHeader m.bits) with | some h => h.kind = 4 | none => false)
  | none => true

/-- A row block's earliest write tag is older than RefreshAge (R249). -/
def State.tooOld (s : State) (rb : RowBlock) (g : GenRec) : Bool :=
  s.get K.refreshAge ≠ 0 && (match s.earliestTag rb g with | some m => decide (m + s.get K.refreshAge < s.get K.calendsNow) | none => false)

/-- Checks the age of every closed row block of a set, at each Bringup (R249). -/
def checkAges (set : Nat) (s : State) : State :=
  s.over (s.wr.rowBlocks.filter (fun rb => rb.set = set && s.closedBlock rb)) (fun s rb =>
    match s.genRec set rb.gen with
    | some g => s.when (s.tooOld rb g) (flagRefresh rb g)
    | none => s)

/-- Stripes of the pass that scrub has read in a set, and all of them, at its position. -/
def State.scrubPart (s : State) (set : Nat) : Nat × Nat :=
  let rows := s.scrubRows set
  let pos := (s.sset set).scrub
  ((rows.filter (fun r => r.1 < pos / 16)).length * 16 + (if rows.any (fun r => r.1 = pos / 16) then pos % 16 else 0), rows.length * 16)

/-- ScrubProgress: the share of the pass that is read over all sets, in 0.01 % (R253). -/
def showScrub (s : State) : State :=
  let parts := (List.range 8).map s.scrubPart
  let total := (parts.map (fun p => p.2)).sum
  s.set K.scrubProgress (if total = 0 then 0 else 10000 * (parts.map (fun p => p.1)).sum / total)

/-- The next row of the pass in a set. -/
def State.nextScrub (s : State) (set : Nat) : Option (Nat × RowBlock × GenRec × Nat) :=
  (s.scrubRows set).find? (fun r => (s.sset set).scrub / 16 ≤ r.1)

/-- Members of a stripe that scrub reads: every programmed page but filler (R247). -/
def State.scrubReads (s : State) (x : Stripe) : List Nat :=
  (x.gen.present x.rb.die).filter (fun p => s.memberRead x p && !s.fillerAt (s.stripePma x p))

/-- Scrub reads one stripe of a row (R247 to R249). -/
def scrubStripe (set row : Nat) (x : Stripe) (outcomes : List PageOutcome) (s : State) : State :=
  let s := s.modSet set (fun t => { t with scrub := 16 * row + x.page + 1 })
  let read := s.scrubReads x
  let (outcomes, s) := forceOutcomes x 3 read (List.range 4) outcomes s
  let step := fun (p f : Nat) => s.memberStep x outcomes p f
  let worn := read.any (fun p => (List.range 4).any (fun f => step p f = 0 || decide (s.get K.scrubRefreshStep ≤ step p f)))
  let s := (s.add K.scrubPagesRead read.length).over read (readMember x (List.range 4) outcomes)
  let s := s.when (worn || s.tooOld x.rb x.gen) (flagRefresh x.rb x.gen)
  s.over (List.range 4) (fun s f =>
    let erased := s.erasedAt x f outcomes
    s.when (decide (2 < erased.length)) (declareStripeLoss 1 x f erased))

/-- SCRUB_READ (R247, R248, R249): the next stripe of a set is read. When no set has a stripe left, the pass ends and the next one starts. -/
def execScrubRead (set : Fin 8) (outcomes : List PageOutcome) (s : State) : Res :=
  .next (if s.get K.scrubEnable = 0 ∨ !s.harvests set ∨ s.paused then s
    else
      match s.nextScrub set with
      | some (row, rb, g, wl) =>
        let pos := (s.sset set).scrub
        let page := if row = pos / 16 then pos % 16 else 0
        let x : Stripe := { rb := rb, gen := g, wl := wl, page := page }
        if s.stripeWaits x (s.scrubReads x) then s else showScrub (scrubStripe set row x outcomes s)
      | none =>
        if (List.range 8).any (fun k => (s.nextScrub k).isSome) then s
        else (s.over (List.range 8) (fun s k => s.modSet k (fun t => { t with scrub := 0 }))).set K.scrubProgress 0)

end Sys2Proof.Machine
end

