-- ==== Sys2Proof/Machine/Abort.lean ====
section
/-! DEFINITION. Abort.lean: aborts of a ring, a channel, the device and a code-flash operation (R106 to R108, R213, R466). -/

namespace Sys2Proof.Machine

/-! ## One operation (R108) -/

/-- Ends a fetched operation as ABORTED, in the state R108 gives its type. -/
def abortOp (o : Op) (s : State) : State :=
  let s := unqueueOp o.ring o.slot s
  let op := descOpcode o.desc
  if op = 0x01 ∨ op = 0x10 then endRead o 1 (leadingGood o * partBytes o) 0 s
  else
    let s := s.when (op = 0x04) (fun s => s.modSet (s.setOf o.ring) (fun t => { t with flushes := t.flushes.filter (fun f => f ≠ (o.ring, o.slot)) }))
    finishOp { o with staged := false, unmapped := false } 1 0 0 s

/-- An abort of ring scope completes this operation now: not an ABORT, a migration under way, one whose completion is only held back, or a raw
program or erase that has started on its die, which end on their own (R106, R108). -/
def State.abortable (s : State) (o : Op) : Bool :=
  descOpcode o.desc ≠ 0x22 && !(descOpcode o.desc = 0x21 && o.phase = .issued) && o.phase ≠ .withdrawn && o.phase ≠ .ended
    && !s.rawStarted o.ring o.slot

/-- Completes as ABORTED, within the free completion slots, the next descriptors of a ring, at most the number given: how many, and the
state after. A READ so completed counts as completed (R172). -/
def drainRing (n : Nat) : Nat → Nat × State → Nat × State
  | 0, a => a
  | fuel + 1, (k, s) =>
    let head := s.get (K.ringHead n)
    let m := s.get (K.ringCompletionRing n)
    if head = s.get (K.ringTail n) ∨ s.cringFree m = 0 then (k, s)
    else
      let d := SMap.getD s.rings.subPool (s.get (K.ringBase n) + head) 0
      let s := s.set (K.ringHead n) ((head + 1) % s.ringSize n)
      let s := s.when (decide (descOpcode d = 0x01)) (fun s => s.inc K.readsCompleted)
      let c := completionBits 0 (s.get (K.ringEpoch n)) n head (descCommandId d) 1 0 false false false 0 0
      drainRing n fuel (k + 1, postEntry m c s)

/-- Abort i drains its rings of the descriptors that their Tails covered when it started: each is drained once, and leaves every abort that
covers it (R106, R107). -/
def abortDrain (i : Nat) (s : State) : State :=
  match s.rings.aborts[i]? with
  | none => s
  | some a => s.over a.tails (fun s e =>
      let left := match s.rings.aborts[i]? with | some a => ((a.tails.find? (fun x => x.1 = e.1)).map (fun x => x.2)).getD 0 | none => 0
      let (k, s) := drainRing e.1 left (0, s)
      s.modRings (fun r => { r with aborts := (r.aborts.map (fun a =>
        { a with tails := a.tails.map (fun x => if x.1 = e.1 then (x.1, x.2 - k) else x) })).modify i (fun a => { a with count := a.count + k }) }))

/-- Starts an abort of one ring: its fetched operations; a migration completes and its withdrawn operations end ABORTED (R106, R108). Answers
the operations completed. -/
def abortRingNow (n : Nat) (s : State) : Nat × State :=
  let s := s.modRings (fun r => { r with migrations := mapIf (fun g => g.ring = n) (fun g => { g with aborted := true }) r.migrations })
  let ops := (refreshRing n s).rings.ops.filter (fun o => decide (o.ring = n) && s.abortable o)
  (ops.length, (refreshRing n s).over ops (fun s o => abortOp o s))

/-! ## A channel (R213) -/

/-- Ends a job cut short on a die, or still in its queue, by an abort (R108, R213). -/
def abortJob (c d : Nat) (j : DieJob) (started : Bool) (s : State) : State :=
  match j with
  | .member p => programFailed p false (s.when started (tear (memberTear s p 1)))
  | .slc j =>
    let s := s.when started (fun s => (tear (pageTear 1 (pmaOf (s.get K.deviceNumber) c d j.plane j.block j.page) 1 true) s).modFl
      (fun x => { x with slcNext := SMap.erase x.slcNext c }))
    if started then replaceSlc c j s
    else pushProg c d (.slc j) s
  | .erase e =>
    (match e.raw with
    | some (ring, slot) =>
      let (i, s) := s.free
      let s := { s with freeIdx := s.freeIdx + 8192 }
      let s := s.when started (fun s => s.over ((List.range 4).filter (fun p => e.planes.testBit p)) (fun s p =>
        let k := pmaOf 0 c d p e.block 0 / 2048
        s.modFl (fun x => { x with media := x.media.filter (fun m => m.1 / 2048 ≠ k), undef := SMap.insert x.undef k (i + 2048 * p) })))
      (match s.op ring slot with | some o => abortOp o s | none => s)
    | none => pushProg c d (.erase e) s)
  | .rawProg ring slot pma _ =>
    let s := s.when started (tear (pageTear 1 pma 1 false))
    (match s.op ring slot with | some o => abortOp o s | none => s)
  | _ => s

/-- Operations whose page reads are queued, running or in transfer on a channel. -/
def State.opsReading (s : State) (c : Nat) : List Op :=
  s.rings.ops.filter (fun o => (s.readsOf o.ring o.slot).any (fun e => decide (pmaCh e.2.pma = c)))

/-- Starts an abort of a channel: no further issue, Reset LUN to every busy die, every operation issued to its dies ends ABORTED. -/
def abortChannelNow (c : Nat) (s : State) : Nat × State :=
  let readers := s.opsReading c
  let dies := (List.range 16).map (fun d => (d, s.die c d))
  let raw := (dies.flatMap (fun e => e.2.cur.toList ++ e.2.progs.map (fun j => j.1))).filter (fun j => j.isRaw)
  let gone := s.fl.reads.filter (fun e => decide (pmaCh e.2.pma = c))
  let s := (noteMisframed c (s.chan c).xfers s).modChan c (fun x => { x with aborting := true, xfers := [], hardQ := [] })
  let s := s.over gone (fun s e => freeBuffers e.2.cls e.2.held
    (s.modFl (fun x => { x with reads := SMap.erase x.reads e.1, softQ := x.softQ.filter (fun f => f.read ≠ e.1) })))
  let s := s.over readers (fun s o => match s.op o.ring o.slot with | some o => abortOp o s | none => s)
  let s := s.over dies (fun s e =>
    let s := s.modDie c e.1 (fun x => { x with reads := [], progs := [], forced := false, cur := none, inArray := false, stretch := none })
    match e.2.cur with
    | some (.reset k) => s.modDie c e.1 (fun x => { x with cur := some (.reset k), inArray := e.2.inArray })
    | some (.gone p k) => s.modDie c e.1 (fun x => { x with cur := some (.gone p k), inArray := e.2.inArray })
    | some _ => if e.2.inArray && !(s.chan c).driversOff then issueJob c e.1 (.reset 1) s else s
    | none => s)
  let s := s.over dies (fun s e =>
    let s := match e.2.cur with | some j => abortJob c e.1 j e.2.inArray s | none => s
    s.over e.2.progs (fun s j => abortJob c e.1 j.1 false s))
  (readers.length + raw.length, s)

/-- Every die of a channel has ended its reset (R213). -/
def State.resetsEnded (s : State) (c : Nat) : Bool :=
  (s.chan c).driversOff || (List.range 16).all (fun d => match (s.die c d).cur with | some (.reset _) => !(s.die c d).inArray || decide (3 ≤ s.get (K.chDieState c d)) | _ => true)

/-! ## Starting and ending aborts -/

/-- Starts an abort of a scope (0 ring, 1 channel, 2 device, 3 code flash) for an ABORT descriptor, or for none. -/
def startAbort (scope target : Nat) (op : Option (Nat × Nat)) (s : State) : State :=
  let rings := if scope = 0 then [target] else if scope = 2 then s.enabledRings.filter (fun n => decide (n < 8160)) else []
  let chans := if scope = 1 then [target] else if scope = 2 then List.range 96 else []
  let cf := (scope = 3 || scope = 2) && s.cf.cur.isSome
  let i := s.rings.aborts.length
  let s := s.modRings (fun r => { r with aborts := r.aborts ++
    [{ scope := scope, target := target, op := op, started := s.now, count := if cf then 1 else 0,
       tails := rings.map (fun n => (n, s.unfetched n (s.get (K.ringTail n)))), channels := chans, codeFlash := cf }] })
  let s := match op with
    | some (r, t) => s.modOp r t (fun o => { o with phase := .issued })
    | none => s
  let (k, s) := rings.foldl (fun (a : Nat × State) n => let r := abortRingNow n a.2; (a.1 + r.1, r.2)) (0, s)
  let (k, s) := chans.foldl (fun (a : Nat × State) c => let r := abortChannelNow c a.2; (a.1 + r.1, r.2)) (k, s)
  let s := s.when cf (fun s => s.modCf (fun x => { x with stopping := true }))
  -- The walks of the sets whose channels it resets are cut short (R108, R184).
  let s := s.over ((List.range 8).filter (fun set => chans.any (fun c => decide (s.get (K.chStripeSet c) = set)))) (fun s set => cutWalk set s)
  abortDrain i (s.modRings (fun r => { r with aborts := r.aborts.modify i (fun a => { a with count := a.count + k }) }))

/-- An ABORT descriptor acts (R106). -/
def abortDescriptor (ring slot scope : Nat) (s : State) : State :=
  match s.readyOp ring slot 0x22 with
  | some o =>
    let v := descDuo o.desc 2
    if v / 2 ^ 38 = scope then startAbort scope (if scope = 0 then v % 8192 else if scope = 1 then v % 128 else 0) (some (ring, slot)) s
    else s
  | none => s

/-- ABORT_RING_SCOPE, ABORT_CHANNEL_SCOPE, ABORT_DEVICE_SCOPE, ABORT_CODE_FLASH_SCOPE (R106, R213, R466). -/
def execAbortRingScope (ring : Fin 8192) (slot : Fin 65536) (s : State) : Res := .next (abortDescriptor ring slot 0 s)
def execAbortChannelScope (ring : Fin 8192) (slot : Fin 65536) (s : State) : Res := .next (abortDescriptor ring slot 1 s)
def execAbortDeviceScope (ring : Fin 8192) (slot : Fin 65536) (s : State) : Res := .next (abortDescriptor ring slot 2 s)
def execAbortCodeFlashScope (ring : Fin 8192) (slot : Fin 65536) (s : State) : Res := .next (abortDescriptor ring slot 3 s)

/-- A write of 1 to AbortRing of a host ring (R106, R109). -/
def abortRingEffect (n : Nat) (s : State) : State := if s.flag (K.ringEnable n) then startAbort 0 n none s else s

/-- The migration of a ring waits for an ABORT of that ring, an operation issued in the epoch that it ends (R103). -/
def State.migrationHeld (s : State) (n : Nat) : Bool :=
  s.rings.ops.any (fun o => decide (o.ring = n) && decide (descOpcode o.desc = 0x22) && decide (o.phase = .issued))

/-- Nothing of an abort is left to end: its rings are drained, and what it leaves to end on its own has ended and posted. A migration that itself
waits for an ABORT is not waited for, since its last completion of the old epoch is that ABORT's (R103, R104; log entry 175). -/
def State.abortDone (s : State) (a : Abort) : Bool :=
  a.tails.all (fun e =>
    let moving := !s.migrationHeld e.1
    decide (e.2 = 0) && !(s.rings.ops.any (fun o => decide (o.ring = e.1) && some (o.ring, o.slot) ≠ a.op
      && descOpcode o.desc ≠ 0x22 && (s.rawStarted o.ring o.slot || o.phase = .ended
        || (moving && (decide (o.phase = .withdrawn) || (descOpcode o.desc = 0x21 && o.phase = .issued))))))
    && !(moving && s.rings.migrations.any (fun g => decide (g.ring = e.1))))
    && a.channels.all s.resetsEnded && !(a.codeFlash && s.cf.stopping)

/-- Withdrawn operations that an abort leaves to complete as ABORTED at the end of a migration that waits for an ABORT: its count takes them in, since what
becomes of them is settled (log entry 175). -/
def State.leftWithdrawn (s : State) (a : Abort) : Nat :=
  (s.rings.ops.filter (fun o => decide (o.phase = .withdrawn) && s.migrationHeld o.ring && a.tails.any (fun e => decide (e.1 = o.ring)))).length

/-- Abort i ends: the rings run again, the channels issue again unless a further abort holds them, and an ABORT descriptor completes (R107). Where its time or
count is past what the twenty bits of Detail hold, each stops at 1,048,575: the manual does not say what Detail then reads (DESIGN CHOICE, log entry 175). -/
def endAbort (i : Nat) (a : Abort) (s : State) : State :=
  let left := s.leftWithdrawn a
  let s := s.modRings (fun r => { r with aborts := r.aborts.eraseIdx i })
  let s := s.over a.tails (fun s e => refreshRing e.1 s)
  let s := s.over a.channels (fun s c =>
    s.when (!(s.rings.aborts.any (fun b => b.channels.contains c))) (fun s => s.modChan c (fun x => { x with aborting := false })))
  match a.op with
  | none => s
  | some (r, t) =>
    match s.op r t with
    | some o => finishOp o 0 0 (min 1048575 (max 1 (s.now - a.started)) * 2 ^ 20 + min 1048575 (a.count + left)) s
    | none => s

/-- ABORT_COMPLETE (R107): all that abort i cut short has ended; an ABORT descriptor completes DONE with the elapsed time and the
number of operations it completed; the rings run again and the channels issue again. -/
def execAbortComplete (i : Nat) (s : State) : Res :=
  .next (let s := abortDrain i s
    match s.rings.aborts[i]? with
    | none => s
    | some a => if !s.abortDone a then s else endAbort i a s)

end Sys2Proof.Machine
end

