-- ==== Sys2Proof/Machine/Eye.lean ====
section
/-! DEFINITION. Eye.lean: what a pattern-compare sweep of a lane gives: its trained delay (R319), its eye (R320) and its residual bit-error
ratio (R321). Real quantities are integers in units of 10^-60. -/

namespace Sys2Proof.Machine

/-! ## Passing run (R319) -/

/-- One position further in the search for the longest run: the run that reaches it, if any, and the best so far, each as its first position and
length. -/
def runStep (b : BitVec 256) (e : (Nat × Nat) × (Nat × Nat)) (i : Nat) : (Nat × Nat) × (Nat × Nat) :=
  if b.getLsbD i then
    let cur := if e.1.2 = 0 then (i, 1) else (e.1.1, e.1.2 + 1)
    (cur, if e.2.2 < cur.2 then cur else e.2)
  else ((0, 0), e.2)

/-- The passing run of a sweep, the longest run of positions with no mismatch: its first position and its length (R319). DESIGN CHOICE (log 148):
of two runs of one length the lower. -/
def passingRun (b : BitVec 256) : Nat × Nat := ((List.range 256).foldl (runStep b) ((0, 0), (0, 0))).2

/-- The trained delay: the middle of the passing run, rounded down; none for a lane that has failed (R319). -/
def trainedDelay (b : BitVec 256) : Option Int :=
  let (a, n) := passingRun b
  if n = 0 then none else some ((a + (n - 1) / 2 : Nat) : Int)

/-- The place of the least of a list of figures, the first of equals. -/
def leastAt (l : List Nat) : Option Nat :=
  match l with
  | [] => none
  | a :: r => l.findIdx? (fun x => x = r.foldl min a)

/-- The duty-cycle code at which the mismatch counts of the two edges are in balance (R318). The manual names the statistic; that the code of the least
difference is taken, the lowest of equals, is a DESIGN CHOICE (log entry 186). -/
def dutyCode (l : List (BitVec 21 × BitVec 21)) : Option Int :=
  (leastAt (l.map (fun e => max e.1.toNat e.2.toNat - min e.1.toNat e.2.toNat))).map (fun i => (i : Int) - 32)

/-- The tap or code with the widest eye (R318). The manual names the statistic; that the largest is taken, the first of equals, is a DESIGN CHOICE (log
entry 186). -/
def TapEyes.best (t : TapEyes) : Option Int :=
  (leastAt (t.eyes.map (fun e => 65535 - e.toNat))).map (fun (i : Nat) => t.first + (i : Int))

/-- Values of a run of a step: the duty-cycle code from its balance, any other quantity from its sweep (R318, R319). That the middle of a passing run is
taken of references too, as the manual has it of delays, is DEDUCED (log entry 186). -/
def measured (isDuty : Nat → Bool) (ms : List Measure) : List (Option Int) :=
  (List.range ms.length).map (fun k =>
    match ms[k]? with
    | some m => if isDuty k then dutyCode m.balance else trainedDelay m.pass
    | none => none)

/-! ## The normal tail -/

/-- The unit in which real quantities are counted. -/
abbrev unit60 : Nat := 10 ^ 60

/-- 1/√(2π) in that unit. -/
abbrev normalDensity : Nat := 398942280401432677939946059934381868475858631164934657665925

/-- The series of x − x³/6 + x⁵/40 − …, summed as its positive and its negative terms: `term` is x^(2n+1) / (2^n n!). -/
def tailSeries (x2 : Nat) : Nat → Nat → Nat → Int → Int
  | 0, _, _, acc => acc
  | f + 1, n, term, acc =>
    if term = 0 then acc
    else
      let v : Int := (term / (2 * n + 1) : Nat)
      tailSeries x2 f (n + 1) (term * x2 / (2 * (n + 1) * unit60)) (if n % 2 = 0 then acc + v else acc - v)

/-- ½·erfc(x/√2) for x from 0 to 10. -/
def upperTail (x : Nat) : Nat :=
  (((unit60 / 2 : Nat) : Int) - (normalDensity : Int) * tailSeries (x * x / unit60) 300 0 x 0 / (unit60 : Int)).toNat

/-- The greatest number from lo below hi at which a condition that holds up to some point still holds. -/
def bisect (p : Nat → Bool) : Nat → Nat → Nat → Nat
  | 0, lo, _ => lo
  | f + 1, lo, hi =>
    let m := (lo + hi) / 2
    if p m then bisect p f m hi else bisect p f lo m

/-- Q = √2·erfc⁻¹(2ρ) of a count of mismatches in 2²⁰ bits (R321). -/
def qOfCount (n : Nat) : Nat := bisect (fun m => decide (n * unit60 ≤ upperTail m * 1048576)) 210 0 (5 * unit60)

/-- BER at an extrapolated Q (R321). -/
def berOfQ (q : Int) : Nat :=
  if (10 * unit60 : Int) < q then 0
  else if 0 ≤ q then upperTail q.toNat
  else unit60 - upperTail (min (10 * unit60) q.natAbs)

/-- min(2,000, floor(−100·log₁₀ BER)) (R321). -/
def residualOf (ber : Nat) : Nat :=
  if ber = 0 then 2000
  else min 2000 (bisect (fun k => decide (ber ^ 100 * 10 ^ k ≤ unit60 ^ 100)) 11 0 2048)

/-! ## Edges (R319 to R321) -/

/-- The usable points of an edge: distance from the trained delay and Q, `first` being the distance of the first failing position and `room` the
positions there are beyond the run (R319, R321). -/
def edgePoints (first room : Nat) (counts : List (BitVec 21)) : List (Nat × Nat) :=
  (List.range (min 8 (min room counts.length))).filterMap (fun i =>
    let n := (nth counts i 0).toNat
    if 10 ≤ n ∧ n ≤ 104857 then some (first + i, qOfCount n) else none)

/-- The least-squares line of an edge with two or more points: Q at distance 0 and its slope (R321). -/
def edgeLine (ps : List (Nat × Nat)) : Option (Int × Int) :=
  if ps.length < 2 then none
  else
    let n : Int := ps.length
    let sd : Int := ((ps.map (fun e => e.1)).sum : Nat)
    let sq : Int := ((ps.map (fun e => e.2)).sum : Nat)
    let sdd : Int := ((ps.map (fun e => e.1 * e.1)).sum : Nat)
    let sdq : Int := ((ps.map (fun e => e.1 * e.2)).sum : Nat)
    let den := n * sdd - sd * sd
    some ((sdd * sq - sd * sdq) / den, (n * sdq - sd * sq) / den)

/-- Q at the trained delay by one edge, the other edge's slope serving an edge with one point (R321); none where the edge gives none. DEDUCED (log
148): slopes are taken outward from the eye, so that one edge's serves the other. -/
def edgeQ (ps other : List (Nat × Nat)) : Option Int :=
  match edgeLine ps with
  | some l => some l.1
  | none =>
    match ps.head?, edgeLine other with
    | some p, some l => some ((p.2 : Int) - l.2 * (p.1 : Int))
    | _, _ => none

/-- The quality figures of a lane or of an interface (R320). -/
structure EyeFigures where
  width : Nat
  height : Nat
  ber : Nat
  deriving DecidableEq, Repr

/-- ResidualBer of two edges: the smaller Q of those that give one, 0 where neither has two usable points (R321). -/
def residualBer (below above : List (Nat × Nat)) : Nat :=
  match edgeQ below above, edgeQ above below with
  | some a, some b => residualOf (berOfQ (min a b))
  | some a, none => residualOf (berOfQ a)
  | none, some b => residualOf (berOfQ b)
  | none, none => 0

/-- The figures of one lane, its reference swept in steps of `step` mV (R320). DEDUCED (log 148): the span of references is the longest run of them, each
counting one step, as each position of EyeWidth counts one; and the trained delay is that of the same sweep. -/
def laneFigures (step : Nat) (x : LaneSweep) : EyeFigures :=
  let (a, n) := passingRun x.pass
  if n = 0 then ⟨0, 0, 0⟩
  else
    let t := a + (n - 1) / 2
    ⟨16 * n, step * (passingRun x.refs).2,
      residualBer (edgePoints (t - a + 1) a x.below) (edgePoints (a + n - t) (256 - (a + n)) x.above)⟩

/-- The figures that an interface reports: the lowest of its lanes (R320), 0 with none. -/
def lowestFigures (step : Nat) (xs : List LaneSweep) : EyeFigures :=
  match xs.map (laneFigures step) with
  | [] => ⟨0, 0, 0⟩
  | x :: r => r.foldl (fun a b => ⟨min a.width b.width, min a.height b.height, min a.ber b.ber⟩) x

end Sys2Proof.Machine
end

