-- ==== Sys2Proof/Machine/Link.lean ====
section
/-! DEFINITION. Link.lean: the three serial ports (R282 to R317): received flits, acknowledgements and replay, lock, the recovery actions
and training. -/

namespace Sys2Proof.Machine

/-! ## Acknowledgements (R299) -/

/-- Reports the flits received in order: AckKind 0b01 with AckSeq = E − 1, unless Pepper drops it (R299, R487). -/
def sendAck (p : Nat) (s : State) : State :=
  let pt := s.port p
  if s.mode = 5 then s
  else
    let k := s.get K.ackDropInterval
    let drops := s.flag K.pepperEnable && decide (s.get K.linkPort = p) && decide (k ≠ 0)
    let hit := drops && decide (k ≤ pt.ackSince + 1)
    let s := s.modPort p (fun pt => { pt with unreported := 0, ackSince := if drops then (if hit then 0 else pt.ackSince + 1) else pt.ackSince })
    if hit then s else sendControlFlit p (fun _ => reportFlit p 1 pt) s

/-- A NAK is due: AckKind 0b10 with AckSeq = E − 1, and no further one until E advances or ReplayTimeout has passed (R299). -/
def nakDue (p : Nat) (s : State) : State :=
  let pt := s.port p
  let again := match pt.nakAt with | some t => decide (s.get (K.portReplayTimeout p) ≤ 1000 * (s.now - t)) | none => true
  if again && decide (s.mode ≠ 5) then
    (sendControlFlit p (fun _ => reportFlit p 2 pt) (s.modPort p (fun pt => { pt with nakAt := some s.now }))).inc (K.portNaksSent p)
  else s

/-! ## Recovery actions (R301) -/

/-- The Urvan path loses TEST when its link realigns, retrains or resets (R41, R301). -/
def linkLosesTest (p : Nat) (s : State) : State := s.when (p = 0) (loseTest .urvan)

/-- Starts a realign: the receiver hunts for the flit boundary (R296). -/
def realign (p : Nat) (s : State) : State :=
  if s.get (K.portLinkState p) = 2 then
    linkLosesTest p (((s.set (K.portLinkState p) 3).inc (K.portRealigns p)).modPort p (fun pt => { pt with hunting := some s.now }))
  else s

/-- Starts a fast retrain for a trigger, numbered in the order of the table of R301 from 1 (R316). -/
def startRetrain (p trigger : Nat) (s : State) : State :=
  let s := (s.set (K.portLinkState p) 4).inc (K.portRetrains p)
  let s := s.modPort p (fun pt => { pt with hunting := none, recovery := 1, replays := 0, paramSeen := false, crcTimes := [] })
  linkLosesTest p (occur 1203 (p + 4 + 16 * trigger) s)

/-- Leading parts of a READ or RAW_READ whose data writes have been acknowledged at flit level (R302). -/
def State.ackedParts (s : State) (o : Op) : Nat :=
  let pt := s.port 0
  let held := (pt.replay.flatMap (fun f => f.beats.map (fun b => b.packet))) ++ pt.unsent
  let addrs := held.filterMap (fun k => match k with | .memWrite op _ _ a n _ => if op = o.seq then some (a, n) else none | _ => none)
  ((List.range (leadingGood o)).takeWhile (fun i =>
    let a := descHost o.desc + partBytes o * i
    o.sentParts.contains i && addrs.all (fun e => decide (e.1 + e.2 ≤ a) || decide (a + partBytes o ≤ e.1)))).length

/-- What a link reset of the Urvan link ends: WRITEs whose data was still crossing, and READs and RAW_READs still delivering, those among them
that have ended but whose data writes are not all sent (R88, R302). -/
def urvanResetOps (s : State) : State :=
  let crossing := s.rings.ops.filter (fun o => decide (descOpcode o.desc = 2) &&
    s.wr.hostReads.any (fun r => decide (r.ring = o.ring) && decide (r.slot = o.slot)))
  let reads := s.rings.ops.filter (fun o => decide (descOpcode o.desc = 1) || decide (descOpcode o.desc = 0x10))
  let moved := fun (o : Op) => (o, s.ackedParts o * partBytes o)
  let reading := (reads.filter (fun o => decide (o.phase = .issued))).map moved
  -- Reads that have ended, whose completion waits for data writes still to be sent (R88).
  let sending := (reads.filter (fun o => decide (o.phase = .ended) && s.writesUnsent o.seq)).map moved
  let s := s.modPort 0 (fun pt => { pt with replay := [], waiting := [], sending := none })
  -- Completion notices not yet sent are discarded too: a completion they would have told of is found by its Phase (R85).
  let s := s.modRings (fun r => { r with unnoticed := [] })
  let s := s.over crossing (fun s o => match s.op o.ring o.slot with | some o => abortOp o s | none => s)
  let s := s.over reading (fun s e => match s.op e.1.ring e.1.slot with
    | some o => endRead o 1 e.2 0 (unqueueOp o.ring o.slot s)
    | none => s)
  postHeld (s.over sending (fun s e =>
    finishOp e.1 1 e.2 0 (s.modRings (fun r => { r with heldPosts := r.heldPosts.filter (fun h => h.op ≠ e.1.seq) }))))

/-- Starts a link reset: replay buffer, queues and partly received packets are discarded, sequences and credits restart at 0, and the
training begins, full unless the link leaves S4 or S5 (R301, R302). -/
def startLinkReset (p trigger : Nat) (full host : Bool) (s : State) : State :=
  let s := (s.set (K.portLinkState p) 1).inc (K.portLinkResets p)
  let s := (s.set (K.portLinkResetHost p) (if host then 1 else 0)).when full (fun s => s.set (K.portWidth p) 0)
  let s := (s.when full (calStart (120 + p))).when (p = 0) urvanResetOps
  let s := s.modPort p (fun pt =>
    { equalised := pt.equalised, crcSince := pt.crcSince, crcBurst := pt.crcBurst, ackSince := pt.ackSince, partnerAsleep := pt.partnerAsleep,
      recovery := 2, fullTraining := full })
  linkLosesTest p (occur 1203 (p + 8 + 16 * trigger) s)

/-- The link is up: LinkState 2 and what was waiting is sent. -/
def linkUp (p : Nat) (s : State) : State :=
  postHeld <| pump p ((s.set (K.portLinkState p) 2).modPort p (fun pt => { pt with recovery := 0, fullTraining := false, retry := false, paramSeen := false }))

/-! ## Waking (R312, R313, R359) -/

/-- What becomes of an SRAM region in a power state (R356). -/
inductive SramFate
  | kept | parked | empty | discarded
  deriving DecidableEq, Repr

/-- The table of R356. Per-die threshold state is kept in S3 and S4 in the state block. -/
def sramFate (r : Sram) (k : Nat) : SramFate :=
  match r with
  | .workBuffers => .empty
  | .mapCache | .retunes => if k ≤ 2 then .kept else .discarded
  | .pools | .mediaHeaders => if k ≤ 3 then .kept else .parked
  | .stateBlock | .dieState => if k ≤ 4 then .kept else .parked
  | .bootContext => if k ≤ 2 ∨ k = 4 then .kept else .parked
  | .mediaRecords | .window | .wardenRest | .offsets => if k ≤ 2 then .kept else .parked

/-- Regions that the entry to a power state parks. -/
def parkedIn (k : Nat) : List Sram :=
  [.workBuffers, .mapCache, .pools, .mediaHeaders, .mediaRecords, .window, .stateBlock, .bootContext, .wardenRest, .offsets, .dieState,
    .retunes].filter (fun r => sramFate r k = .parked)

/-- What the exit from a power state leaves to be reloaded in the background: from S3 all that host firmware does not reach (R359). -/
def parkedAfter (k : Nat) (l : List Sram) : List Sram := if 4 ≤ k then [] else l.filter (fun r => r ≠ .window)

/-- The ranks come back as the power state left them (R355). -/
def ranksBack (k : Nat) (s : State) : State :=
  if k = 1 then idleRanks 11 (fun x => { x with powerDown := false }) s else idleRanks 6 (fun x => { x with selfRefresh := false }) s

/-- A port comes back as R312 states: from S1 its receiver locks anew (R295), from S2 it runs steps 2, 6 and 7 of R286, from S3 it retrains fast, and from
S4 and S5 with Reset = 1. The side that wakes a link in S2 to S5 drives the wake pattern (R313). A peer port that is off in S1 and S2 waits
for its own neighbour (R442). -/
def portBack (k p : Nat) (woke : Bool) (s : State) : State :=
  let drive := s.when (!woke && (s.get (K.portLinkState p) = 6 || s.get (K.portLinkState p) = 7)) (fun s => s.emit (.wakePattern p))
  match s.get (K.portLinkState p) with
  | 5 => (s.set (K.portLinkState p) 3).modPort p (fun pt => { pt with hunting := some s.now })
  | 6 => (drive.set (K.portLinkState p) 4).modPort p (fun pt => { pt with recovery := 1 })
  | 7 => if k ≤ 2 then s else if k = 3 then startRetrain p 7 drive else startLinkReset p 11 false false drive
  | _ => s

/-- Last word pair of the wake image (R361, R455): where exit from S5 reads it. -/
def readWakeImage (s : State) : State :=
  cfPush 1 1 (2048 * 3216 + (SMap.getD s.nv.areaNext 3216 2 - 2)) 2 0 [] .wakeRead s

/-- Leaves a power state below S0 for a wake source (R359): 1 link, 2 sideband, 3 peer or EQX_N, 4 save timer, 5 Vigil; `by_` is the port through
which the wake came, 3 for none. The links come back as R312 states and VDD_CORE goes to code 9 (log entry 48); the ranks come back, from S5
once the wake image has been read (R361). -/
def exitPower (cause by_ : Nat) (s : State) : State :=
  let k := s.get K.powerState
  if k = 0 then s
  else
    let s := (s.report K.powerState 0).set K.wakeCause cause
    let s := s.when (3 ≤ k) (vidMove 9)
    let s := { s with pw := { s.pw with coreEn := true, request := none, parked := if k = 5 then s.pw.parked else parkedAfter k s.pw.parked } }
    let s := if k = 5 then readWakeImage s else ranksBack k s
    s.over [0, 1, 2] (fun s p => portBack k p (decide (by_ = p)) s)

/-- A condition of R357 that no longer holds ends the power state, with no wake source of R359 (R341, R357; log entry 165): `held` says whether
they all hold. -/
def holdPower (held : Bool) (s : State) : State := if s.get K.powerState ≠ 0 ∧ !held then exitPower (s.get K.wakeCause) 3 s else s

/-! ## Received flits (R292 to R300) -/

/-- Flits unacknowledged up to and including a Seq are released; the count of replays without progress restarts (R300). -/
def releaseFlits (p ackSeq : Nat) (s : State) : State :=
  let pt := s.port p
  let keep := pt.replay.filter (fun f => decide (2048 ≤ (ackSeq + 4096 - f.seq) % 4096))
  s.modPort p (fun pt => { pt with replay := keep, replays := if keep.length < pt.replay.length then 0 else pt.replays })

/-- Replays every flit of the replay buffer in Seq order; after four replays without progress a fast retrain starts (R300). -/
def replayAll (p : Nat) (s : State) : State :=
  let pt := s.port p
  if pt.replay = [] ∨ s.mode = 5 then s
  else
    let fs := pt.replay.map (fun f => { f with sentAt := s.now })
    let s := s.modPort p (fun pt => { pt with replay := fs, replays := pt.replays + 1 })
    let s := (s.add (K.portFlitsReplayed p) fs.length).add (K.portFlitsSent p) fs.length
    let s := { s with out := s.out ++ fs.map (sentFlit p pt) }
    s.when (decide (4 ≤ pt.replays + 1)) (startRetrain p 4)

/-- A flit that fails its CRC: discarded, counted, a NAK due; more than CrcRetrainLimit in 1 ms start a fast retrain (R296, R298, R301). -/
def crcError (p : Nat) (s : State) : State :=
  let times := (s.port p).crcTimes.filter (fun t => s.now < t + 1000) ++ [s.now]
  let s := nakDue p ((s.inc (K.portCrcErrors p)).modPort p (fun pt => { pt with crcTimes := times }))
  s.when (decide (s.get (K.portCrcRetrainLimit p) < times.length)) (startRetrain p 3)

/-- Pepper forces the CRC of one flit in CrcForceInterval, and of the CrcBurst − 1 flits after it, to fail (R487). -/
def forceCrc (p : Nat) (s : State) : Bool × State :=
  let pt := s.port p
  let k := s.get K.crcForceInterval
  if s.flag K.pepperEnable ∧ s.get K.linkPort = p ∧ k ≠ 0 then
    if pt.crcBurst ≠ 0 then (true, (s.modPort p (fun pt => { pt with crcBurst := pt.crcBurst - 1 })).inc K.crcForced)
    else if k ≤ pt.crcSince + 1 then
      (true, (s.modPort p (fun pt => { pt with crcSince := 0, crcBurst := s.get K.crcBurst - 1 })).inc K.crcForced)
    else (false, s.modPort p (fun pt => { pt with crcSince := pt.crcSince + 1 }))
  else (false, s)

/-- Acknowledgement and credits of a good flit (R292, R300, R309). -/
def takeControl (p : Nat) (ctl : FlitCtl) (s : State) : State :=
  let s := if ctlAckKind ctl = 1 then releaseFlits p (ctlAckSeq ctl) s
    else if ctlAckKind ctl = 2 then replayAll p (releaseFlits p (ctlAckSeq ctl) (s.inc (K.portNaksReceived p)))
    else s
  s.modPort p (fun pt =>
    { pt with partnerP := pt.partnerP + (ctlCreditP ctl + 4096 - pt.partnerP % 4096) % 4096,
              partnerN := pt.partnerN + (ctlCreditN ctl + 4096 - pt.partnerN % 4096) % 4096 })

/-- The receiver of a port is locked. -/
def State.portLocked (s : State) (p : Nat) : Bool := s.get (K.portLinkState p) = 2

/-- Receives a flit: its sync header (R291, R296), its CRC (R294), its control fields, its Seq by the table of R298, and then what its kind
does: `act` for a flit of the kind named. One of a rsvd kind that passes its CRC is discarded and counted (R293). -/
def rxFlit (p : Nat) (ctl : FlitCtl) (body : BitVec 1920) (kind : Nat) (act : State → State) (s : State) : State :=
  -- A flit on a link in standby wakes the buffer from S1; the receiver has lost no boundary but locks anew, and discards it (R295, R312, R359).
  if s.get (K.portLinkState p) = 5 then exitPower 1 0 s
  else if !s.portLocked p then s
  else if 1 < syncDiffs ctl.sync then realign p s
  else
    let s := s.add (K.portSyncSymbolErrors p) (syncDiffs ctl.sync)
    let (forced, s) := forceCrc p s
    if !ctlCrcGood ctl body || forced then crcError p s
    else if 4 ≤ ctlKind ctl then (s.inc (K.portFlitsReceived p)).inc (K.portMalformedPackets p)
    else
      let s := takeControl p ctl (s.inc (K.portFlitsReceived p))
      let e := (s.port p).rxSeq
      let act := fun (s : State) => if ctlKind ctl = kind then act s else s
      let s :=
        if ctlKind ctl = 1 then
          if ctlSeq ctl = e then
            if s.mode = 5 then s
            else
              let s := s.modPort p (fun pt => { pt with rxSeq := (e + 1) % 4096, nakAt := none, unreported := pt.unreported + 1 })
              -- Work arrives: a power request that is held is cancelled (R358).
              act { s with pw := { s.pw with request := none } }
          else if 2048 ≤ (ctlSeq ctl + 4096 - e) % 4096 then sendAck p (s.inc (K.portDuplicatesDropped p))
          else nakDue p s
        else act (if ctlSeq ctl = e then s else nakDue p s)
      postHeld (pump p s)

/-- Type, ByteCount and data beats of a header beat (R304); a MemReadReq is a header only. -/
def beatHeader (b : Beat) : Nat × Nat :=
  let d := b.toNat % 2 ^ 40
  let t := d / 2 ^ 35
  (t, if t = 2 then 0 else (d % 8192 + 39) / 40)

/-- Takes one beat of the packet stream of a port: a data beat of the packet being received, a null beat, or a header; packets of
other types or in the wrong direction are discarded whole and counted (R304, R305). Released beats are reported as credit. -/
def takeBeat (p : Nat) (b : Beat) (s : State) : State :=
  let pt := s.port p
  if pt.rxLeft ≠ 0 then
    s.modPort p (fun pt =>
      { pt with rxLeft := pt.rxLeft - 1, releasedP := (pt.releasedP + (if pt.rxP then 1 else 0)) % 4096,
                releasedN := (pt.releasedN + (if pt.rxN then 1 else 0)) % 4096 })
  else
    let (t, n) := beatHeader b
    if t = 0 then s
    else
      -- A Control packet with a rsvd subtype is discarded as well (R420).
      let sub := b.toNat / 2 ^ 192 % 256
      let good := if p = 0 then 1 ≤ t && t ≤ 4 else 16 ≤ t && t ≤ 21 && (decide (t ≠ 0x13) || (1 ≤ sub && sub ≤ 13))
      -- On the peer ports MgmtRequest alone is an N type and MgmtResponse alone a C type (R420).
      let isP := if p = 0 then decide (t = 1) else decide (t ≠ 16) && decide (t ≠ 17)
      let isN := if p = 0 then t = 2 || t = 4 else decide (t = 16)
      let s := s.when (!good) (fun s => s.inc (K.portMalformedPackets p))
      s.modPort p (fun pt =>
        { pt with rxLeft := n, rxBad := !good, rxRead := if t = 3 ∧ good then some (b.toNat / 2 ^ 20 % 8192) else none, rxP := isP, rxN := isN, releasedP := (pt.releasedP + (if isP then 1 else 0)) % 4096,
                  releasedN := (pt.releasedN + (if isN then 1 else 0)) % 4096 })

/-- The fabric stage of a port finds bad parity on a beat received: IntegrityError, and the host read whose data it carries is as one that came poisoned
(R12, R294, R308). -/
def beatParity (p : Nat) (s : State) : State :=
  match (s.port p).rxRead.bind (fun t => s.wr.hostReads.find? (fun r => r.tag = t)) with
  | some r => if p = 0 then hostReadBad r s else integrityError 7 (96 + p) s
  | none => integrityError 7 (96 + p) (s.modPort p (fun pt => { pt with rxBad := true }))

/-- PAYLOAD_FLIT (R298): an in-order payload flit passes its six beats to the transaction layer, whose packets arrive as commands of
their own; sixteen of them are acknowledged at once (R299). A beat that the next stage finds with bad parity stops what carries it (R12). -/
def execPayloadFlit (port : Fin 3) (ctl : FlitCtl) (beats : FlitBeats) (s : State) : Res :=
  .next (rxFlit port ctl (beatsPayload beats.slots) 1 (fun s =>
    let s := s.over (beats.slots.zip (List.range 6)) (fun s b =>
      (takeBeat port b.1 s).when (beats.parityBad.any (fun k => decide (k.val = b.2))) (beatParity port))
    s.when (decide (16 ≤ (s.port port).unreported)) (sendAck port)) s)

/-- IDLE_FLIT (R298): an Idle flit has control fields only; one of a rsvd kind is discarded and counted, and of a Power flit with a rsvd code the
code is discarded (R293, R313). -/
def execIdleFlit (port : Fin 3) (flit : IdleFlit) (s : State) : Res := .next (rxFlit port flit.ctl flit.payload 0 id s)

/-- A training failed at a step: LinkDown is raised, and the training of the Urvan link is retried (R301); a peer port stays down (R315). -/
def trainingFails (p step : Nat) (s : State) : State :=
  let s := (s.set (K.portLinkState p) 0).set (K.portWidth p) 0
  occur 1201 (p + 4 * step) (s.modPort p (fun pt => { pt with recovery := 0, retry := decide (p = 0), equalised := false }))

/-- The host controller advertises fewer than 256 P or 64 N beats (R309). -/
def creditsSmall (p creditP creditN : Nat) : Bool := decide (p = 0) && (decide (creditP < 256) || decide (creditN < 64))

/-- Step 7 fails for too small an advertisement: a full training fails, and the steps of a fast retrain start a link reset (R286, R301, R309). -/
def paramTooSmall (p : Nat) (s : State) : State :=
  if (s.port p).recovery = 2 ∧ (s.port p).fullTraining then trainingFails p 7 s
  else if (s.port p).recovery = 0 then s
  else startLinkReset p 8 true false s

/-- The Param flit that a port sends in step 7: 2,048 P and 512 N beats on the Urvan link, 512 and 128 on a peer port; Reset = 1 in a link reset and in
the training of Bringup (R293, R309, R420). -/
def sendParam (p : Nat) (reset : Bool) (s : State) : State :=
  sendControlFlit p (paramFlit p (if p = 0 then 2048 else 512) (if p = 0 then 512 else 128) reset (s.get (K.portWidth p))) s

/-- PARAM_FLIT (R293): the partner's credits; Reset = 1 outside a training with Reset starts a link reset (R301). -/
def execParamFlit (port : Fin 3) (ctl : FlitCtl) (creditP creditN : BitVec 12) (role : BitVec 2) (reset : Bool) (width : BitVec 5)
    (s : State) : Res :=
  .next (
    let take := fun (s : State) =>
      let s := (s.set (K.portPartnerCreditP port) creditP.toNat).set (K.portPartnerCreditN port) creditN.toNat
      s.modPort port (fun pt => { pt with paramSeen := true })
    let st := s.get (K.portLinkState port)
    let body := paramPayload creditP creditN role reset width
    let rsvd := decide (role = 2) || decide (role = 3) || (decide (width ≠ 16) && decide (width ≠ 8) && decide (width ≠ 4))
    if st = 1 ∨ st = 4 then
      (if 1 < syncDiffs ctl.sync then s
      else
        let s := s.add (K.portSyncSymbolErrors port) (syncDiffs ctl.sync)
        if !ctlCrcGood ctl body then s.inc (K.portCrcErrors port)
        else
          let s := s.inc (K.portFlitsReceived port)
          if rsvd then s
          else if st = 4 ∧ reset then startLinkReset port 9 true true s
          else if creditsSmall port creditP.toNat creditN.toNat then paramTooSmall port s
          else take s)
    else rxFlit port ctl body 2 (fun s => if rsvd then s else if reset then startLinkReset port 9 true true s else take s) s)

/-! ## Lock (R295, R296) -/

/-- MISSED_HEADER (R296). -/
def execMissedHeader (port : Fin 3) (s : State) : Res := .next (realign port s)

/-- FLIT_LOCK (R295): lock is declared; a realign, or the lock on exit from S1, ends with all sequence and credit state kept, and the differing
symbols of the four headers, at most one each, are counted, in a training too (R286, R291, R312). -/
def execFlitLock (lock : LockFlits) (s : State) : Res :=
  let port := lock.port
  .next (
    let st := s.get (K.portLinkState port)
    let s := s.when (decide (st = 1) || decide (st = 3) || decide (st = 4)) (fun s => s.add (K.portSyncSymbolErrors port) lock.syncErrors)
    if st = 3 then postHeld (pump port ((s.set (K.portLinkState port) 2).modPort port (fun pt => { pt with hunting := none }))) else s)

/-- LOCK_TIMEOUT (R301): no lock 1 µs after a realign. -/
def execLockTimeout (port : Fin 3) (s : State) : Res :=
  .next (if s.get (K.portLinkState port) = 3 then startRetrain port 2 s else s)

/-- ACK_DUE (R299): 50 ns have passed since the oldest in-order flit not yet reported. -/
def execAckDue (port : Fin 3) (s : State) : Res :=
  .next (if (s.port port).unreported ≠ 0 ∧ s.portRuns port then sendAck port s else s)

/-- REPLAY_TIMEOUT (R300). -/
def execReplayTimeout (port : Fin 3) (s : State) : Res := .next (if s.portRuns port then replayAll port s else s)

/-! ## Training (R286 to R289) -/

/-- The receive order: reversed when more lanes match it than straight order (R287). -/
def laneReversed (k : Nat) (lanes : List LaneResult) : Bool :=
  let hits := fun (f : Nat → Nat) => ((lanes.zip (List.range k)).filter (fun e => match e.1.number with | some n => n.val = f e.2 | none => false)).length
  decide (hits (fun i => i) < hits (fun i => k - 1 - i))

/-- Figures of a receive lane: with the settings trained, or with the stored set. The eye monitor's offset steps by 2 mV (R320). -/
def laneEye (storedFigures : Bool) (l : LaneResult) : EyeFigures := laneFigures 2 (if storedFigures then l.storedSweep else l.sweep)

/-- A lane passes step 5 (R288). -/
def lanePasses (e : EyeFigures) : Bool := decide (123 ≤ e.width) && decide (10 ≤ e.height) && decide (1200 ≤ e.ber)

/-- Failed lanes of a training by logical lane with the reason of LaneFault: 1 no training frame, 2 order, 3 eye (R287, R288, R316); the
figures judged are those of the settings trained, or of the stored set. -/
def failedLanes (k : Nat) (lanes : List LaneResult) (storedFigures : Bool) : List (Nat × Nat) :=
  let rev := laneReversed k lanes
  (lanes.zip (List.range k)).filterMap (fun e =>
    let logical := if rev then k - 1 - e.2 else e.2
    let l := e.1
    match l.number with
    | none => some (logical, 1)
    | some n =>
      if n.val ≠ logical then some (logical, 2)
      else if !lanePasses (laneEye storedFigures l) then some (logical, 3) else none)

/-- Width with a set of failed logical lanes, none when the training fails (R289). -/
def chooseWidth (k : Nat) (failed : List Nat) : Option Nat :=
  if failed = [] then some k
  else if k = 16 ∧ (failed.all (fun l => decide (l < 8)) || failed.all (fun l => decide (8 ≤ l))) then some 8
  else none

/-- Lanes of a receiver by logical lane in step 3: those without a training frame and those out of order, with the reason of LaneFault (R287, R316). -/
def orderFailed (k : Nat) (lanes : List LaneResult) : List (Nat × Nat) := (failedLanes k lanes false).filter (fun e => e.2 ≠ 3)

/-- Reports failed lanes: FailedLanes and LaneFault (R316, R317). -/
def reportFailed (p : Nat) (all news : List (Nat × Nat)) (s : State) : State :=
  (s.set (K.portFailedLanes p) ((all.map (fun e => 2 ^ e.1)).sum)).over news (fun s e => occur 1202 (p + 4 * e.1 + 64 * e.2) s)

/-- Step 3: polarity, order and the lanes that fail them (R287, R317). -/
def reportOrder (p k : Nat) (lanes : List LaneResult) (s : State) : State :=
  let map := ((lanes.zip (List.range k)).map (fun e => if e.1.inverted then 2 ^ e.2 else 0)).sum + (if laneReversed k lanes then 65536 else 0)
  reportFailed p (orderFailed k lanes) (orderFailed k lanes) (s.set (K.portLaneMap p) map)

/-- Step 5: the figures of each lane and of the lanes in use, those of the width (R288, R317). -/
def reportEyes (p k : Nat) (lanes : List LaneResult) (storedFigures : Bool) (failed : List (Nat × Nat)) (width : Nat) (s : State) : State :=
  let rev := laneReversed k lanes
  let eyes := lanes.map (laneEye storedFigures)
  let at_ := fun (j : Nat) => eyes[if rev then k - 1 - j else j]?
  let use := if width = k then List.range k
    else if failed.all (fun e => decide (e.1 < 8)) then (List.range 8).map (fun j => j + 8) else List.range 8
  let low := fun (f : EyeFigures → Nat) => ((use.filterMap at_).map f).foldl min 1048575
  let s := s.over (List.range k) (fun s j => match at_ j with
    | some e => ((s.set (K.portLaneEyeWidth p j) e.width).set (K.portLaneEyeHeight p j) e.height).set (K.portLaneResidualBer p j) e.ber
    | none => s)
  let s := ((s.set (K.portEyeWidth p) (low (fun e => e.width))).set (K.portEyeHeight p) (low (fun e => e.height))).set
    (K.portResidualBer p) (low (fun e => e.ber))
  reportFailed p failed (failed.filter (fun e => e.2 = 3)) s

/-- Steps 6 to 8 of a full training whose lanes have passed step 5 (R286): deskew, lock and Param flits, and LinkUp. -/
def endTraining (p w src : Nat) (keep : Option CalSet) (r : PortResult) (s : State) : State :=
  if r.stuckStep.any (fun n => n.val = 6) then trainingFails p 6 s
  else
    let s := sendParam p true (s.set (K.portWidth p) w)
    let s := (s.set (K.portPartnerCreditP p) r.creditP.toNat).set (K.portPartnerCreditN p) r.creditN.toNat
    if r.stuckStep.isSome || creditsSmall p r.creditP.toNat r.creditN.toNat then trainingFails p 7 s
    else
      let s := match keep with | some c => calStore (120 + p) c s | none => s
      let s := s.modPort p (fun pt => { pt with equalised := true })
      occur 1200 (p + 4 * w + (if src = 2 then 128 else 0)) (linkUp p s)

/-- Steps 4 and 5 of a full training (R286, R288, R289, R322, R323), and what follows them. -/
def trainLanes (p : Nat) (r : PortResult) (s : State) : State :=
  let i := 120 + p
  let k := portLanes p
  let stored := SMap.find? s.cal.formed i
  let base := SMap.getD s.cal.applied i (List.replicate (18 * k) 0)
  match (if r.stuckStep.any (fun n => n.val = 4) then none
    else calStep (fun _ => 1) (List.range (18 * k)) (r.runs.map (fun l => l.map TapEyes.best)) stored base) with
  | none => trainingFails p 4 (s.set (K.portCalSource p) 0)
  | some (ps, fell) =>
    let f1 := failedLanes k r.lanes false
    let f2 := failedLanes k r.lanes true
    let all := List.range (18 * k)
    if r.stuckStep.any (fun n => n.val = 5) then trainingFails p 5 (calApply i ps (if fell then all else []) (s.set (K.portCalSource p) 0))
    else
      -- When the lanes fail their eye with the settings trained, the whole stored set is tried once (R323).
      let whole := !fell && f1.any (fun e => e.2 = 3) && stored.isSome
      let ps := if whole then (match stored with | some c => c.params | none => ps) else ps
      let failed := if whole then f2 else f1
      let s := calApply i ps (if fell || whole then all else []) s
      match chooseWidth k (failed.map (fun e => e.1)) with
      | none => trainingFails p 5 ((reportEyes p k r.lanes whole failed 0 s).set (K.portCalSource p) 0)
      | some w =>
        let src := if fell || whole then 2 else 1
        let s := (reportEyes p k r.lanes whole failed w s).set (K.portCalSource p) src
        let kept : CalSet := { temp := s.calTemp i, eyeWidth := s.get (K.portEyeWidth p), eyeHeight := s.get (K.portEyeHeight p),
                               ber := s.get (K.portResidualBer p), params := ps }
        endTraining p w src (if src = 1 then some kept else none) r s

/-- Ends a full training with a result (R286 to R289): what a step that did not complete leaves undone is only what comes after it. -/
def fullTraining (p : Nat) (r : PortResult) (s : State) : State :=
  match r.stuckStep with
  | some n =>
    if !r.signal ∨ n.val ≤ 1 then trainingFails p 1 s
    else if n.val ≤ 3 then trainingFails p n s
    else trainLanes p r (reportOrder p (portLanes p) r.lanes s)
  | none => if !r.signal then trainingFails p 1 s else trainLanes p r (reportOrder p (portLanes p) r.lanes s)

/-- The steps 2, 6 and 7 of a fast retrain complete (R301): a signal comes, and the partner's advertisement is large enough (R309). -/
def quickPasses (p : Nat) (r : PortResult) : Bool :=
  r.signal && !r.stuckStep.any (fun n => n.val = 2 || n.val = 6 || n.val = 7) && !creditsSmall p r.creditP.toNat r.creditN.toNat

/-- PORT_TRAINING (R286, R301): the training of a port ends: a full one, in Bringup or in a link reset, or the steps 2, 6 and 7 of a fast
retrain, whose failure starts a link reset. In Vigil the training was abandoned (R337). -/
def execPortTraining (port : Fin 3) (r : PortResult) (s : State) : Res :=
  .next (
    let p : Nat := port
    let pt := s.port p
    let partner := fun (s : State) => (s.set (K.portPartnerCreditP p) r.creditP.toNat).set (K.portPartnerCreditN p) r.creditN.toNat
    if pt.recovery = 0 ∨ s.mode = 5 then s
    else if pt.recovery = 2 ∧ pt.fullTraining then fullTraining p r s
    else if !quickPasses p r then startLinkReset p 8 true false s
    else if pt.recovery = 1 then linkUp p (sendParam p false s)
    else linkUp p (sendParam p true (partner s)))

/-- LINK_TRAIN_RETRY (R301): the full training of the Urvan link that failed is started again; that of a peer port is not (R315). -/
def execLinkTrainRetry (port : Fin 3) (s : State) : Res :=
  .next (if (s.port port).retry ∧ s.get (K.portLinkState port) = 0 ∧ 1 ≤ s.mode ∧ s.mode ≤ 4 then
    ((calStart (120 + port) s).set (K.portLinkState port) 1).modPort port (fun pt => { pt with recovery := 2, fullTraining := true, retry := false })
    else s)

/-- Effects of writes of 1 to Retrain, FullTrain, LinkReset and ForceRealign of a port (R301, R317, R487). -/
def retrainEffect (p : Nat) (s : State) : State :=
  if s.get (K.portLinkState p) = 2 ∨ s.get (K.portLinkState p) = 3 then startRetrain p 6 s else s
def fullTrainEffect (p : Nat) (s : State) : State := startLinkReset p 10 true false s
def linkResetEffect (p : Nat) (s : State) : State := startLinkReset p 10 true false s
def forceRealignEffect (s : State) : State := realign (s.get K.linkPort) s

/-- Figures of a port: the lowest over the lanes in use (R317). -/
def portFigures (p : Nat) (s : State) : State :=
  let failed := s.get (K.portFailedLanes p)
  let use := (List.range (portLanes p)).filter (fun k =>
    decide (s.get (K.portWidth p) = portLanes p) || (if failed % 256 ≠ 0 then decide (8 ≤ k) else decide (k < 8)))
  let low := fun (f : Nat → Nat) => (use.map (fun k => s.get (f k))).foldl min 1048575
  ((s.set (K.portEyeWidth p) (low (K.portLaneEyeWidth p))).set (K.portEyeHeight p) (low (K.portLaneEyeHeight p))).set (K.portResidualBer p)
    (low (K.portLaneResidualBer p))

/-- SERVICE_ADAPTATION (R301): service adaptation finds a lane below the limits of R288, which starts a fast retrain, or with EyeWidth
below 164, which raises LinkMargin. -/
def execServiceAdaptation (port : Fin 3) (lane : Fin 16) (eyeWidth eyeHeight ber : Word) (s : State) : Res :=
  .next (
    let p : Nat := port
    if s.get (K.portLinkState p) ≠ 2 ∨ portLanes p ≤ lane.val then s
    else
      let s := ((s.set (K.portLaneEyeWidth p lane) eyeWidth.toNat).set (K.portLaneEyeHeight p lane) eyeHeight.toNat).set
        (K.portLaneResidualBer p lane) ber.toNat
      let s := portFigures p s
      let s := s.when (decide (eyeWidth.toNat < 164)) (occur 1204 (p + 4 * lane + 256 * (eyeWidth.toNat % 1024)))
      s.when (decide (eyeWidth.toNat < 123) || decide (eyeHeight.toNat < 10) || decide (ber.toNat < 1200))
        (fun s => startRetrain p 5 (occur 1202 (p + 4 * lane + 192) s)))

end Sys2Proof.Machine
end

