-- ==== Sys2Proof/Machine/Vigil.lean ====
section
/-! DEFINITION. Vigil.lean: entry to Vigil (R372, R374, R376, R386) and its end. -/

namespace Sys2Proof.Machine

/-! ## Step 3 of R374 -/

/-- A member program whose data-in has not begun does not start: its units are staged again, under Stage records (DEDUCED, log entry 42). -/
def cancelProgram (p : MemberProg) (s : State) : State :=
  s.over p.pages (fun s pg =>
    match pg.sunit, pg.staged, pg.shadow with
    | some u, some k, some j =>
      let s := s.modWr (fun w => { w with shadows := SMap.erase w.shadows j })
      let back := fun (u : SUnit) (s : State) =>
        (s.modWr (fun w => { w with slots := SMap.insert w.slots k u })).modSet u.set (fun t => { t with queue := t.queue ++ [k] })
      if u.source.isSome then back u s
      else if s.entry u.set u.lui = shadowLoc j then
        let seq := s.get K.journalSequence
        let s := appendJournal { kind := .stage, set := u.set, lui := u.lui, tag := 0, loc := stagedLoc k, count := 0, first := 0 } s
        back { u with ticket := seq } (setEntry u.set u.lui (stagedLoc k) s)
      else freeSlot k s
    | _, _, _ => s)

/-- Place of page t of a program that a dump die A resets: SLC pages 6 to 9 of that die (R374 step 6). -/
def State.resetPlace (s : State) (c t : Nat) : Option Nat :=
  if s.dumpChannels.contains c then some (s.dumpPma c 0 (t % 4) (6 + t / 4)) else none

/-- A program in flight, as the lists name it (R380). -/
def vprogOf (s : State) (c d : Nat) (j : DieJob) (result : Nat) : Option VProg :=
  match j with
  | .member p =>
    some { channel := c, die := d, planes := 15, block := if s.density = 2 then 2 * p.block + p.wl / 512 else p.block, wl := p.wl % 512,
           slc := false, result := result }
  | .slc j => some { channel := c, die := d, planes := 2 ^ j.plane, block := j.block, wl := j.page, slc := true, result := result }
  | .rawProg _ _ pma _ =>
    some { channel := c, die := d, planes := 2 ^ pmaPlane pma, block := pmaBlock pma, wl := pmaPage pma / 4, slc := false, result := result }
  | _ => none

/-- Resets the operation of a die: what it leaves is undefined, and the units of a member program are taken from their shadows. -/
def vigilReset (c d : Nat) (j : DieJob) (s : State) : State :=
  let s := s.modVigil (fun v => { v with inflight := v.inflight ++ (vprogOf s c d j 2).toList })
  let s := match j with
    | .member p =>
      let units := (p.pages.zip (List.range 16)).filterMap (fun e => e.1.sunit.bind (fun u =>
        if u.source.isNone then some (u, s.resetPlace c e.2) else none))
      s.modVigil (fun v => { v with extra := v.extra ++ units })
    | _ => s
  let s := cutJob c d j s
  (s.modDie c d (fun x => { x with cur := some (.reset 3), inArray := true })).emit (.dieCommand c d 0xFA 0)

/-- Step 3 on one die: array reads end by themselves, erases and the programs of dump die A are reset, other programs that have begun run
on, and nothing else starts. -/
def vigilDie (c d : Nat) (keepA : Bool) (s : State) : State :=
  let x := s.die c d
  let isA := !keepA && ((SMap.getD s.nv.dumpDies c []).head?.map (fun e => e.1)) = some d
  let s := s.over x.progs (fun s e => match e.1 with | .member p => cancelProgram p s | _ => s)
  let s := s.modDie c d (fun x => { x with reads := [], progs := [], forced := false })
  let drop := fun (s : State) => s.modDie c d (fun x => { x with cur := none })
  let run := fun (j : DieJob) (s : State) => s.modVigil (fun v => { v with inflight := v.inflight ++ (vprogOf s c d j 3).toList })
  match x.cur with
  | none => s
  | some (.read ids) => if x.inArray then s.modDie c d (fun x => { x with cur := some (.read ids) }) else drop s
  | some (.reset _) => s
  | some (.gone _ _) => s
  | some (.erase e) => vigilReset c d (.erase e) s
  | some (.member p) =>
    if !x.inArray && p.burst = 0 then cancelProgram p (drop s)
    else if isA then vigilReset c d (.member p) s else run (.member p) s
  | some (.slc j) => if !x.inArray && !j.burst then drop s else if isA then vigilReset c d (.slc j) s else run (.slc j) s
  | some (.rawProg r t pma image) =>
    if !x.inArray then drop s else if isA then vigilReset c d (.rawProg r t pma image) s else run (.rawProg r t pma image) s

/-! ## Entry -/

/-- Below S0 the flash PHYs and the core come back as on exit, and the ranks return to service unless their rail failed (R355, R376). -/
def wakeCore (k : Nat) (railLost : Bool) (s : State) : State :=
  { s with pw := { s.pw with coreEn := true } }.when (!railLost) (ranksBack k)

/-- An attempt on TEST that is being verified as Vigil begins goes on, and may unlock TEST in Vigil (R41, R43; DESIGN CHOICE, log entry 174).
Steps 1 to 3 of R374: trigger 1 supply, 2 rail fault, 3 thermal trip; `keepA` when the DRAM rail failed, so that no die A is reset
(R386). Below S0 the buffer enters Vigil from that state (R376). -/
def enterVigil (trigger : Nat) (keepA : Bool) (s : State) : State :=
  if !s.serving then s
  else
    let fromState := s.get K.powerState
    let s := s.when (fromState ≠ 0) (fun s => (s.report K.powerState 0).set K.wakeCause 5)
    let s := (s.when (fromState ≠ 0) (wakeCore fromState keepA))
    let s := (changeMode 5 s).inc K.vigilCount
    let s := s.over [Path.urvan, Path.sb0, Path.sb1, Path.peer] (fun s p => s.when (s.pathState p).test (loseTest p))
    let s := s.over [0, 1, 2] (fun s p => s.when (s.get (K.portLinkState p) = 2) (sendControlFlit p (powerFlit p 7)))
    -- A training that runs is abandoned (R337).
    let s := s.over [0, 1, 2] (fun s p => s.modPort p (fun pt => { pt with recovery := 0, fullTraining := false, retry := false }))
    let s := (vidMove 9 s).set K.eqxDriving 0
    let s := s.modRings (fun r => { r with stopped := true, aborts := [], migrations := [] })
    let s := s.modEv (fun e => { e with wedged := [], fenced := [] })
    -- Every perturbation stops but VigilCutStep (R485).
    let s := pepperDefaults (pepperKeys.filter (fun k => k ≠ K.vigilCutStep)) s
    -- Only the requests of the Vigil sequencer are served: of those that wait, the shadow writes of data-in, which runs to its end (R270, R374).
    let shadow := fun (src : DramSrc) => match src with | .shadow _ _ => true | _ => false
    let s := s.modDram (fun x => { x with helper := none, helperVref := [], fetches := [],
                                          subs := x.subs.map (fun e => (e.1, { e.2 with queue := e.2.queue.filter (fun r => shadow r.src),
                                                                                        held := e.2.held.filter (fun r => shadow r.src) })) })
    -- Retained writes that are not yet durable are discarded (R46).
    let retained := fun (d : CfDesc) => match d.purpose with | .retained _ _ _ => true | _ => false
    let s := s.modCf (fun c =>
      { c with stopping := c.cur.isSome, queue := c.queue.filter (fun d => !retained d),
               cur := c.cur.map (fun d => if retained d then { d with purpose := .areaErase } else d) })
    -- Volatile state of what was put in force stays; step 2 and the entry itself.
    let v : Vigil :=
      { trigger := trigger, fromState := fromState, startedAt := s.now, d0 := s.get K.journalDurable, s1 := none, inflight := [], extra := [],
        outcomeBuilt := false, failSeq := 0, nextSeq := 0, ordinal := 0, queued := 0, usedA := 0, usedExtra := 0 }
    let s := { s with pw := { s.pw with charger := false, test := false, request := none, dramRail := keepA, vigil := some v } }
    let s := queueMark 0 (s.modNv (fun n => { n with dump := n.dump.map (fun d => ({ units := d.units, dies := d.dies } : Dump)) }))
    -- Step 5: checkpoints of every walk, but for S3 and below (R376), and CalendsNow, behind the marks.
    let s := s.when (decide (fromState ≤ 2)) (fun s => s.over s.wr.sets (fun s e => match e.2.walk.or e.2.paused with
      | some w => checkpoint e.1 w s
      | none => s))
    let (i, s) := s.free
    let s := cfAppend .history 1 [BitVec.ofNat 20 (Config.freeNat i), 0] (.save .calends) s
    -- Step 3.
    let s := s.over s.fl.dies (fun s e => vigilDie (e.1 / 16) (e.1 % 16) keepA s)
    let back := s.wr.returning.filterMap (fun e => match e.2 with
      | some j => if e.1.source.isNone && s.entry e.1.set e.1.lui = shadowLoc j then some (e.1, none) else none
      | none => none)
    let s := s.modVigil (fun v => { v with extra := v.extra ++ back })
    let s := s.modWr (fun w => { w with returning := [], heldMoves := [], waitingUnits := [], admission := [], gathers := [], hostReads := [] })
    let s := s.modFl (fun f => { f with reads := [], softQ := [], recon := [] })
    let s := s.over s.fl.chans (fun s e => (noteMisframed e.1 (e.2.xfers.filter (fun x => x.read.isSome)) s).modChan e.1 (fun ch =>
      { ch with hardQ := [], aborting := false, training := none, xfers := ch.xfers.filter (fun x =>
          x.read.isNone && (s.die e.1 x.die).cur.isSome && !(s.die e.1 x.die).inArray) }))
    vigilAdvance s

/-! ## Commands -/

/-- VIN_FAIL (R372, R350): Vigil from a serving mode, Cold from Bringup. -/
def execVinFail (s : State) : Res :=
  .next (if s.serving then enterVigil 1 false s else if s.mode = 1 then enterCold 7 false s else s)

/-- A write of 1 to SupplyLoss (R487). -/
def supplyLossEffect (s : State) : State := enterVigil 1 false s

/-- VIGIL_END_MARK (R374 step 9, R483): no stage is wedged, CheckpointsSafe and StagingSafe are written; the End mark follows, and the sequence ends clean. -/
def execVigilEndMark (s : State) : Res :=
  .next (match s.pw.vigil, s.nv.vigilEntry with
    | some v, some e =>
      if s.mode = 5 ∧ s.vigilStepMet v 9 ∧ s.ev.wedged = [] ∧ !s.pw.supplyLow then
        let s := cfPut (e.addr + 13) (cfEncode 0) s
        vigilOver true (s.modNv (fun n => { n with vigilEntry := some { e with marks := e.marks ++ [5] } }))
      else s
    | _, _ => s)

/-- VIGIL_TIMEOUT (R372): 6 ms after entry the sequence ends without its End mark: a hold-up fault. -/
def execVigilTimeout (s : State) : Res := .next (if s.mode = 5 then vigilOver false s else s)

end Sys2Proof.Machine
end

