-- ==== Sys2Proof/Machine/CodeFlash.lean ====
section
/-! DEFINITION. CodeFlash.lean: the warden's use of code flash (R445 to R471): retained objects and their compaction, firmware images and
their update, the operation queue's completions, the mailbox, the warden dump, and the one-time-programmable row. -/

namespace Sys2Proof.Machine

/-! ## Bytes and digests (R42) -/

/-- Words packed into bytes from the least significant end (R6). -/
def wordBytes (n : Nat) (ws : List Word) : List Byte := natBytes n (wordsNat ws)

/-- A SHA-384 digest as 20 words, the last with [19:4] zero (R458). -/
def digestWords (msg : List Byte) : List Word := natWords 20 (bytesNat (Config.sha384 msg))

/-! ## The one-time-programmable row (R468, R469) -/

/-- Words of the row as they read. -/
def State.otpWords (s : State) (a n : Nat) : List Word := (List.range n).map (fun i => cfRead (s.otpRaw (a + i)))

/-- A customer key hash slot is erased, or in force. -/
def State.keyErased (s : State) (k : Nat) : Bool := (List.range 20).all (fun i => s.otpRaw (91 + 20 * k + i) = cfErased)
def State.keyInForce (s : State) (k : Nat) : Bool :=
  (List.range 20).all (fun i => (cfDecode (s.otpRaw (91 + 20 * k + i))).isSome) && !s.keyErased k

/-- Slot in force, if any: the first governs. -/
def State.customerSlot (s : State) : Option Nat := [0, 1].find? s.keyInForce

/-- CustomerKeyState (R471). -/
def State.customerKeyState (s : State) : Nat :=
  match s.customerSlot with
  | some k => k + 1
  | none => if s.keyErased 0 then 0 else 3

/-- MinSecurityVersion: marks that read 0x00000 with a valid check. -/
def State.minSecurity (s : State) : Nat := ((List.range 32).filter (fun i => cfDecode (s.otpRaw (131 + i)) = some 0)).length

/-! ## Firmware images (R458 to R460) -/

/-- Word i of slot 0 A, 1 B or 2 factory; none for CHECKFAIL. -/
def State.slotWord (s : State) (slot i : Nat) : Option Word := cfDecode (s.cfRaw (640 * 2048 * slot + i))

/-- Word i of the staged image; none where its unit is not staged (R462). -/
def State.stagedWord (s : State) (i : Nat) : Option Word := (SMap.find? s.cf.staged (i / 2048)).map (fun u => nth u (i % 2048) 0)

/-- Fields of an image header. -/
def imgWords (img : Nat → Option Word) (a n : Nat) : List Word := (List.range n).map (fun i => (img (a + i)).getD 0)
def imgNat (img : Nat → Option Word) (i : Nat) : Nat := ((img i).getD 0).toNat
def imgBodyWords (img : Nat → Option Word) : Nat := imgNat img 4 + 1048576 * imgNat img 5
def imgSecurity (img : Nat → Option Word) : Nat := imgNat img 2 % 64

/-- An image is valid but for its Commit (R459). -/
def State.imageChecks (s : State) (factory : Bool) (img : Nat → Option Word) : Bool :=
  let n := imgBodyWords img
  let body := imgWords img 256 n
  let range := fun (a b : Nat) => wordBytes ((20 * (b - a) + 7) / 8) (imgWords img a (b - a))
  decide (imgNat img 0 = 0x0F3A5) && decide (n ≤ 1310464)
    && (List.range (256 + n)).all (fun i => (img i).isSome)
    && digestWords (wordBytes 96 (imgWords img 26 39)) == s.otpWords 51 20
    && Config.ecdsaVerify (wordBytes 96 (imgWords img 26 39)) (wordBytes 96 (imgWords img 65 39)) (Config.sha384 (range 2 26))
    && digestWords (wordBytes ((20 * n + 7) / 8) body) == imgWords img 6 20
    && decide (s.minSecurity ≤ imgSecurity img)
    && (factory || match s.customerSlot with
      | none => true
      | some k => digestWords (wordBytes 96 (imgWords img 104 39)) == s.otpWords (91 + 20 * k) 20
          && Config.ecdsaVerify (wordBytes 96 (imgWords img 104 39)) (wordBytes 96 (imgWords img 143 39)) (Config.sha384 (range 2 104)))

/-- Commit of a slot is written. -/
def State.slotCommitted (s : State) (slot : Nat) : Bool := s.slotWord slot 255 = some 0

/-- A slot holds a valid image (R459). -/
def State.slotValid (s : State) (slot : Nat) : Bool := s.slotCommitted slot && s.imageChecks (slot = 2) (s.slotWord slot)

/-- Slots in the order in which the boot ROM tries them (R460). -/
def State.bootOrder (s : State) : List Nat :=
  let a := imgNat (s.slotWord 0) 1
  let b := imgNat (s.slotWord 1) 1
  let d := (b + 1048576 - a) % 1048576
  let two := if d ≠ 0 ∧ d < 524288 then [1, 0] else [0, 1]
  (two ++ [2]).filter s.slotCommitted

/-- The slot that boots, if any. -/
def State.bootSlot (s : State) : Option Nat := s.bootOrder.find? s.slotValid

/-- SlotState (R471). -/
def State.slotStates (s : State) : Nat :=
  (List.range 3).foldl (fun a k =>
    let code := if s.slotCommitted k = false then 0 else if s.slotValid k = false then 1
      else if s.get K.activeSlot = k ∧ 3 ≤ s.get K.bringupStep + (if s.serving then 11 else 0) then 3 else 2
    a + code * 4 ^ k) 0

/-- The slot that an update programs and ProtectStandby protects: the other one of A and B; A when the factory image runs (DESIGN
CHOICE, log entry 43). -/
def State.standby (s : State) : Nat := if s.get K.activeSlot = 0 then 1 else 0

/-- A sector of a slot is protected. -/
def State.slotProtected (s : State) (slot : Nat) : Bool := (List.range 640).any (fun i => SMap.getD s.cf.protect (640 * slot + i) false)

/-! ## Retained objects (R45, R456, R457) -/

/-- First sector of a half. -/
abbrev halfBase (h : Nat) : Nat := 2176 + 32 * h

/-- Words of a value of a type (R37). -/
def valueLen (r : ObjRow) : Nat := match r.ty with | .w40 => 2 | .s40 => 2 | .time40 => 2 | _ => 1

/-- Appends words to a half; a new sector is entered where they would cross. The half's sectors were erased by its compaction. -/
def halfAppend (h : Nat) (ws : List Word) (why : CfPurpose) (s : State) : State :=
  let p := SMap.getD s.nv.areaNext (halfBase h) 0
  let p := if 2048 < p % 2048 + ws.length then (p / 2048 + 1) * 2048 else p
  let s := s.modNv (fun n => { n with areaNext := SMap.insert n.areaNext (halfBase h) (p + ws.length) })
  cfPush 2 1 (2048 * halfBase h + p) ws.length 0 ws why s

/-- Words of the entry of an object (R456). -/
def entryWords (key value seq : Nat) : List Word :=
  let n := match rowOf (key / 256) (key % 256) with | some (_, r) => valueLen r | none => 1
  retainedWords 1 key (natWords n value) seq

/-- Keys of every RWP object. -/
def rwpKeys : List Nat :=
  (List.range 65536).flatMap (fun idx =>
    match rowsAt idx with
    | some (_, rows) => rows.flatMap (fun r => if r.acc = .rwp then (List.range (r.hi + 1 - r.lo)).map (fun k => key idx (r.lo + k)) else [])
    | none => [])

/-- Starts the compaction of retained objects into the other half: its sectors erased, a header with a base sequence, the current value of
every RWP object, and the header's Commit (R457). -/
def startCompaction (s : State) : State :=
  if s.cf.compacting then s
  else
    let h := 1 - s.nv.activeHalf
    let base := s.get K.retainedDurable
    let s := s.modCf (fun c => { c with compacting := true, compactBase := base })
    let s := s.modNv (fun n => { n with areaNext := SMap.insert n.areaNext (halfBase h) 6 })
    let s := s.over (List.range 32) (fun s i => cfPush 3 1 (2048 * (halfBase h + i)) 1 0 [] (.compact 0) s)
    let head := retainedWords 2 (256 * (s.nv.halfNumber + 1)) [BitVec.ofNat 20 base] base
    let s := cfPush 2 1 (2048 * halfBase h) 5 0 (head.take 5) (.compact 1) s
    let s := s.over rwpKeys (fun s k => halfAppend h (entryWords k (s.get k) base) (.compact 2) s)
    cfPush 2 1 (2048 * halfBase h + 5) 1 0 [0] (.compact 3) s

/-- The Commit of the new half is written: it is active, and the entries accepted meanwhile are appended again to it (R457). -/
def compactionDone (s : State) : State :=
  let h := 1 - s.nv.activeHalf
  let late := (s.halfEntries s.nv.activeHalf).filter (fun e => e.kind = 1 && decide (0 < seqAbove e.seq s.cf.compactBase))
  let s := s.modNv (fun n => { n with activeHalf := h, halfNumber := n.halfNumber + 1 })
  let s := s.modCf (fun c => { c with compacting := false })
  let again := late.map (fun e => (e.key, e.value, e.seq)) ++ s.cf.retainedWaiting
  s.over again (fun s e => halfAppend h (entryWords e.1 e.2.1 e.2.2) .raw s)

/-- A retained write is accepted: RetainedAccepted counts it and its entry is appended to the active half (R45, R456). -/
def retainWrite (key value : Nat) (s : State) : State :=
  let s := s.inc20 K.retainedAccepted
  let seq := s.get K.retainedAccepted
  let s := s.modCf (fun c => { c with retainedWaiting := c.retainedWaiting ++ [(key, value, seq)] })
  let s := halfAppend s.nv.activeHalf (entryWords key value seq) (.retained key value seq) s
  s.when (decide (24 * 2048 ≤ SMap.getD s.nv.areaNext (halfBase s.nv.activeHalf) 0)) startCompaction

/-! ## Update (R462) -/

/-- UpdateCommit may act: the staged image checks, the standby slot is not protected and no update runs. -/
def State.updateOk (s : State) : Bool :=
  let st := s.get K.updateState
  !(decide (1 ≤ st) && decide (st ≤ 3)) && !s.slotProtected s.standby && s.imageChecks false s.stagedWord
    && decide (s.get K.securityVersion ≤ imgSecurity s.stagedWord)

/-- Next operation of the update, at a position of a step. -/
def updateOp (step pos : Nat) (s : State) : State :=
  let base := 640 * 2048 * s.cf.updateSlot
  match step with
  | 3 => cfPush 3 3 (base + 2048 * pos) 1 0 [] (.update 3 pos) s
  | 4 =>
    -- Words 0 to 254 of the header, word 1 being the ImageSequence that the buffer sets, and the body.
    let total := 256 + imgBodyWords s.stagedWord
    let n := min (if pos < 255 then 255 - pos else 2048 - pos % 2048) (min 64 (total - pos))
    let seqWord : Word := BitVec.ofNat 20 (imgNat (s.slotWord (s.get K.activeSlot)) 1 + 1)
    let ws := (List.range n).map (fun i => if pos + i = 1 then seqWord else (s.stagedWord (pos + i)).getD 0)
    cfPush 2 3 (base + pos) n 0 ws (.update 4 pos) s
  | 5 =>
    let total := 256 + imgBodyWords s.stagedWord
    cfPush 1 3 (base + 2048 * pos) (min 2048 (total - 2048 * pos)) 0 [] (.update 5 pos) s
  | _ => cfPush 2 3 (base + 255) 1 0 [0] (.update 6 0) s

/-- A write of 1 to UpdateCommit that is in range: the check of step 2 has passed, and the standby slot is erased. -/
def updateCommitEffect (s : State) : State :=
  updateOp 3 0 ((s.set K.updateState 1).modCf (fun c => { c with updateSlot := s.standby }))

/-- An update stops (R462, R466). -/
def updateStops (s : State) : State := s.set K.updateState 5

/-- An operation of the update has ended DONE. -/
def updateAdvance (step pos : Nat) (s : State) : State :=
  let total := 256 + imgBodyWords s.stagedWord
  match step with
  | 3 => if pos < 639 then updateOp 3 (pos + 1) s else updateOp 4 0 (s.set K.updateState 2)
  | 4 =>
    let n := min (if pos < 255 then 255 - pos else 2048 - pos % 2048) (min 64 (total - pos))
    let next := if pos + n = 255 then 256 else pos + n
    if next < total then updateOp 4 next s else updateOp 5 0 (s.set K.updateState 3)
  | 5 =>
    if 2048 * (pos + 1) < total then updateOp 5 (pos + 1) s
    else if s.imageChecks false (s.slotWord s.cf.updateSlot) then updateOp 6 0 s
    else updateStops s
  | _ => s.set K.updateState 4

/-- A write of 1 to ProtectStandby (R461). -/
def protectStandbyEffect (s : State) : State := cfPush 4 1 (640 * 2048 * s.standby) 640 0 [] .raw s

/-! ## CfRead, the warden dump, and burns -/

/-- CfRead is in range (R471). -/
def State.cfReadOk (s : State) : Bool := decide (s.get K.cfReadAddress % 2048 + s.get K.cfReadCount ≤ 2048)

/-- A write of 1 to CfRead. -/
def cfReadEffect (s : State) : State :=
  cfPush 1 3 (s.get K.cfReadAddress % 8388608) (s.get K.cfReadCount) 0 [] .cfRead (s.set K.cfReadState 1)

/-- The copy that CfRead makes. -/
def cfReadDone (d : CfDesc) (s : State) : State :=
  let raw := (List.range d.count).map (fun i => s.cfRaw (d.addr + i))
  let s := s.setBlob K.cfReadData (raw.map cfRead)
  (s.set K.cfReadCheckFails (raw.filter (fun b => (cfDecode b).isNone)).length).set K.cfReadState 2

/-- A write of 1 to DumpRequest, and of 1 to DumpRelease (R467). -/
def dumpRequestEffect (s : State) : State := startDump s
def dumpReleaseEffect (s : State) : State :=
  if s.get K.dumpState = 2 then (s.set K.dumpState 0).modNv (fun v => { v with saved := SMap.erase v.saved K.dumpState }) else s

/-- The dump area's 256 sectors are erased, then a piece of each is written, in a format private to the warden (R467; log entry 44). -/
def dumpAdvance (pos : Nat) (s : State) : State :=
  if pos < 255 then cfPush 3 3 (2048 * (3232 + pos + 1)) 1 0 [] (.dump (pos + 1)) s
  else if pos < 511 then
    let ws := (List.range 64).map (fun i => BitVec.ofNat 20 (Config.freeNat (s.freeIdx + i)))
    cfPush 2 3 (2048 * (3232 + pos - 255)) 64 0 ws (.dump (pos + 1)) { s with freeIdx := s.freeIdx + 64 }
  else
    let n := (s.get K.dumpNumber + 1) % 1048576
    let s := s.modNv (fun v => { v with saved := SMap.insert (SMap.insert v.saved K.dumpNumber n) K.dumpState 2 })
    occur 1171 n ((s.set K.dumpNumber n).set K.dumpState 2)

/-- CustomerKeyBurn is in range (R469). -/
def State.keyBurnOk (s : State) : Bool :=
  [0, 1].any s.keyErased && s.customerSlot.isNone
    && digestWords (wordBytes 96 (imgWords (s.slotWord (s.get K.activeSlot)) 104 39)) == (s.blob K.customerKeyData)

/-- Burns word k of CustomerKeyData into a slot. -/
def burnKeyWord (slot k : Nat) (s : State) : State :=
  cfPush 6 2 (91 + 20 * slot + k) 1 0 [nth (s.blob K.customerKeyData) k 0] (.keyBurn slot k) s

/-- A write of 1 to CustomerKeyBurn. -/
def keyBurnEffect (s : State) : State :=
  match [0, 1].find? s.keyErased with
  | some slot => burnKeyWord slot 0 s
  | none => s

/-- RaiseSecurityVersion is in range (R469). -/
def State.raiseOk (s : State) (k : Nat) : Bool := decide (s.minSecurity < k) && decide (k ≤ s.get K.securityVersion)

/-- Burns the next erased security mark while their count is below a target. -/
def burnMark (target : Nat) (s : State) : State :=
  if target ≤ s.minSecurity then s
  else match (List.range 32).find? (fun i => s.otpRaw (131 + i) = cfErased) with
    | some i => cfPush 6 2 (131 + i) 1 0 [0] (.secMark target) s
    | none => s

/-- A write to RaiseSecurityVersion. -/
def raiseEffect (k : Nat) (s : State) : State := burnMark k s

/-! ## Completions (R464 to R466) -/

/-- The area of appended records that a sector belongs to: first sector and sectors. -/
def appendArea (sector : Nat) : Option (Nat × Nat) :=
  ([(2240, 16), (2256, 64), (2448, 512), (2960, 256), (3216, 16), (3488, 512)]
    ++ (List.range 8).map (fun k => (2320 + 8 * k, 8)) ++ (List.range 8).map (fun k => (2384 + 8 * k, 8))).find?
    (fun a => decide (a.1 ≤ sector) && decide (sector < a.1 + a.2))

/-- Rewrites a calibration record again from its start: a rewrite cut short leaves no valid header (R326, R466). -/
def calAgain (d : CfDesc) (s : State) : State :=
  let i := (d.addr / 2048 - 1920) / 2
  let s := s.modCf (fun c => { c with queue := c.queue.filter (fun x => !(decide (1920 ≤ x.addr / 2048) && decide (x.addr / 2048 < 2176)
    && decide (x.opcode ≤ 3) && decide ((x.addr / 2048 - 1920) / 2 = i))) })
  s.over (s.cal.pending.filter (fun e => e.1 = i)) (fun s e => calQueue e.1 e.2.1 s)

/-- The rewrite of a record whose sector cannot be erased any more ends: the previous copy stays current (R326, R454; log entry 161). -/
def calDrop (sector : Nat) (s : State) : State :=
  let i := (sector - 1920) / 2
  let s := s.modCf (fun c => { c with queue := c.queue.filter (fun x => !(decide (x.addr / 2048 = sector) && decide (x.opcode ≤ 3))) })
  s.modCal (fun c => { c with pending := c.pending.filter (fun e => e.1 ≠ i || 1920 + 2 * i + (if e.2.1.sector then 1 else 0) ≠ sector) })

/-- Does an appending with the array held busy and puts what it queues ahead of all that waits: a retained entry that is written again keeps its
turn, so that retained writes become durable in the order accepted (R45). -/
def cfAhead (d : CfDesc) (f : State → State) (s : State) : State :=
  let n := s.cf.queue.length
  let t := f (s.modCf (fun c => { c with cur := some d }))
  cfNext (t.modCf (fun c => { c with cur := s.cf.cur, queue := c.queue.drop n ++ c.queue.take n }))

/-- Writes words of a half again (R456, R466): the rest of an operation cut short goes to the next erased words, or to the next sector where its own is
unsealed, and the words that wait for the same half follow it, so that the words of each entry stand in order. A compaction whose header or
Commit was cut starts again (R457). -/
def halfAgain (d : CfDesc) (ws : List Word) (fresh : Bool) (s : State) : State :=
  let h := if d.addr / 2048 < 2208 then 0 else 1
  let base := 2048 * halfBase h
  let compacts := fun (x : CfDesc) => match x.purpose with | .compact _ => true | _ => false
  if d.purpose = .compact 1 ∨ d.purpose = .compact 3 then
    startCompaction (s.modCf (fun c => { c with compacting := false, queue := c.queue.filter (fun x => !compacts x) }))
  else
    let cut := d.addr + (d.data.length - ws.length)
    let next := if fresh then (d.addr / 2048 + 1) * 2048 else if s.cfRaw cut = cfErased then cut else cut + 1
    let mine := fun (x : CfDesc) => decide (x.opcode = 2) && decide (x.purpose ≠ .compact 3) && decide (base ≤ x.addr) && decide (x.addr < base + 65536)
    let moved := s.cf.queue.filter mine
    let s := s.modCf (fun c => { c with queue := c.queue.filter (fun x => !mine x) })
    let s := s.modNv (fun n => { n with areaNext := SMap.insert n.areaNext (halfBase h) (next - base) })
    cfAhead d (fun s => s.over ((ws, d.purpose) :: moved.map (fun x => (x.data, x.purpose))) (fun s e => halfAppend h e.1 e.2 s)) s

/-- Issues words of a stopped, unsealed or failed record again, on the next erased words of the same area (R466). -/
def cfAgain (d : CfDesc) (ws : List Word) (fresh : Bool) (s : State) : State :=
  let sector := d.addr / 2048
  if 1920 ≤ sector ∧ sector < 2176 then calAgain d s
  else if 2176 ≤ sector ∧ sector < 2240 then halfAgain d ws fresh s
  else match appendArea sector with
    | none => s
    | some (base, n) =>
      let p := SMap.getD s.nv.areaNext base 0
      let p := if fresh ∨ 2048 < p % 2048 + ws.length then (p / 2048 + 1) * 2048 else p
      let p := p % (2048 * n)
      let s := s.when (p % 2048 = 0) (cfPush 3 d.cls (2048 * base + p) 1 0 [] .areaErase)
      let s := s.modNv (fun v => { v with areaNext := SMap.insert v.areaNext base (p + ws.length) })
      cfPush 2 d.cls (2048 * base + p) ws.length 0 ws d.purpose s

/-- An operation of class 0 to 2 that was aborted is issued again; a bulk operation is not, and its work stops (R466). -/
def cfAborted (d : CfDesc) (done : Nat) (s : State) : State :=
  if d.cls = 3 then
    match d.purpose with
    | .update _ _ => updateStops s
    | .dump _ => s.set K.dumpState 0
    | .cfRead => s.set K.cfReadState 0
    | _ => s
  else
    match d.purpose with
    | .keyBurn _ _ => s
    | .secMark target => burnMark target s
    | .remap sector spare => burnRemap sector spare s
    | _ =>
      if d.opcode = 3 ∨ d.opcode = 4 then cfAhead d (cfPush d.opcode d.cls d.addr d.count d.sram [] d.purpose) s
      else if d.opcode = 1 ∨ d.opcode = 5 then cfAhead d (cfPush d.opcode d.cls (d.addr + done) (d.count - done) d.sram [] d.purpose) s
      else if d.opcode ≠ 2 then s
      else cfAgain d (d.data.drop done) false s
where
  /-- Burns the remap entry of a sector at the next spare not used. -/
  burnRemap (sector spare : Nat) (s : State) : State :=
    match (List.range 96).find? (fun k => s.otpRaw (163 + k) = cfErased ∧ spare ≤ k) with
    | some k => cfPush 6 1 (163 + k) 1 0 [BitVec.ofNat 20 sector] (.remap sector k) s
    | none => s

/-- The wake image cannot be made durable: S4 is entered in place of S5 until the next Cold entry (R361). -/
def denyS5 (s : State) : State :=
  let r := if s.pw.request = some 5 then some 4 else s.pw.request
  { s with pw := { s.pw with s5Denied := true, request := r } }

/-- An operation ended with FAIL (R454): both copies of the wake image are saves of it, so that either denies S5 (R361); a sector whose erase fails is replaced by a spare, and CodeFlashFail says whether one was left; a
record whose word fails is written again on the next erased words (DEDUCED from R466, log entry 45). -/
def cfFailed (d : CfDesc) (done : Nat) (s : State) : State :=
  let sector := d.addr / 2048
  if d.opcode = 3 then
    if 0 < s.cfSparesLeft then
      -- The burn and the erase of the spare go ahead of what waits to be programmed there (R325).
      cfAhead d (fun s => cfPush 3 d.cls d.addr d.count d.sram [] d.purpose (cfAborted.burnRemap sector 0 s)) (occur 1218 sector s)
    else
      let s := occur 1218 (sector + 4096) s
      match d.purpose with
      | .update _ _ => updateStops s
      | .dump _ => s.set K.dumpState 0
      | _ => if 3216 ≤ sector ∧ sector < 3232 then denyS5 s else if 1920 ≤ sector ∧ sector < 2176 then calDrop sector s else s
  else match d.purpose with
    | .update _ _ => updateStops s
    | .dump _ => s.set K.dumpState 0
    | .save .wakeImage => denyS5 s
    | .keyBurn _ _ => s
    | .secMark target => burnMark target s
    | .remap sector spare => cfAborted.burnRemap sector (spare + 1) s
    | .raw => s
    | .mark _ => s
    | _ => cfAgain d (d.data.drop done) false s

/-- The wake image has been read on exit from S5: DRAM leaves self-refresh, unless the buffer sleeps again, and then the parked regions come back
(R359, R361). -/
def wakeRead (s : State) : State :=
  if s.get K.powerState ≠ 0 then s else let s := ranksBack 5 s; { s with pw := { s.pw with parked := [] } }

/-- What follows an operation that ended DONE (or a read that met CHECKFAIL). -/
def cfDone (d : CfDesc) (s : State) : State :=
  let s := cfDurable d s
  match d.purpose with
  | .update step pos => updateAdvance step pos s
  | .dump pos => dumpAdvance pos s
  | .cfRead => cfReadDone d s
  | .keyBurn slot k => if k < 19 then burnKeyWord slot (k + 1) s else s
  | .secMark target => burnMark target s
  | .compact 3 => compactionDone s
  | .wakeRead => wakeRead s
  | .raw => if d.opcode = 1 then s.emit (.cfData d.sram ((List.range d.count).map (fun i => cfRead (s.cfRaw (d.addr + i)))))
      else if d.opcode = 5 then s.emit (.cfData d.sram (s.otpWords d.addr d.count)) else s
  | _ => s

/-- Pulses that a completion reports (R464): of programs and erases alone, for an operation stopped a free value within R451 and R452, and
none where nothing was programmed. -/
def cfPulses (d : CfDesc) (outcome : CfOutcome) (status words free : Nat) : Nat :=
  if d.opcode ≠ 2 ∧ d.opcode ≠ 3 ∧ d.opcode ≠ 6 then 0
  else if 3 ≤ status ∧ words = 0 then 0
  else match outcome with
    | .ran n => n.toNat
    | .failed _ => if d.opcode = 3 then 800 else 16
    | .stopped _ _ => free % (if d.opcode = 3 then 801 else 17)

/-- The operation of descriptor d ends: its completion is posted, what it was for comes about, and the next descriptor is taken (R464, R465). -/
def cfEnded (d : CfDesc) (outcome : CfOutcome) (s : State) : State :=
  let (status, words, s) := cfEnd d outcome s
  let (i, s) := s.free
  let duo := status * 2 ^ 36 + d.slot * 2 ^ 31 + words * 2 ^ 19 + cfPulses d outcome status words (Config.freeNat i) * 2 ^ 9
  let s := (s.emit (.cfCompletion (BitVec.ofNat 40 duo))).inc K.operationsDone
  let s := s.when (status = 1) (fun s => s.inc K.operationFails)
  let s := s.when (status ≠ 0) (fun s => s.set K.lastFault duo)
  let s := s.modCf (fun c => { c with cur := none, stopping := false })
  let s := match status with
    | 0 => cfDone d s
    | 6 => cfDone d s
    | 1 => cfFailed d words s
    | 2 => cfAborted d words s
    | 5 => if d.purpose = .raw then s else cfAgain d d.data true s
    -- A word that is not erased is skipped, and what is left goes to the next erased words (R451).
    | 4 => (match d.purpose with
        | .update _ _ => updateStops s
        | .dump _ => s.set K.dumpState 0
        | .secMark target => burnMark target s
        | .remap sector spare => cfAborted.burnRemap sector (spare + 1) s
        | .raw => s
        | .mark _ => s
        | .keyBurn _ _ => s
        | _ => cfAgain d (d.data.drop words) false s)
    | _ => (match d.purpose with | .update _ _ => updateStops s | _ => s)
  vigilAdvance (cfNext s)

/-- CODE_FLASH_COMPLETION (R464, R465): the operation in progress ends, its completion is posted, what it was for comes about, and the
next descriptor by class is taken. Only an operation that an abort or Vigil stops ends ABORTED. -/
def execCodeFlashCompletion (outcome : CfOutcome) (s : State) : Res :=
  .next (match s.cf.cur, outcome, s.cf.stopping with
    | none, _, _ => s
    | some _, .stopped _ _, false => s
    | some d, _, _ => cfEnded d outcome s)

/-! ## Descriptors (R463) -/

/-- CODE_FLASH_READ, CODE_FLASH_PROGRAM, CODE_FLASH_ERASE, CODE_FLASH_PROTECT, OTP_READ, OTP_PROGRAM: the warden queues a descriptor. -/
def State.wardenRuns (s : State) : Bool := s.serving || (decide (s.mode = 1) && decide (3 ≤ s.get K.bringupStep))

def execCodeFlashRead (cls : Fin 4) (addr : BitVec 23) (count : BitVec 12) (sram : BitVec 28) (s : State) : Res :=
  .next (s.when s.wardenRuns (cfPush 1 cls addr.toNat count.toNat sram.toNat [] .raw))

def execCodeFlashProgram (cls : Fin 4) (addr : BitVec 23) (sram : BitVec 28) (ws : List Word) (s : State) : Res :=
  .next (s.when s.wardenRuns (cfPush 2 cls addr.toNat ws.length sram.toNat ws .raw))

def execCodeFlashErase (cls : Fin 4) (sector : Fin 4096) (hint : Word) (s : State) : Res :=
  .next (s.when s.wardenRuns (cfPush 3 cls (2048 * sector.val) 1 hint.toNat [] .raw))

def execCodeFlashProtect (cls : Fin 4) (sector : Fin 4096) (count : BitVec 12) (s : State) : Res :=
  .next (s.when s.wardenRuns (cfPush 4 cls (2048 * sector.val) count.toNat 0 [] .raw))

def execOtpRead (cls : Fin 4) (word : BitVec 11) (count : BitVec 12) (s : State) : Res :=
  .next (s.when s.wardenRuns (cfPush 5 cls word.toNat count.toNat 0 [] .raw))

def execOtpProgram (cls : Fin 4) (word : BitVec 11) (v : Word) (s : State) : Res :=
  .next (s.when s.wardenRuns (cfPush 6 cls word.toNat 1 0 [v] .raw))

/-! ## Mailbox (R447, R448) -/

/-- A word slot of the mailbox: bits [19:0] of four bytes of the ordered window. -/
def State.mailbox (s : State) (off : Nat) : Nat :=
  (List.range 4).foldl (fun a i => a + (SMap.getD s.win.bytes (off + i) 0).toNat * 256 ^ i) 0 % 1048576

/-- Writes bytes of the shared window. -/
def windowPut (off : Nat) (bs : List Byte) (s : State) : State :=
  { s with win := { s.win with bytes := (bs.zip (List.range bs.length)).foldl (fun m e => SMap.put 0 m (off + e.2) e.1) s.win.bytes } }

/-- Writes a word slot of the mailbox. -/
def mailboxPut (off v : Nat) (s : State) : State := windowPut off (natBytes 4 (v % 1048576)) s

/-- Acknowledges a request: AckStatus and AckUnits, and AckSeq last. -/
def mailboxAck (seq status units : Nat) (s : State) : State :=
  mailboxPut 0x10020 seq (mailboxPut 0x10028 units (mailboxPut 0x10024 status s))

/-- A request of an operation is waiting: its number is AckSeq + 1 (R448). An unknown operation is refused under either row. -/
def State.mailboxWaits (s : State) (op : Nat) : Bool :=
  let o := s.mailbox 0x10004
  s.wardenRuns && decide (s.mailbox 0x10000 = (s.mailbox 0x10020 + 1) % 1048576) && (o = op || (o ≠ 1 && o ≠ 2))

/-- The data of a request lies inside the granted region (R446, R448). -/
def State.mailboxIn (s : State) (kib units : Nat) : Bool :=
  decide (s.get K.hostGrantBase ≤ kib) && decide (1024 * kib + 5120 * units ≤ 1024 * s.get K.hostGrantLimit)
    && decide (1 ≤ units) && decide (units ≤ 64)

/-- Words of a unit that lies in the shared window. -/
def State.windowUnit (s : State) (off : Nat) : List Word :=
  natWords 2048 (bytesNat ((List.range 5120).map (fun i => SMap.getD s.win.bytes (off + i) 0)))

/-- Units of the staged image are copied from the window, `n` of them from `first` on, at a KiB offset (R448, R462). -/
def takeChunk (first kib n : Nat) (s : State) : State :=
  let s := s.over (List.range n) (fun s i =>
    s.modCf (fun c => { c with staged := SMap.insert c.staged (first + i) (s.windowUnit (1024 * kib + 5120 * i)) }))
  s.set K.updateUnitsStaged s.cf.staged.length

/-- UPDATE_CHUNK (R448, R462): units are copied into the staged image and the request is acknowledged. -/
def execUpdateChunk (s : State) : Res :=
  .next (if !s.mailboxWaits 1 then s
    else
      let seq := s.mailbox 0x10000
      let first := s.mailbox 0x10008
      let kib := s.mailbox 0x1000C
      let n := s.mailbox 0x10010
      if s.mailbox 0x10004 ≠ 1 ∨ !s.mailboxIn kib n ∨ 640 < first + n then mailboxAck seq 0 0 s
      else mailboxAck seq 0 n (takeChunk first kib n s))

/-- Sectors of the array from `first` on, with their check bits. -/
def State.areaWords (s : State) (first n : Nat) : List (BitVec 26) := (List.range (2048 * n)).map (fun i => s.cfRaw (2048 * first + i))

/-- Words of a list whose check fails (R453). -/
def badWords (raw : List (BitVec 26)) : Nat := (raw.filter (fun b => (cfDecode b).isNone)).length

/-- Sectors are copied into the window at a KiB offset (R448). -/
def putArea (first kib n : Nat) (s : State) : State :=
  let raw := s.areaWords first n
  s.over (List.range n) (fun s i =>
    windowPut (1024 * kib + 5120 * i) (wordBytes 5120 (((raw.drop (2048 * i)).take 2048).map cfRead)) s)

/-- READ_AREA (R448, R453): sectors are copied into the shared window once no operation is in progress, and the request is acknowledged. -/
def execReadArea (s : State) : Res :=
  .next (if !s.mailboxWaits 2 ∨ s.cf.cur.isSome then s
    else
      let seq := s.mailbox 0x10000
      let first := s.mailbox 0x10008
      let kib := s.mailbox 0x1000C
      let n := s.mailbox 0x10010
      if s.mailbox 0x10004 ≠ 2 ∨ !s.mailboxIn kib n ∨ 4096 < first + n then mailboxAck seq 0 0 s
      else
        let bad := badWords (s.areaWords first n)
        mailboxAck seq (if bad = 0 then 0 else 1) n ((putArea first kib n s).add K.checkFailsMet bad))

end Sys2Proof.Machine
end

