-- ==== Sys2Proof/Machine/Training.lean ====
section
/-! DEFINITION. Training.lean: what the trainings of the flash channels and of DRAM find and set (R202 to R204, R219 to R231, R278,
R322, R323, R332), and the threshold survey (R324). -/

namespace Sys2Proof.Machine

/-! ## Steps of a training (R322, R323) -/

/-- Runs the steps given, each a number, the parameters it owns and their tolerance: the parameters, the steps that took the stored
ones, and the step that could take none, if any. -/
def calSteps (runs : List (List (Option Int))) (stored : Option CalSet) :
    List (Nat × List Nat × (Nat → Nat)) → List Int → List Int × List Nat × Option Nat
  | [], ps => (ps, [], none)
  | (n, own, tol) :: r, ps =>
    match calStep tol own runs stored ps with
    | none => (ps, [], some n)
    | some (ps, fell) =>
      let (ps, l, stuck) := calSteps runs stored r ps
      (ps, if fell then n :: l else l, stuck)

/-! ## Dies (R202 to R204) -/

/-- Generation records that a channel has been listed in without a break, newest last (R204: a channel removed and added back by reshape
starts anew). -/
def State.recordsOf (s : State) (c : Nat) : List GenRec :=
  match List.find? (fun (e : Nat × List GenRec) => match e.2.getLast? with | some g => g.channels.contains c | none => false) s.nv.gens with
  | some e => (e.2.reverse.takeWhile (fun g => g.channels.contains c)).reverse
  | none => []

/-- A generation record lists a die as present (R176). -/
def GenRec.listsDie (g : GenRec) (c d : Nat) : Bool :=
  match g.channels.findIdx? (fun x => x = c) with
  | some p => !(nth g.absent p 0).testBit d
  | none => false

/-- Density code of dies with a number of blocks in each plane (R202); 0 for one that no supported die has. -/
def densityOf (blocks : Nat) : Nat := if blocks = 2048 then 1 else if blocks = 4096 then 2 else 0

/-- The density that dies must have (R202): the one named with the generation records, or that of the lowest channel on which training finds
dies; 0 while none is known. -/
def State.densityWanted (s : State) : Nat :=
  if s.nv.moduleDensity ≠ 0 then s.nv.moduleDensity
  else (((List.range 96).map (fun k => (s.chan k).found)).find? (fun n => n ≠ 0)).getD 0

/-- The dies that training finds behind the chip-enable lines that are not faulty, each with its target's answer (R7, R202). -/
def foundDies (r : ChannelResult) (faulty : Nat) : List (Nat × TargetPage) :=
  (List.range 16).filterMap (fun d =>
    match nth r.targets (d / 4) none with
    | some p => if faulty.testBit (d / 4) ∨ p.luns.toNat ≤ d % 4 then none else some (d, p)
    | none => none)

/-- Why training refuses a found die: 1 its model is not in the profile, 3 its geometry, 2 its density; 0 where nothing refuses it (R202, R232). -/
def State.refusal (s : State) (p : TargetPage) : Nat :=
  if !s.fl.profiles.any (fun x => x.model = p.model) then 1
  else if p.planes ≠ 4 ∨ p.pages ≠ 2048 ∨ p.bytes ≠ 18432 ∨ densityOf p.blocks = 0 then 3
  else if s.densityWanted ≠ densityOf p.blocks then 2
  else 0

/-- Training does not find a die that a generation record lists as present (R204): it is lost, whatever it was, and DieLost is raised unless it
was lost before. -/
def dieMissing (c d cause : Nat) (s : State) : State :=
  if s.get (K.chDieState c d) = 4 then s else dieLost c d cause (s.set (K.chDieState c d) 0)

/-- DieState of a die that training admits (R204): retired and lost dies stay so unless the channel was removed and added back by reshape; after
a Cold entry, of a die that the newest generation record no longer lists, only that it was withdrawn is recorded (log 149). -/
def admittedState (c d : Nat) (s : State) : State :=
  let k := K.chDieState c d
  let rejoined := (s.chan c).removed && decide (s.get (K.chStripeSet c) ≤ 7)
  let recs := s.recordsOf c
  let withdrawn : Bool := match recs.getLast? with
    | some g => recs.any (fun g => g.listsDie c d) && !g.listsDie c d &&
        (match g.channels.findIdx? (fun x => x = c) with | some p => decide (nth g.absent p 0 ≠ 65535) | none => false)
    | none => false
  if rejoined then s.set k 1
  else if s.get k = 3 ∨ s.get k = 4 then s
  else if s.get k = 0 ∧ withdrawn then
    let (i, s) := s.free
    s.set k (3 + Config.freeNat i % 2)
  else s.set k 1

/-- Higher channels whose dies had been admitted on their own density, before a lower channel found dies of another (R202): their dies are refused
after all, and their training has failed. -/
def refuseHigher (c : Nat) (s : State) : State :=
    let n := s.densityWanted
    s.over ((List.range 96).filter (fun k => decide (c < k) && s.get (K.chDiesFitted k) ≠ 0 && s.get (K.chDieDensity k) ≠ n)) (fun s k =>
      let s := s.over (s.fittedDies k) (fun s d => (chEvent k 11 (d + 32) s).set (K.chDieState k d) 0)
      let s := (((s.set (K.chDiesFitted k) 0).set (K.chDieDensity k) 0).set (K.chCalSource k) 0).modChan k (fun x => { x with refusedAs := x.result })
      if s.mode = 1 then isolate k 4 s else s)

/-- Step 3: the dies found and admitted, those refused, and those missing (R202, R204). `shortCe` and `openCe` are the chip-enable lines
found faulty. DESIGN CHOICE (log 148): which cause DieMismatch names where only the mixture of models refuses a die is open. -/
def admitDies (c : Nat) (r : ChannelResult) (shortCe openCe : Nat) (s : State) : State :=
  let found := foundDies r (shortCe ||| openCe)
  let density := (found.find? (fun e => densityOf e.2.blocks ≠ 0)).elim 0 (fun e => densityOf e.2.blocks)
  let s := s.modChan c (fun x => { x with found := density })
  let mixed := found.any (fun e => found.any (fun f => e.2.model ≠ f.2.model))
  let s := s.over found (fun s e =>
    let n := s.refusal e.2
    if n ≠ 0 then chEvent c 11 (e.1 + 16 * n) s
    else if mixed then
      let (i, s) := s.free
      chEvent c 11 (e.1 + 16 * (1 + Config.freeNat i % 3)) s
    else s)
  let taken := if mixed then [] else (found.filter (fun e => s.refusal e.2 = 0)).map (fun e => e.1)
  let s := s.modChan c (fun x => { x with result := some r, refusedAs :=
    if s.nv.moduleDensity = 0 ∧ taken = [] ∧ mixed = false ∧ found.any (fun e => s.refusal e.2 = 2) then some r else none })
  let listed := fun (d : Nat) => s.nv.gens.any (fun e => e.2.any (fun g => g.listsDie c d))
  let s := s.set (K.chDiesFitted c) ((taken.map (fun d => 2 ^ d)).sum)
  let s := s.set (K.chDieDensity c) (if taken = [] then 0 else density)
  let s := s.when (taken ≠ []) (fun s => s.modChan c (fun x =>
    { x with profile := (found.head?).bind (fun e => s.fl.profiles.find? (fun p => p.model = e.2.model)) }))
  let s := s.over (List.range 16) (fun s d =>
    if taken.contains d then admittedState c d s
    else if listed d then
      dieMissing c d (if shortCe.testBit (d / 4) then 6 else if openCe.testBit (d / 4) then 4 else 5) s
    else s.set (K.chDieState c d) 0)
  s.when (taken ≠ []) (fun s => s.modChan c (fun x => { x with removed := x.removed && decide (7 < s.get (K.chStripeSet c)) }))

/-- Sends a command to each target of a list, as its first LUN. -/
def toTargets (c op : Nat) (ts : List Nat) (s : State) : State := s.over ts (fun s t => s.emit (.dieCommand c (4 * t) op 0))

/-! ## A channel training (R219 to R222, R226, R230, R231) -/

/-- Fields that the steps which fell back took from the stored set (R323). -/
def keptFields (steps : List (Nat × List Nat × (Nat → Nat))) (fell : List Nat) : List Nat :=
  steps.flatMap (fun e => if fell.contains e.1 then e.2.1 else [])

/-- Parameters of the steps 5 to 7, by field: eight DqDelay, DqsDelay, RE delay, G and duty code (R318, R328). -/
def chanSteps : List (Nat × List Nat × (Nat → Nat)) :=
  [(5, [11], fun _ => 3), (6, [0, 1, 2, 3, 4, 5, 6, 7, 9, 10], fun _ => 3), (7, [8], fun _ => 3)]

/-- The three criteria of R220. -/
def chanPasses (e : EyeFigures) : Bool := decide (205 ≤ e.width) && decide (50 ≤ e.height) && decide (1200 ≤ e.ber)

/-- Reports the quality figures of a channel. -/
def chanFigures (c : Nat) (e : EyeFigures) (s : State) : State :=
  ((s.set (K.chEyeWidth c) e.width).set (K.chEyeHeight c) e.height).set (K.chResidualBer c) e.ber

/-- What a training reports that made no measurement (R220). -/
abbrev noFigures : EyeFigures := ⟨0, 0, 0⟩

/-- A training of a channel that ends without a settings measurement, or whose two measurements fail (R220, R221). -/
def chanFails (c before : Nat) (s : State) : State :=
  let s := s.set (K.chCalSource c) 0
  if before = 3 ∨ before = 4 then s else isolate c 4 s

/-- A reshape that has not ended leaves a channel out: it is a member of the layout before the reshape only, and still holds its position (R193). -/
def State.leftOut (s : State) (c : Nat) : Bool :=
  s.nv.gens.any (fun e => match s.newestCkpt e.1 with
    | some k => decide (k.kind = 2) && decide (k.boundary ≠ 16 * k.endRow) &&
        (match (e.2.takeWhile (fun g => g.num ≠ k.target)).getLast? with | some g => g.channels.contains c | none => false)
    | none => false)

/-- A training of a channel passes (R221, R230): State 2 where it served or is a member, 4 on the first training of the module. -/
def chanPassed (c before : Nat) (s : State) : State :=
  let s := s.modChan c (fun x => { x with driversOff := false })
  if before = 3 ∨ before = 4 then s
  else if before = 2 ∨ s.recordsOf c ≠ [] ∨ s.leftOut c then (s.set (K.chState c) 2).set (K.chAdminIsolate c) 0
  else s.set (K.chState c) 4

/-- The quantity k of a channel's runs is the duty-cycle code (R318). -/
def chanDuty (k : Nat) : Bool := decide (k = 11)

/-- The commands of steps 4 to 7: Set Features, read back by Get Features, the settings of each LUN, ZQ Calibration Long, and the ONFI training sequences, of
which each step runs two (R199, R219; where Get Features and LUN Set Features serve is DEDUCED, log entry 182). -/
def trainingCommands (c : Nat) (s : State) : State :=
  let targets := (List.range 4).filter (fun t => (s.fittedDies c).any (fun d => decide (d / 4 = t)))
  let s := toTargets c 0xEE targets (toTargets c 0xEF targets s)
  let s := s.over (s.fittedDies c) (fun s d => s.emit (.dieCommand c d 0xD5 0))
  let s := toTargets c 0xF9 targets s
  s.over [0, 0, 1, 1, 2, 2] (fun s k => s.over targets (fun s t => s.emit (.onfiTraining c (4 * t) k)))

/-- Steps 4 to 9 (R199, R219, R220, R323, R332). The DQ receiver reference steps by 4 mV (R320). -/
def chanSettings (c before : Nat) (r : ChannelResult) (stored : Option CalSet) (s : State) : State :=
  let s := trainingCommands c s
  let base := SMap.getD s.cal.applied c (List.replicate 12 0)
  let (ps, fell, stuck) := calSteps (r.runs.map (measured chanDuty)) stored chanSteps base
  let s := s.over fell (fun s n => chEvent c 1 n s)
  match stuck with
  | some n =>
    let s := calApply c (if n = 5 then List.replicate 12 0 else ps) (keptFields chanSteps fell) s
    chanFails c before (chanFigures c noFigures s)
  | none =>
    let fresh := lowestFigures 4 r.sweeps
    let kept := lowestFigures 4 r.storedSweeps
    let ended := fun (s : State) => chEvent c 0 (s.get (K.chDiesFitted c) + 65536 * s.get (K.chCalSource c)) s
    if chanPasses fresh then
      let s := calApply c ps (keptFields chanSteps fell) (chanFigures c fresh s)
      let s := s.set (K.chCalSource c) (if fell = [] then 1 else 2)
      let s := s.when (fell = []) (calStore c { temp := s.calTemp c, eyeWidth := fresh.width, eyeHeight := fresh.height,
                                                ber := fresh.ber, params := ps })
      ended (chanPassed c before s)
    else
      match stored with
      | none => ended (chanFails c before (calApply c ps [] (chanFigures c fresh s)))
      | some k =>
        let s := calApply c k.params (List.range 12) (chanFigures c kept s)
        if chanPasses kept then ended (chanPassed c before (s.set (K.chCalSource c) 2)) else ended (chanFails c before s)

/-- The pin check has found a fault that isolates the channel (R221, R226, R230, R231): in State 3 or 4 the State stays, with the drivers off. -/
def pinFault (c before cause : Nat) (s : State) : State :=
  let s := chanFigures c noFigures (calApply c (List.replicate 12 0) [] (s.set (K.chCalSource c) 0))
  if before = 3 ∨ before = 4 then driversOff c s else isolate c cause s

/-- Once a lower channel has shown the density of a module without a generation record, the channels that had been judged by another are judged anew: dies of
another density are refused, and those that had been refused for theirs are admitted and trained on what their training found (R202). -/
def settleDensity (c : Nat) (s : State) : State :=
  if s.nv.moduleDensity ≠ 0 then s
  else
    let s := refuseHigher c s
    if s.mode ≠ 1 then s else
    let n := s.densityWanted
    s.over ((List.range 96).filter (fun k => k ≠ c && decide ((s.chan k).found = n) && (s.chan k).refusedAs.isSome)) (fun s k =>
      match (s.chan k).refusedAs with
      | none => s
      | some r =>
        let s := s.set (K.chState k) 0
        let s := admitDies k r (r.shorts.toNat / 1024 % 16) (r.opens.toNat % 16) s
        chanSettings k 0 r (SMap.find? s.cal.formed k) s)

/-- The end of a training of a channel with what it found. A training from State 2 runs steps 4 to 9 only (R222). -/
def trainChannel (c : Nat) (r : ChannelResult) (s : State) : State :=
  let x := s.chan c
  let before := x.training.getD (s.get (K.chState c))
  let stored := SMap.find? s.cal.formed c
  let s := s.modChan c (fun x => { x with training := none, trained := true })
  if before = 2 then chanSettings c before r stored s
  else
    let shorts := r.shorts.toNat
    let opens := r.opens.toNat
    let s := (s.set (K.chShortMask c) (shorts % 1024)).set (K.chOpenMask c) opens
    let s := s.when (shorts ≠ 0) (chEvent c 2 shorts)
    let s := s.when (opens ≠ 0) (chEvent c 3 opens)
    let cause := if shorts % 1024 ≠ 0 ∨ shorts / 16384 ≠ 0 then 1 else if opens.testBit 4 then 2 else 0
    if cause ≠ 0 then pinFault c before cause s
    else
      let s := s.modChan c (fun x =>
        { x with driversOff := false, linesOff := (List.range 4).filter (fun k => shorts.testBit (10 + k)) })
      let s := toTargets c 0xEC (List.range 4) (toTargets c 0x90 (List.range 4) (toTargets c 0xFF (List.range 4) s))
      let s := admitDies c r (shorts / 1024 % 16) (opens % 16) s
      settleDensity c (if s.get (K.chDiesFitted c) = 0 then
        chanFails c before (chanFigures c noFigures (calApply c (List.replicate 12 0) [] s))
      else chanSettings c before r stored s)

/-! ## DRAM training (R278, R281) -/

/-- Parameters of the steps 2 to 7 of a rank, with the tolerance of delays and of references (R318, R328). -/
def dramSteps : List (Nat × List Nat × (Nat → Nat)) :=
  let seg := fun (a n : Nat) => (List.range n).map (fun k => a + k)
  [(2, [164, 166], fun k => if k = 166 then 2 else 3), (3, seg 150 14 ++ [165], fun k => if k = 165 then 2 else 3),
   (4, seg 130 10, fun _ => 3), (5, seg 140 10, fun _ => 3),
   (6, seg 0 40 ++ seg 80 40, fun k => if 80 ≤ k then 2 else 3), (7, seg 40 40 ++ seg 120 10, fun k => if 120 ≤ k then 2 else 3)]

/-- The three criteria of R278. -/
def rankPasses (e : EyeFigures) : Bool := decide (256 ≤ e.width) && decide (40 ≤ e.height) && decide (1200 ≤ e.ber)

/-- Mode registers of a rank that training programs, other than the references that its steps measure, with their contents: those of DramRate as JEDEC
DDR5 gives them, and free codes where the contents come from a training that the steps do not name (R257). The terminations of a spare half
are parked. -/
def rankModes (r rate : Nat) (free : Nat → Nat) : List (Nat × ModeContents) :=
  [(0, .burst 16 (Config.casLatency rate)), (2, .functional true false true), (5, .code (free 0)),
   (6, .recovery (Config.writeRecovery rate) (Config.readToPrecharge rate)), (8, .preambles 2 2 1), (13, .clocks (Config.ccdLong rate))]
  ++ (List.range 4).map (fun k => (32 + k, if r = 2 then .parked else .code (free (1 + k))))
  ++ (List.range 3).map (fun k => (37 + k, .clocks (Config.odtOffset (37 + k) rate)))
  ++ [(40, .code (free 5)), (45, .clocks 2048), (50, .crcOff)]

/-- A step of R278 at work: each of its runs, two, and two more where the first two disagree (R322). The patterns of MR25 to MR31 serve step 5 and are then
restored to their reset values (R257). -/
def trainStep (sub r : Nat) (runs : List (List (Option Int))) (x : Nat × List Nat × (Nat → Nat)) (s : State) : State :=
  let n := if calAgree x.2.2 x.2.1 (nth runs 0 []) (nth runs 1 []) then 2 else 4
  let patterns := fun (c : ModeContents) (s : State) => s.over (List.range 7) (fun s k => writeMode sub r (25 + k) 0 c s)
  let s := s.when (x.1 = 5) (patterns .pattern)
  let s := s.over (List.range n) (fun s _ => s.emit (.dramCommand sub r 12 x.1))
  s.when (x.1 = 5) (patterns .resetValue)

/-- A training of a rank up to the measurement of step 8: reset released, ZQ calibration start and latch, the mode registers, and the runs of steps 2 to 7
as far as it comes (R257, R278). -/
def startRank (sub r : Nat) (runs : List (List (Option Int))) (stuck : Option Nat) (s : State) : State :=
  let s := (s.emit (.dramCommand sub r 13 0)).emit (.dramCommand sub r 8 0)
  let (codes, s) := (List.range 6).foldl (fun (a : List Nat × State) _ => let (i, s) := a.2.free; (a.1 ++ [Config.freeNat i % 256], s)) ([], s)
  let s := s.over (rankModes r (s.get K.dramRate) (fun k => nth codes k 0)) (fun s e => writeMode sub r e.1 0 e.2 s)
  s.over (dramSteps.filter (fun x => match stuck with | some n => decide (x.1 ≤ n) | none => true)) (fun s x => trainStep sub r runs x s)

/-- What a training leaves of one rank or spare half: source 0 where it failed, and its figures. -/
structure RankEnd where
  source : Nat
  eye : EyeFigures
  deriving DecidableEq, Repr

/-- Trains rank r of a sub-channel, r = 2 its spare half (R278, R322, R323, R332). The receiver Vref steps by 5 mV (R320). -/
def trainRank (sub r : Nat) (x : RankResult) (s : State) : RankEnd × State :=
  let i := 96 + 3 * sub + r
  if !x.present then (⟨0, noFigures⟩, s)
  else
    let stored := SMap.find? s.cal.formed i
    let runs := x.runs.map (measured (fun _ => false))
    let (ps, fell, stuck) := calSteps runs stored dramSteps (List.replicate 167 0)
    let s := startRank sub r runs stuck s
    -- Commands whose parity disagreed were issued again (R273).
    let s := s.over (List.range x.mismatches) (fun s _ => dramChecked sub r 0 .commandParity s)
    let s := s.over fell (fun s n => occur 1197 (rankArg sub r + 32 * n) s)
    match stuck with
    | some _ => (⟨0, noFigures⟩, s)
    | none =>
      let s := s.emit (.dramCommand sub r 12 8)
      let fresh := lowestFigures 5 x.sweeps
      if rankPasses fresh then
        let s := applyRank sub r ps (keptFields dramSteps fell) s
        let s := s.when (fell = []) (calStore i { temp := s.calTemp i, eyeWidth := fresh.width, eyeHeight := fresh.height, ber := fresh.ber,
                                                  params := ps })
        (⟨if fell = [] then 1 else 2, fresh⟩, s)
      else
        match stored with
        | none => (⟨0, fresh⟩, s)
        | some c =>
          let kept := lowestFigures 5 x.storedSweeps
          (⟨if rankPasses kept then 2 else 0, kept⟩, applyRank sub r c.params (List.range 167) s)

/-- Sets the states and figures of a sub-channel after its ranks have trained; answers whether an active rank is left without a
rank in its stead (R278). A rank whose retirement is recorded in code flash is taken as retired (R275). -/
def seatRanks (sub : Nat) (ends : List RankEnd) (s : State) : Bool × State :=
  let e := fun r => nth ends r ⟨0, noFigures⟩
  let bad := (List.range 2).filter (fun r => (e r).source = 0 || SMap.getD s.nv.saved (3 * sub + r) 0 = 1)
  let spare := decide ((e 2).source ≠ 0)
  let s := s.over (List.range 2) (fun s r => s.set (rankStateKey sub r) (if bad.contains r then 3 else 1))
  let used := if spare then bad.head? else none
  let s := s.set (K.dramSpareHalfState sub) (if !spare then 0 else if used.isSome then 3 else 1)
  let s := s.set (K.dramSpareReplaces sub) (used.getD 0xFF)
  let serving := ((List.range 2).filter (fun r => !bad.contains r)).map e ++ (if used.isSome then [e 2] else [])
  let low := fun (f : RankEnd → Nat) => match serving.map f with | [] => 0 | a :: l => l.foldl min a
  let s := ((s.set (K.dramEyeWidth sub) (low (fun x => x.eye.width))).set (K.dramEyeHeight sub) (low (fun x => x.eye.height))).set
    (K.dramResidualBer sub) (low (fun x => x.eye.ber))
  let source := if serving = [] then 0 else (serving.map (fun x => x.source)).foldl max 1
  (decide (bad.length > (if used.isSome then 1 else 0)), s.set (K.dramCalSource sub) source)

/-- Trains all eight sub-channels; result 3 × s + r is that of rank r of sub-channel s. Answers whether training leaves an active rank
without a rank in its stead (R278, R345). -/
def trainDram (rs : List RankResult) (s : State) : Bool × State :=
  let none_ : RankResult := { present := false, runs := [], sweeps := [], storedSweeps := [], mismatches := 0 }
  let (bad, s) := (List.range 8).foldl (fun (p : Bool × State) sub =>
    let (a, s) := trainRank sub 0 (nth rs (3 * sub) none_) p.2
    let (b, s) := trainRank sub 1 (nth rs (3 * sub + 1) none_) s
    let (c, s) := trainRank sub 2 (nth rs (3 * sub + 2) none_) s
    let (f, s) := seatRanks sub [a, b, c] s
    (p.1 || f, s)) (false, s)
  (bad, countSpares s)

/-! ## Threshold survey (R324) -/

/-- The most recently closed row block of a die number of a set, with its generation (R324). -/
def State.surveyBlock (s : State) (c d : Nat) : Option (RowBlock × GenRec) :=
  let set := s.get (K.chStripeSet c)
  let closed := s.wr.rowBlocks.filter (fun r => r.set = set && r.die = d && r.erasing.isNone && s.closedBlock r)
  let top := fun (r : RowBlock) => (r.rows.map (fun e => e.1)).foldl max 0
  match closed.find? (fun r => closed.all (fun x => decide (top x ≤ top r))) with
  | some r => (s.genRec set r.gen).map (fun g => (r, g))
  | none => none

/-- Starts the survey at the first entry to a serving mode after a Cold entry: the dies that are due (R324). -/
def startSurvey (s : State) : State :=
  if !s.flag K.surveyEnable ∨ s.get K.surveyState ≠ 0 then s
  else
    let due := (List.range 96).flatMap (fun c =>
      if s.get (K.chState c) = 2 && decide (s.get (K.chStripeSet c) ≤ 7) then
        (((List.range 16).filter (fun d => s.fitted c d && decide (s.get (K.chDieState c d) < 3) && (s.surveyBlock c d).isSome)).map
          (fun d => dieKey c d))
      else [])
    let s := s.modCal (fun x => { x with due := due })
    s.set K.surveyState (if due = [] then 2 else 1)

/-- Estimate of a page from the ones counts of its four frames (R160, R324). -/
def State.surveyEstimate (s : State) (ones : List (BitVec 16)) : Int :=
  retuneMove (s.get K.retuneGain) ((ones.map (fun o => skewOf o.toNat)).sum) 4

/-- D of one or two pairs of estimates: the mean of the first pair that agrees within 2 steps, clamped (R324). -/
def surveyOffset (es : List Int) : Option Int :=
  let ok := fun (a b : Int) => decide ((a - b).natAbs ≤ 2)
  let out := fun (a b : Int) => max (-32) (min 31 (calMean a b))
  let e := fun k => nth es k 0
  if ok (e 0) (e 1) then some (out (e 0) (e 1)) else if 4 ≤ es.length ∧ ok (e 2) (e 3) = true then some (out (e 2) (e 3)) else none

/-- Page 0 of the programmed word lines of a die's most recently closed row block, the highest word line first (R324). -/
def State.surveyPages (s : State) (c d : Nat) : List Nat :=
  match s.surveyBlock c d with
  | some (r, _) => ((r.rows.map (fun e => s.memberPma c d (s.memberBlock c d r.block) e.2 0)).reverse).filter (fun p =>
      (SMap.find? s.fl.media (pmaPlace p)).isSome)
  | none => []

/-- The header of a survey page passes its check (R135, R324). -/
def State.surveyHeader (s : State) (pma : Nat) : Bool :=
  !SMap.getD s.fl.torn (pmaPlace pma) false && (match SMap.find? s.fl.media (pmaPlace pma) with
    | some m => (readHeader (pageHeader m.bits)).isSome
    | none => false)

/-- A survey page is read at the thresholds of step 1 with D = 0 and B = 0, and its header and four frames are transferred (R157, R324). -/
def surveyRead (pma : Nat) (s : State) : State :=
  let levels := (s.sensedLevels pma).map (fun k => (k, s.clampThreshold (pmaCh pma) (s.modelOffset pma k)))
  (emitRead pma levels s).emit (.columnSelect (s.dieAddr pma (s.slcPage pma)) [0, 1, 2, 3] true)

/-- The survey may read a die: its reads are background reads, behind everything that the die has queued, and take a buffer for each frame (R149, R151,
R324). -/
def State.surveyReady (s : State) (c d : Nat) : Bool :=
  let x := s.die c d
  let ch := s.chan c
  s.serving && decide (s.get K.powerState = 0) && s.cal.due.contains (dieKey c d) && x.cur.isNone && x.reads.isEmpty && x.progs.isEmpty
    && !ch.aborting && ch.training.isNone && !ch.driversOff && !ch.linesOff.contains (d / 4) && s.buffersFree 3 4

/-- THRESHOLD_SURVEY (R324): a die is surveyed on page 0 of the two highest programmed word lines of its most recently closed row block, and of the next
two where those disagree: `ones` are the ones counts of the four frames of each page; `headersOk` is false where a header came with its check failed.
A die with fewer than two such word lines is not surveyed, and one whose second pair is not there falls back (DESIGN CHOICE, log entry 187). -/
def execThresholdSurvey (c : Fin 96) (d : Fin 16) (ones : List (List (BitVec 16))) (headersOk : Bool) (s : State) : Res :=
  .next (
    let k := dieKey c d
    let es := ones.map s.surveyEstimate
    let first := decide ((nth es 0 0 - nth es 1 0).natAbs ≤ 2)
    let pages := s.surveyPages c d
    let second := !first && decide (4 ≤ pages.length)
    let used := pages.take (if second then 4 else 2)
    let ok := headersOk && decide (2 ≤ pages.length) && used.all s.surveyHeader
    if s.surveyReady c d = false ∨ (second = true ∧ ones.length < 4) then s
    else
      let s := (s.over used (fun s p => surveyRead p s)).add (K.chPageReads c) used.length
      let s := s.modCal (fun x => { x with due := x.due.erase k })
      let s := s.when ok (fun s =>
        let s := s.inc K.surveyedDies
        match surveyOffset (es.take used.length) with
        | some v => s.set (K.chThresholdOffset c d) (to20 v)
        | none => occur 1216 (16 * c.val + d.val) (s.inc K.surveyFallbacks))
      s.when (s.cal.due = []) (fun s => s.set K.surveyState 2))

end Sys2Proof.Machine
end

