-- ==== Sys2Proof/Machine/Restore.lean ====
section
/-! DEFINITION. Restore.lean: the restore of tables and staging at every Cold entry (R346, R348, R349), with the
outcome of a Vigil (R382) and the precedence among the records (R196). -/

namespace Sys2Proof.Machine

/-! ## Part 1: sets (R176, R346) -/

/-- Layout that a reshape leaves, while the newest checkpoint shows it unended: the record before its target (R193, R194). -/
def State.reshapeFrom (s : State) (set : Nat) (gens : List GenRec) : Option GenRec :=
  match s.newestCkpt set with
  | some k => if k.kind = 2 ∧ k.boundary ≠ 16 * k.endRow then (gens.takeWhile (fun g => g.num ≠ k.target)).getLast? else none
  | none => none

/-- Puts channels in the positions of a layout. -/
def seatLayout (set : Nat) (g : GenRec) (s : State) : State :=
  s.over (g.channels.zip (List.range g.channels.length)) (fun s e => (s.set (K.chStripeSet e.1) set).set (K.chMemberPosition e.1) e.2)

/-- Enters a set as its newest generation record gives it (R174, R176, R197). Until a reshape ends, the channels it leaves out keep their positions,
and the set shows the capacities of the layout before it (R193, R196). -/
def restoreSet (set : Nat) (gens : List GenRec) (s : State) : State :=
  match gens.getLast? with
  | none => s
  | some g =>
    let s := s.over (List.range 48) (fun s k => s.set (K.setSetMembers set k) (nth g.channels k 0xFF))
    let old := s.reshapeFrom set gens
    let s := seatLayout set g (match old with | some o => seatLayout set o s | none => s)
    let s := (((s.set (K.setWidth set) g.channels.length).set (K.setGeneration set) g.num).set (K.setSetSpareReserve set) g.spare).set
      (K.setLogicalUnits set) g.logicalUnits
    let scrub := SMap.getD s.nv.savedScrub set 0
    let next := match s.newestCkpt set with | some k => (k.number + 1) % 1048576 | none => 0
    let s := s.modSet set (fun t => { t with gens := gens, scrub := scrub, nextRow := g.firstRow, ckptNext := next })
    setCapacity set (old.getD g) (fillDirectory set g.logicalUnits (s.set (K.setState set) 1))

/-- Histograms as they were saved, with the minutes that the clock has counted since the Cold entry (R251). -/
def addHist (saved fresh : SMap Nat) : SMap Nat := fresh.foldl (fun m e => SMap.modify m e.1 0 (fun n => n + e.2)) saved

/-- Part 1: generation records, spare map, loss log and the saves of the history area (R346). -/
def restorePart1 (s : State) : State :=
  let s := s.modWr (fun w => { w with spareMap := s.nv.spareMap })
  let s := s.over s.nv.gens (fun s e => restoreSet e.1 e.2 s)
  let states := fun (h : HRec) => if h.state = 4 then 4 else if h.state = 6 then 5 else 9
  let base := fun (i : Nat) => (s.hrec i).state
  let kept := s.nv.savedHarvest.map (fun e => (e.1, { e.2 with state := if states e.2 = 9 then base e.1 else states e.2 }))
  let s := s.modFl (fun x => { x with harvest := kept, hist := addHist s.nv.savedHist x.hist })
  s.over s.nv.spareMap (fun s e => s.modHrec e.2 (fun h => { h with state := 6 }))

/-! ## The outcome of the last Vigil (R380, R382) -/

/-- Row of the table of R382 that applies, from the marks of the armed entry; 0 where no entry was ever armed. Marks up to StagingSafe
without the End mark fall under row 2, which then names nothing further. -/
def vigilRow (n : Nv) : Nat :=
  match n.vigilEntry with
  | none => 0
  | some e =>
    let m := fun k => e.marks.contains k
    if m 5 then 1 else if m 1 && m 3 then 2 else if m 1 then 3 else if m 0 then 4 else 5

/-- The tear record of a program in flight (R378, R380). -/
def vprogTear (p : VProg) (cause : Nat) : TearRec :=
  { typ := 1, planes := p.planes, channel := p.channel, die := p.die, block := p.block, page := if p.slc then p.wl else 4 * p.wl,
    cause := cause, slc := p.slc }

/-- Tears that the outcome names, before those of units not dumped (R378, R382): of programs in flight, and of raw intents. -/
def State.vigilTears (s : State) : List TearRec :=
  let d : Dump := s.nv.dump.getD {}
  let row := vigilRow s.nv
  let progs := match row with
    | 1 => ((d.outcome.getD []).filter (fun p => p.result = 1 || p.result = 2)).map (fun p => vprogTear p 3)
    | 2 => ((d.outcome.getD []).filter (fun p => p.result = 1 || p.result = 2)).map (fun p => vprogTear p 3)
    | 3 => (d.initial.getD []).map (fun p => vprogTear p 4)
    | 4 => (d.initial.getD []).map (fun p => vprogTear p 4)
    | _ => []
  progs ++ ((s.nv.tears.filter (fun t => t.typ = 2)).map (fun t => { t with typ := 1, cause := 4 }))

/-- Enters a torn page, with its record if the ledger does not hold it yet. -/
def restoreTear (r : TearRec) (s : State) : State :=
  let known := s.nv.tears.any (fun t => t.typ = 1 && t.channel = r.channel && t.die = r.die && t.block = r.block && t.page = r.page
    && t.planes = r.planes)
  let s := s.over (tornPages (s.get K.deviceNumber) r) (fun s p => s.modFl (fun x => { x with torn := SMap.put false x.torn (pmaPlace p) true }))
  if known then s else ledgerAppend r s

/-- Part 2: the torn-page index, from the ledger and the outcome (R144, R382). -/
def restorePart2 (s : State) : State :=
  let s := s.over (s.nv.tears.filter (fun t => t.typ = 1)) (fun s r => restoreTear r s)
  s.over s.vigilTears (fun s r => restoreTear r s)

/-! ## Part 3: headers (R176, R237, R346) -/

/-- Die-blocks that hold a programmed page, by Harvest number. -/
def State.programmedBlocks (s : State) : SMap Unit :=
  s.fl.media.foldl (fun m e => SMap.insert m (s.dieBlock (pmaCh e.1) (pmaDie e.1) (pmaBlock e.1)) ()) []

/-- Pages of a die-block on media. -/
def State.pagesOf (s : State) (i : Nat) : SMap MediaPage :=
  s.fl.media.filter (fun e => s.dieBlock (pmaCh e.1) (pmaDie e.1) (pmaBlock e.1) = i)

/-- Header of a word line of a die-block, from the first of its pages whose check is valid. -/
def State.wlHeader (s : State) (c d k w : Nat) : Option HeaderBody :=
  (List.range 16).findSome? (fun t =>
    match SMap.find? s.fl.media (pmaPlace (s.memberPma c d k w t)) with
    | some m => if m.slc then none else readHeader (pageHeader m.bits)
    | none => none)

/-- Row block that a die-block serves at its die number: its own, or the one it was given to as a substitute (R178). -/
def State.servesBlock (s : State) (i : Nat) : Nat :=
  match List.find? (fun e : Nat × Nat => e.2 = i) s.wr.spareMap with
  | some e => e.1 % 2048
  | none => i % 2048

/-- Enters the row block that a member's die-block belongs to, if word line 0 names a generation record that exists (R176, R196). -/
def restoreRowBlock (i : Nat) (s : State) : State :=
  let c := i / 32768
  let d := i / 2048 % 16
  let set := s.get (K.chStripeSet c)
  match s.wlHeader c d (i % 2048) 0 with
  | none => s
  | some h =>
    let b := s.servesBlock i
    if 7 < set ∨ (s.rowBlock set d b).isSome then s
    else match s.genRec set h.generation with
      | none => s
      | some g =>
        if !g.channels.contains c then s
        else
          let rb : RowBlock :=
            { set := set, die := d, block := b, gen := g.num, rows := [], failedRows := [], failedAt := none, oldestAt := none,
              refreshAt := none, wearAt := none, victim := false, released := false }
          s.modWr (fun w => { w with rowBlocks := w.rowBlocks ++ [rb] })

/-- Row value of each word line of a row block up to the last one programmed, from any present member's header. -/
def State.rowsOnMedia (s : State) (rb : RowBlock) (g : GenRec) : List (Nat × Nat) :=
  let at_ := fun (w : Nat) => (g.channelsAt rb.die).findSome? (fun c => s.wlHeader c rb.die (s.memberBlock c rb.die rb.block) w)
  let used := (List.range s.wordLines).filter (fun w => (at_ w).isSome)
  let n := match used.getLast? with | some w => w + 1 | none => 0
  ((List.range n).foldl (fun (p : Nat × List (Nat × Nat)) w =>
    let r := match at_ w with | some h => h.row | none => p.1
    (r, p.2 ++ [(r, w)])) (0, [])).2

/-- Fills in what the headers tell of a row block: its rows, and the members whose program failed in a row, that is, which lack its pages
below the last row, or in the last one where its P or Q page is there, whose program follows those of every data member (R137, R139, R239; log
entry 47). The saved flags stay as they were saved. -/
def restoreRows (rb : RowBlock) (s : State) : State :=
  match s.genRec rb.set rb.gen with
  | none => s
  | some g =>
    let rows := s.rowsOnMedia rb g
    let lacks := fun (w pos : Nat) =>
      let c := nth g.channels pos 127
      (s.wlHeader c rb.die (s.memberBlock c rb.die rb.block) w).isNone
    let done := rows.filter (fun r => decide (some r ≠ rows.getLast?) ||
      (let (p, q) := g.parity rb.die rb.block r.2; !lacks r.2 p || !lacks r.2 q))
    let lost := done.flatMap (fun r => ((g.present rb.die).filter (lacks r.2)).map (fun pos => (r.2, pos)))
    -- A page of each further word line, up to the first that holds none (R215).
    let more := min s.wordLines (rows.length + 1) - 1
    let s := s.over (g.channelsAt rb.die) (fun s c => s.add (K.chPageReads c) more)
    let members := (g.channelsAt rb.die).map (fun c => 32768 * c + 2048 * rb.die + s.memberBlock c rb.die rb.block)
    let refresh := members.any (fun i => (s.hrec i).refresh)
    let failed := decide (lost ≠ []) || members.any (fun i => (s.hrec i).failed)
    let s := s.modRowBlock rb.set rb.die rb.block (fun r =>
      { r with rows := rows, failedRows := lost, failedAt := if failed then some s.now else none,
               refreshAt := if refresh then some s.now else none })
    let closed := match s.rowBlock rb.set rb.die rb.block with | some r => s.closedBlock r | none => false
    s.over members (fun s i => s.modHrec i (fun h =>
      { h with state := if h.state = 4 ∨ h.state = 6 then h.state else if closed then 2 else 1, failed := failed }))

/-- The write tag of a programmed die-block, from the first header whose check is valid; TagsMissing counts one that has none (R237). A page of the
die-block is read for it, as is each page that a restore takes records, entries or units from (R215, R346; log entry 183). -/
def restoreTag (i : Nat) (s : State) : State :=
  let slc := ((s.pagesOf i).filter (fun e => e.2.slc)).length
  let s := s.add (K.chPageReads (i / 32768)) (max 1 slc)
  match (s.pagesOf i).findSome? (fun e => readHeader (pageHeader e.2.bits)) with
  | some h => s.modFl (fun x => { x with tags := SMap.insert x.tags i h.calends })
  | none => s.inc K.tagsMissing

/-- Highest journal sequence that a die-block of journal and save pages holds, plus one. -/
def State.journalIn (s : State) (i : Nat) : Option Nat :=
  let l := (s.pagesOf i).filterMap (fun e => match readHeader (pageHeader e.2.bits) with
    | some h => if e.2.slc && h.kind = 5 then some (h.seq + 816) else if e.2.slc && h.kind = 7 then some (h.seq + 1) else none
    | none => none)
  if l = [] then none else some (l.foldl max 0)

/-- Part 3 (R176, R237). A die-block of a member that holds pages of no row block, no journal and no dump is erased anew (R196). -/
def restorePart3 (s : State) : State :=
  let blocks := s.programmedBlocks.map (fun e => e.1)
  let s := s.over blocks (fun s i => restoreTag i s)
  let s := s.over blocks (fun s i => restoreRowBlock i s)
  let s := s.over s.wr.rowBlocks (fun s rb => restoreRows rb s)
  let dies : SMap (List (Nat × Nat)) := (s.nv.dump.getD {}).dies
  let dump := dies.flatMap (fun e => e.2.map (fun x => 32768 * e.1 + 2048 * x.1 + x.2))
  let inRows := s.wr.rowBlocks.flatMap (fun rb => match s.genRec rb.set rb.gen with
    | some g => (g.channelsAt rb.die).map (fun c => 32768 * c + 2048 * rb.die + s.memberBlock c rb.die rb.block)
    | none => [])
  s.over blocks (fun s i =>
    if inRows.contains i then s
    else if dump.contains i then s.modHrec i (fun h => { h with state := 7 })
    else match s.journalIn i with
      | some n =>
        let s := s.modFl (fun x => { x with slcSeq := SMap.insert x.slcSeq i n })
        s.modHrec i (fun h => { h with state := 7 })
      | none =>
        if (s.hrec i).state = 8 ∨ (s.hrec i).state = 4 then s
        else
          let b := i % 2048
          let s := s.modHrec i (fun h => { h with state := 3 })
          pushErase (i / 32768) (i / 2048 % 16) (if s.density = 2 then 2 * b else b) 15 none none s)

/-! ## Parts 4 to 7: the mapping (R196, R346, R348) -/

/-- A record stands on media: some SLC page whose header gives it that number holds its four duos, the valid Check among them (R124, R125, R348). -/
def State.recordHeld (s : State) (n : Nat) (r : JRec) : Bool :=
  s.fl.media.any (fun e =>
    match (if e.2.slc then readHeader (pageHeader e.2.bits) else none) with
    | some h => decide (h.kind = 5) && decide (h.seq ≤ n) && decide (n < h.seq + 816) &&
      (let i := n - h.seq
       decide ((payloadData (decodeFrame e.1 (i / 204) e.2.bits)).toNat / 2 ^ (160 * (i % 204)) % 2 ^ 160 = duosNat (journalDuos r)))
    | none => false)

/-- Records that restore can read on media: the journal, the tail of the dump, and the Stage records that its unit pages are (R346, R348, R375). The page
of a relocated unit is no Stage record (R509). -/
def State.journalRead (s : State) : SMap JRec :=
  let d : Dump := s.nv.dump.getD {}
  let j := List.foldl (fun (m : SMap JRec) (e : Nat × JRec) => SMap.insert m e.1 e.2) s.nv.journal d.tail
  let j := j.filter (fun e => s.recordHeld e.1 e.2)
  List.foldl (fun (m : SMap JRec) (e : SUnit × Nat) =>
    if (SMap.find? m e.2).isSome ∨ e.1.source.isSome then m
    else SMap.insert m e.2 { kind := .stage, set := e.1.set, lui := e.1.lui, tag := 0, loc := stagedLoc 0, count := 0, first := 0 }) j d.units

/-- First sequence from `n` on that a list of records in ascending order does not hold (R348). -/
def firstMissing (n : Nat) : SMap JRec → Nat
  | [] => n
  | (k, _) :: r => if k = n then firstMissing (n + 1) r else if k < n then firstMissing n r else n

/-- The newest save of each segment that is whole (R348). -/
def State.wholeSaves (s : State) : SMap (Nat × SMap Nat) :=
  s.nv.mapSaves.filterMap (fun e => (e.2.reverse.find? (fun v => s.saveWhole e.1 v.1)).map (fun v => (e.1, v)))

/-- Part 4: entries of the newest whole save of each segment (R348). -/
def State.savedMap (s : State) : SMap Nat :=
  let one := fun (m : SMap Nat) (e : Nat × Nat × SMap Nat) =>
    List.foldl (fun (m : SMap Nat) (x : Nat × Nat) => SMap.put noLoc m (mapKey (e.1 / 2048) x.1) x.2) m e.2.2
  List.foldl one [] s.wholeSaves

/-- Applies one record (R196, R348): a Relocate whose page is torn is not applied. The sequence of a Stage record applied last is kept. -/
def applyRecord (s : State) (p : SMap Nat × SMap Nat × Nat) (e : Nat × JRec) : SMap Nat × SMap Nat × Nat :=
  let (m, st, n) := p
  let r := e.2
  let k := mapKey r.set r.lui
  if e.1 < s.saveStart (2048 * r.set + r.lui / 16777216) then p
  else match r.kind with
    | .stage => (SMap.insert m k r.loc, SMap.insert st k e.1, n + 1)
    | .place => (SMap.insert m k r.loc, SMap.erase st k, n + 1)
    | .trim => (SMap.erase m k, SMap.erase st k, n + 1)
    | .relocate =>
      if SMap.getD s.fl.torn (pmaPlace r.loc) false then (m, st, n) else (SMap.insert m k r.loc, SMap.erase st k, n + 1)

/-- Tag entries of the Stage records read (R121). -/
def tagsOf (j : SMap JRec) : List TagEntry :=
  j.foldl (fun l e =>
    if e.2.kind = .stage ∧ e.2.count ≠ 0 then
      enterTag { tag := e.2.tag, set := e.2.set, lba := 4 * e.2.lui + e.2.first, count := e.2.count } l
    else l) []

/-- A unit whose entry is staged: it is reloaded from its dump page into a slot of the background budget, which R114's table gives to post-Vigil replay, and
which lends and borrows none (R11 over R349's "host-budget"; log entry 170); or into a program shadow, its entry in program, in which it waits for
such a slot as a unit that returns to staging does (R138, R139); without its dump page the entry names that page, torn (R382). -/
def restoreStaged (k : Nat) (seq : Option Nat) (s : State) : State :=
  let set := k / 34359738368
  let lui := k % 34359738368
  let d : Dump := s.nv.dump.getD {}
  let found := (d.units.filter (fun e => e.1.set = set && e.1.lui = lui && e.1.source.isNone
    && (match seq with | some n => e.2 = n | none => true))).getLast?
  match found with
  | some (u, n) =>
    let u : SUnit := { u with origin := .replay, ticket := n, seq := 0 }
    let back := fun (s : State) => match (freeNumbers (s.wr.slots.map (fun e => e.1)) 1752 2008 1).head? with
    | some t =>
      let s := s.modWr (fun w =>
        { w with slots := SMap.insert w.slots t u, backSlots := w.backSlots ++ [t], map := SMap.insert w.map k (stagedLoc t) })
      s.modSet set (fun x => { x with queue := x.queue ++ [t] })
    | none =>
      let j := (freeNumbers (s.wr.shadows.map (fun (e : Nat × SUnit) => e.1)) 0 65536 1).headD 0
      s.modWr (fun w =>
        { w with shadows := SMap.insert w.shadows j u, returning := w.returning ++ [(u, some j)],
                 map := SMap.insert w.map k (shadowLoc j) })
    (back s).inc K.replayUnits
  | none =>
    let place := match locOf (s.entry set lui) with | .staged t => s.slotPma t | _ => s.slotPma 0
    let s := s.modWr (fun w => { w with map := SMap.insert w.map k place })
    restoreTear { typ := 1, planes := 2 ^ pmaPlane place, channel := pmaCh place, die := pmaDie place, block := pmaBlock place,
                  page := pmaPage place, cause := 5, slc := true } s

/-- Parts 4 to 8. -/
def restoreMapping (s : State) : State :=
  let j := s.journalRead
  let start := match j with | e :: _ => e.1 | [] => s.nv.journalDurable
  let stop := firstMissing start j
  let used := j.filter (fun e => decide (e.1 < stop))
  -- The saves loaded are the current ones; their age is that of the restore (R347, R348; log entry 46).
  let s := s.modWr (fun w => { w with savedFrom := s.wholeSaves.map (fun e => (e.1, e.2.1, s.now)) })
  let (m, st, n) := used.foldl (applyRecord s) (s.savedMap, [], 0)
  -- Every entry that holds a PMA takes the buffer's current number (R416).
  let dev := s.get K.deviceNumber
  let m : SMap Nat := m.map (fun e => (e.1, match locOf e.2 with | .media p => dev * 68719476736 + pmaPlace p | _ => e.2))
  let tags := tagsOf used
  let row := vigilRow s.nv
  let last := s.nv.journalEnd
  let s := s.modWr (fun w => { w with map := m, tags := tags, journal := used, jFirst := stop })
  let s := ((s.set K.restoreRecords n).set K.journalSequence stop).set K.journalDurable stop
  let s := s.modNv (fun v => { v with journal := used, journalDurable := stop, journalEnd := stop })
  let s := s.over m (fun s e => match locOf e.2 with
    | .staged _ => restoreStaged e.1 (SMap.find? st e.1) s
    | _ => s)
  let s := s.over s.wr.map (fun s e => match locOf e.2 with | .media p => countValid p true s | _ => s)
  -- A journal gap (R382).
  if 4 ≤ row ∧ stop < last then
    occur 1180 (s.get K.holdupState % 8 + 8) ((s.set K.gapFirst stop).set K.gapLast (last - 1))
  else s

/-! ## Part 9: walks (R194, R346) -/

/-- Resumes the walk of a set whose newest checkpoint does not end it (R194). -/
def restoreWalk (set : Nat) (s : State) : State :=
  match s.newestCkpt set, s.curGen set with
  | some c, some g =>
    if c.boundary = 16 * c.endRow then s
    else
      let w : Walk :=
        { kind := c.kind, target := c.target, endRow := c.endRow, next := c.boundary, boundary := c.boundary, lastCheckpoint := c.boundary,
          moving := [], needSeq := 0, rowsLeft := c.rowsLeft, newChannels := g.channels }
      let s := s.modSet set (fun t => { t with walk := some w })
      showWalk set w (s.set (K.setState set) (if c.kind = 1 then 2 else 3))
  | _, _ => s

/-- What follows of a set: its next row, its losses, its protection (R180, R181), the flags that R184 gives while all its generation records are in
use (R239), and those of age (R249). -/
def restoreEnd (set : Nat) (s : State) : State :=
  let rows := (s.wr.rowBlocks.filter (fun r => r.set = set)).flatMap (fun r => r.rows.map (fun x => (x.1, r.die)))
  let top := rows.foldl (fun (a : Nat × Nat) x => if a.1 ≤ x.1 then x else a) (0, 15)
  let s := s.when (rows ≠ []) (fun s => s.modSet set (fun t => { t with nextRow := max t.nextRow (top.1 + 1), nextDie := (top.2 + 1) % 16 }))
  let s := match s.curGen set with
    | none => s
    | some g => s.over (g.channels.zip g.absent) (fun s e =>
        if s.get (K.chState e.1) = 3 ∨ s.get (K.chState e.1) = 4 then s.when (e.2 ≠ 65535) (noteLoss e.1 16)
        else s.over (List.range 16) (fun s d => s.when (!e.2.testBit d && 3 ≤ s.get (K.chDieState e.1 d)) (noteLoss e.1 d)))
  let s := updateLost set s
  let s := freeGens set s
  let s := s.when (64 ≤ (s.gensInUse set).length) (flagOldest set)
  -- WriteStalled as the erased row blocks stand (R143).
  let s := match s.curGen set with | some g => s.set (K.setWriteStalled set) (if s.hasErased set g then 0 else 1) | none => s
  checkAges set (s.set (K.setProtection set) (min 3 (s.worstLoss set).length))

/-- The restore, part by part (R346), and the record of the last Vigil (R382, R387). -/
def restore (s : State) : State :=
  let d : Dump := s.nv.dump.getD {}
  let minutes := s.fl.hist
  let s := restoreMapping (restorePart3 (restorePart2 (restorePart1 s)))
  let sets := s.nv.gens.map (fun e => e.1)
  let s := s.over sets (fun s n => restoreEnd n (restoreWalk n s))
  -- The state pages of the dump (R375).
  let s := if d.hasState then
      let s := s.over d.saved (fun s e => s.set e.1 e.2)
      let s := s.modFl (fun x => { x with hist := addHist d.hist minutes })
      let s := s.over d.scrub (fun s e => s.modSet e.1 (fun t => { t with scrub := e.2 }))
      cfSave .health (cfSave .scrub (cfSave .dieCounts s))
    else s
  let row := vigilRow s.nv
  let s := (s.set K.lastVigilOutcome row).set K.lastVigilMarks (marksValue s.marks)
  let s := (s.set K.lastVigilDuration (if row = 1 then d.duration % 2 ^ 40 else 0)).set K.dumpUnits d.unitPages
  let s := s.when (row ≠ 0) (cfSave .power)
  { s with pw := { s.pw with restored := true } }

/-- A dump without a unit left to place is released for erase (R349). -/
def releaseEmptyDump (s : State) : State :=
  match s.nv.dump with
  | none => s
  | some d =>
    if s.get K.replayUnits ≠ 0 then s
    else
      let s := s.over d.dies (fun s e => s.over e.2 (fun s x =>
        pushErase e.1 x.1 (if s.density = 2 then 2 * x.2 else x.2) 15 none none s))
      s.modNv (fun v => { v with dump := none })

end Sys2Proof.Machine
end

