-- ==== Sys2Proof/Machine/Bringup.lean ====
section
/-! DEFINITION. Bringup.lean: resets and supplies (R350, R386, R491 to R493), and the start-up sequence (R343 to R349, R365, R366). -/

namespace Sys2Proof.Machine

/-! ## Step 1 (R343, R363, R400, R414) -/

/-- The boot ROM runs: MOD_RST_N is high, the supplies are in range, and no wait for VIN_GOOD stands (R343, R386). -/
def State.bootRuns (s : State) : Bool := !s.pw.resetLow && !s.pw.vinWait && !s.pw.supplyLow && s.pw.aonValid

/-- After a thermal trip every junction sensor not marked faulty must read 95 °C or below: its last conversion since the Cold entry is good, neither
over-range nor settling, and at or below it (R363). -/
def State.cooled (s : State) : Bool :=
  !s.pw.tripped || (List.range 16).all (fun i =>
    (s.get (K.adcSample i)).testBit 4
      || ((SMap.find? s.mon.convertedAt i).isSome && decide (s.get (K.adcSample i) % 4 = 0) && decide (s20 (s.get (K.adcValue i)) ≤ 1520)))

/-- Levels and address that the straps give (R400, R413). -/
def strapObjects (s : State) : State :=
  let (l2, l1, l0) := s.pw.straps
  s.over [0, 1] (fun s p => (s.set (K.sbAddress p) (64 + 9 * l2 + 3 * l1 + l0)).set (K.sbStrapLevels p) (l0 + 4 * l1 + 16 * l2))

/-- The rings that the buffer holds for its own work are set at each Cold entry (R68): enabled and idle (log entry 64). -/
def ownRings (s : State) : State :=
  let s := s.over (List.range 32) (fun s i =>
    let n := 8160 + i
    let s := (((s.set (K.ringBase n) (253952 + 256 * i)).set (K.ringSizeLog2 n) 8).set (K.ringCompletionRing n) (4080 + i / 2)).set (K.ringWeight n) 4
    (s.set (K.ringEnable n) 1).set (K.ringState n) 1)
  s.over (List.range 16) (fun s j =>
    let m := 4080 + j
    let s := ((s.set (K.cringBase m) (126976 + 256 * j)).set (K.cringSizeLog2 m) 8).set (K.cringNotifyCount m) 255
    ((s.set (K.cringNotifyDelay m) 0).set (K.cringNotifyEnable m) 0).set (K.cringEnable m) 1)

/-- The Cold entry is counted and its cause recorded, in code flash before any other write of the start-up (R354): the save is durable at once
(DESIGN CHOICE, log entry 162). -/
def countCold (s : State) : State :=
  let s := (s.inc K.coldEntries).set K.lastColdCause s.pw.cause
  s.modNv (fun n => { n with saved := SMap.insert (SMap.insert n.saved K.coldEntries (s.get K.coldEntries)) K.lastColdCause s.pw.cause })

/-- Step 1 ends when its conditions hold: Bringup is entered, with firmware to verify (R343, R354). -/
def tryStep1 (s : State) : State :=
  if s.mode = 0 ∧ s.bootRuns ∧ s.cooled then
    let s := ownRings (strapObjects s)
    let s := s.set K.role (if s.pw.manager then 1 else 0)
    let s := countCold s
    -- The full scan of the ADC starts (R388).
    let s := { s.modPw (fun p => { p with tripped := false }) with mon := { s.mon with next := 0 } }
    ((changeMode 1 s).report K.healthFlags (if s.get K.clockTrusted = 0 then 4 else 0)).set K.bringupStep 2
  else s

/-! ## Pins and supplies -/

/-- MOD_RST_N_RISE (R343, R400, R414): the straps are sensed and step 1 runs; a supply that had fallen is in range again (R342). -/
def execModRstNRise (l2 l1 l0 : Fin 3) (manager : Bool) (s : State) : Res :=
  .next (if s.pw.resetLow ∧ s.pw.aonValid then
    tryStep1 (s.modPw (fun p => { p with resetLow := false, supplyLow := false, straps := (l2.val, l1.val, l0.val), manager := manager, riseAt := s.now }))
    else s)

/-- Cold is entered from Cold: the cause of a Vigil that no start-up has recorded yet stays (R354, R382; log entry 163). -/
def coldAgain (cause : Nat) (wait : Bool) (s : State) : State :=
  enterCold (if s.pw.cause = 3 ∨ s.pw.cause = 4 then s.pw.cause else cause) wait s

/-- MOD_RST_N_FALL (R342, R350): Cold from any mode, every rail enable low; a Vigil that it meets ends without its End mark (R372). -/
def execModRstNFall (s : State) : Res :=
  .next (if s.pw.resetLow then s
    else
      -- Both sideband ports release the bus (R409).
      let s := (s.emit (.busRelease 0)).emit (.busRelease 1)
      let s := if s.mode = 0 then coldAgain 2 false s
        else if s.mode = 5 then (vigilOver false s).modPw (fun p => { p with cause := 2 })
        else enterCold 2 false s
      (railsOff s).modPw (fun p => { p with resetLow := true, vinWait := false }))

/-- SUPPLY_FALL (R493, R350): a supply monitor trips; `aon` when it is that of VDD_AON, without which CORE_EN is low (R492). Vigil is not
left for it (R350): without a supply its sequence writes no End mark, and it ends at 6 ms, unclean (R372; log entry 169). -/
def execSupplyFall (aon : Bool) (s : State) : Res :=
  .next (
    let s := if s.mode = 0 then (if s.pw.supplyLow then s else coldAgain 7 s.pw.vinWait s)
      else if s.mode = 5 then s else enterCold 7 false s
    (s.when aon railsOff).modPw (fun p => { p with supplyLow := true, aonValid := p.aonValid && !aon, coreEn := p.coreEn && !aon }))

/-- VDD_AON_IN_RANGE (R492): CORE_EN rises, but in S5, and VID is held at code 9. -/
def execVddAonInRange (s : State) : Res :=
  .next (if s.pw.aonValid then s else (s.set K.vidCode 9).modPw (fun p => { p with aonValid := true, coreEn := true }))

/-- VIN_GOOD (R386): VIN_SENSE has stayed above VinGoodLevel for 100 ms after a Vigil, and R343 starts from step 1. -/
def execVinGood (s : State) : Res :=
  .next (if s.mode = 0 ∧ s.pw.vinWait then tryStep1 (s.modPw (fun p => { p with vinWait := false })) else s)

/-! ## Steps 2 to 4 (R460, R461, R446, R370) -/

/-- Log records kept before step 3 are written, oldest first, within 16 in any second (R477). -/
def flushHeld : Nat → State → State
  | 0, s => s
  | n + 1, s =>
    let recent := s.cf.logTimes.filter (fun t => s.now < t + 1000000)
    match s.cf.logHeld with
    | [] => s
    | (src, arg, up) :: r =>
      if recent.length < 16 then
        let x : LogRec := { source := src, arg := arg, minute := s.get K.calendsNow, cold := s.get K.coldEntries % 4096, uptime := up % 2 ^ 40 }
        let s := s.modCf (fun c => { c with logTimes := recent ++ [s.now], logHeld := r })
        flushHeld n (cfAppend .log 2 (duoWords (logDuos x)) (.log src arg x.minute x.cold x.uptime) s)
      else s

/-- Protects a range of sectors until the next Cold entry (R461). -/
def protectRange (first n : Nat) (s : State) : State :=
  s.modCf (fun c => { c with protect := (List.range n).foldl (fun m i => SMap.put false m (first + i) true) c.protect })

/-- Raises the enables of the first rail group, once the groups of an earlier sequence are down (R365). -/
def startRails (s : State) : State :=
  s.modPw (fun p => { p with groups := if p.lowering.isSome then p.groups else 1, hold := false, railRetry := false, railsDone := false })

/-- A port starts its full training (R286, R343 step 6). -/
def startPortTraining (p : Nat) (s : State) : State :=
  ((calStart (120 + p) s).set (K.portLinkState p) 1).modPort p (fun pt => { pt with recovery := 2, fullTraining := true, retry := false })

/-- The hold-up charger is enabled, but never into a reversed bank (R343 step 4, R370). -/
def startCharging (s : State) : State :=
  if s.get K.holdupState = 4 then s else s.modPw (fun p => { p with charger := true, chargeSince := s.now })

/-- The image of a slot is loaded: step 2 ends, and step 3 does what it does (R343, R461). -/
def bootImage (slot : Nat) (s : State) : State :=
  let first := s.bootOrder.head? = some slot
  let img := s.slotWord slot
  let s := ((s.set K.activeSlot slot).set K.firmwareVersion (imgNat img 3)).set K.securityVersion (imgSecurity img)
  let s := protectRange (640 * slot) 640 s
  let s := protectRange 1280 640 s
  let s := protectRange (imgNat img 182 % 4096) (imgNat img 183 % 4096) s
  let s := (s.set K.hostGrantBase 128).set K.hostGrantLimit 3072
  let s := (s.report K.bringupFault 0).set K.bringupStep 3
  let s := s.when (!first) (occur 1217 slot)
  let s := flushHeld 64 s
  let s := declareLoss s.nv.lossKept (s.modNv (fun n => { n with lossKept := [] }))
  -- The die profile comes with the warden firmware (R200).
  let s := s.modFl (fun f => { f with profiles := Config.dieProfiles (imgNat img 3) })
  s.when (s.nv.halfNumber = 0) startCompaction

/-- Steps 3, 4 and 9 take one tick of the idle block each (DESIGN CHOICE, log entry 164). Step 4 measures the bank and starts charging, with step 6
beside it: the ports train. Step 5 raises the first rail group. Step 9 has loaded the calibration, and step 10 waits for its group wait (R343). -/
def bringupTick (s : State) : State :=
  if s.mode ≠ 1 then s
  else match s.get K.bringupStep with
    | 3 => (startPortTraining 2 (startPortTraining 1 (startPortTraining 0 (startCharging s)))).set K.bringupStep 4
    | 4 => startRails (s.set K.bringupStep 5)
    | 5 => if s.pw.groups = 0 ∧ !s.pw.railRetry ∧ !s.pw.railsDone then startRails s else s
    | 9 => s.set K.bringupStep 10
    | _ => s

/-- FIRMWARE_VERIFIED (R460, R343, R345): the first valid image is loaded, or step 2 stays in progress. -/
def execFirmwareVerified (s : State) : Res :=
  .next (if s.mode = 1 ∧ s.get K.bringupStep = 2 then
    match s.bootSlot with
    | none => s.report K.bringupFault 1
    | some slot => bootImage slot s
    else s)

/-! ## Step 5: rails (R364 to R366) -/

/-- The input of pair k is low (R366). -/
def railGone (k : Nat) (s : State) : State :=
  if (s.get K.railPowerGood).testBit k then s.set K.railPowerGood (s.get K.railPowerGood - 2 ^ k) else s

/-- A start-up rail fault on pair k: the rails go down, and the sequence is retried (R365, R366). -/
def railStartFault (k : Nat) (s : State) : State :=
  let s := (occur 1179 (k + 16) s).inc K.railFaults
  lowerRails ((s.report K.bringupFault 4).modPw (fun p => { p with railRetry := true }))

/-- The rails are being sequenced. -/
def State.railsRunning (s : State) : Bool := decide (s.mode = 1) && decide (s.get K.bringupStep = 5) && decide (1 ≤ s.pw.groups) && !s.pw.railsDone
  && s.pw.lowering.isNone

/-- RAIL_POWER_GOOD (R365): every power good of the raised group is high, and its hold begins. -/
def execRailPowerGood (s : State) : Res :=
  .next (if s.railsRunning ∧ !s.pw.hold then
    let bits := (groupPairs s.pw.groups).foldl (fun a k => a + 2 ^ k) 0
    (s.set K.railPowerGood (s.get K.railPowerGood ||| bits)).modPw (fun p => { p with hold := true })
    else s)

/-- Steps 7 and 8 start: DRAM and the flash channels train (R343, R337). -/
def startInterfaces (s : State) : State := s.over (List.range 120) (fun s i => calStart i s)

/-- RAIL_GROUP_HOLD (R365): the group has held 2 ms; the next group is raised, or step 5 ends and DRAM and the channels train (R343). -/
def execRailGroupHold (s : State) : Res :=
  .next (if s.railsRunning ∧ s.pw.hold then
    if s.pw.groups = 4 then
      startInterfaces (((s.set K.bringupStep 7).report K.bringupFault 0).modPw (fun p => { p with hold := false, railsDone := true }))
    else s.modPw (fun p => { p with groups := p.groups + 1, hold := false })
    else s)

/-- RAIL_SEQUENCE_TIMEOUT (R366): a power good of the raised group is not high 20 ms after its enables. -/
def execRailSequenceTimeout (k : Fin 12) (s : State) : Res :=
  .next (if s.railsRunning ∧ !s.pw.hold ∧ (groupPairs s.pw.groups).contains k.val then railStartFault k s else s)

/-- RAIL_POWER_GOOD_LOW (R366): a power good has stayed low for 10 µs: a start-up rail fault before step 5 ends, Cold in Bringup after it, Vigil in
a serving mode; a rail that fails in Vigil leaves its channels without confirmed programs (R386). -/
def execRailPowerGoodLow (k : Fin 12) (s : State) : Res :=
  .next (
    if !(s.get K.railPowerGood).testBit k then s
    else
      let s := railGone k s
      if s.railsRunning then railStartFault k s
      else if s.mode = 1 ∧ s.pw.railsDone then enterCold 7 false s
      else
        let s := if s.serving then enterVigil 2 (decide (k.val ≤ 3)) ((occur 1179 k s).inc K.railFaults) else s
        s.modVigil (fun v => { v with lostRails := v.lostRails ++ [k.val] }))

/-- RAIL_RETRY (R366): the rail sequence starts again from its step 1. -/
def execRailRetry (s : State) : Res := .next (if s.mode = 1 ∧ s.pw.railRetry then startRails s else s)

/-! ## Steps 7 to 9: training (R219, R278) -/

/-- Step 9 (R343): the retention model of the running image goes into the threshold tables (R158), the stored set of every interface with CalSource 2
is formed for the temperature now and applied to what came from it (R329), and RecordsUsable is set. -/
def loadCalibration (s : State) : State :=
  let v := s.get K.firmwareVersion
  let s := s.modFl (fun f => { f with model := (List.range 65536).map (Config.retentionEntry v) })
  let s := s.over (List.range 120) (fun s i => s.when (decide (s.get (calSourceKey i) = 2)) (reapplyStored i))
  s.modPw (fun p => { p with calLoaded := true })

/-- BringupStep while the interfaces train: 7 until DRAM has, 8 until every channel has, then 9, with what it does (R343). Step 6, which runs beside
them, is not reported (DESIGN CHOICE, log entry 164). -/
def trainingAdvance (s : State) : State :=
  if s.mode = 1 ∧ s.pw.railsDone ∧ !s.pw.restored ∧ s.get K.bringupStep < 9 then
    let all := (List.range 96).all (fun c => (s.chan c).trained)
    if !s.pw.dramDone then s.set K.bringupStep 7 else if all then (loadCalibration s).set K.bringupStep 9 else s.set K.bringupStep 8
  else s

/-- CHANNEL_TRAINING (R219): a training of a channel ends, in Bringup or one that Recalibrate or recovery started (R222). -/
def execChannelTraining (c : Fin 96) (r : ChannelResult) (s : State) : Res :=
  .next (
    if s.mode = 1 then (if s.pw.railsDone ∧ !(s.chan c).trained ∧ !s.pw.restored then trainingAdvance (trainChannel c r s) else s)
    else if s.serving ∧ (s.chan c).training.isSome then trainChannel c r s
    else s)

/-- DRAM_TRAINING (R278, R345): all ranks and spare halves have trained; an active rank that fails with no ready spare half keeps step 7. -/
def execDramTraining (ranks : List RankResult) (s : State) : Res :=
  .next (if s.mode = 1 ∧ s.pw.railsDone ∧ !s.pw.dramDone then
    let (bad, s) := trainDram ranks s
    if bad then s.report K.bringupFault 2
    else
      let s := (s.report K.bringupFault 0).modDram (fun d => { d with trained := true })
      trainingAdvance (s.modPw (fun p => { p with dramDone := true }))
    else s)

/-! ## Steps 10 and 11 (R346, R33, R340, R416) -/

/-- The bank lets a serving mode be entered: 1.6 J above the cutoff, and no finding of R370 against it. -/
def State.bankReady (s : State) : Bool :=
  let h := s.get K.holdupState
  decide (1600 ≤ s.get K.holdupEnergy) && decide (h ≠ 4) && decide (h ≠ 5) && decide (h ≠ 6)

/-- GROUP_WAIT_END (R416): a buffer without a number runs standalone, and the restore of step 10 runs. -/
def execGroupWaitEnd (s : State) : Res :=
  .next (if s.mode = 1 ∧ s.get K.bringupStep = 10 ∧ !s.pw.restored then
    let s := if s.get K.groupState = 0 then s.set K.groupState 1 else s
    let s := (restore s).set K.bringupStep 11
    s.report K.bringupFault (if s.bankReady then 0 else 3)
    else s)

/-- Start-up ends (R343 step 11): the serving mode that R340 derives; a fresh dump set is designated, and held doorbells are acted upon. -/
def enterServing (s : State) : State :=
  let s := s.set K.modeReason s.modeReasons
  let s := changeMode (servingMode s.modeReasons) s
  let s := ((s.set K.bringupStep 0).report K.bringupFault 0).set K.bringupElapsed ((s.now - s.pw.riseAt) % 2 ^ 40)
  let s := s.when (decide (s.get K.replayUnits = 0)) releaseEmptyDump
  let s := armVigil (designateDump s)
  startSurvey (releaseDoorbells s)

/-- SERVING_MODE_ENTRY (R343 step 11): once the bank is ready. -/
def execServingModeEntry (s : State) : Res :=
  .next (if s.mode = 1 ∧ s.get K.bringupStep = 11 ∧ s.bankReady then enterServing s else s)

end Sys2Proof.Machine
end

