-- ==== Sys2Proof/Machine/Measure.lean ====
section
/-! DEFINITION. Measure.lean: the monitor ADC (R388 to R398), the thermal limits (R363), and the hold-up bank (R367 to R371). -/

namespace Sys2Proof.Machine

def State.modMon (s : State) (f : Monitor → Monitor) : State := { s with mon := f s.mon }

/-! ## Logarithm -/

/-- 2^64 times ln 2. -/
abbrev lnTwo : Nat := 12786308645202655659

/-- Halves a ratio until it lies below 2: the halvings, numerator and denominator. -/
def lnHalve : Nat → Nat → Nat → Nat → Nat × Nat
  | 0, n, _, b => (n, b)
  | f + 1, n, a, b => if 2 * b ≤ a then lnHalve f (n + 1) a (2 * b) else (n, b)

/-- 2^64 times ln (a / b), for a at or above b: ln 2 for each halving and the series of the inverse hyperbolic tangent for the rest. -/
def lnUp (a b : Nat) : Nat :=
  let (n, b) := lnHalve 64 0 a b
  let x := (a - b) * 18446744073709551616 / (a + b)
  let x2 := x * x / 18446744073709551616
  let (sum, _) := (List.range 24).foldl (fun (e : Nat × Nat) k => (e.1 + e.2 / (2 * k + 1), e.2 * x2 / 18446744073709551616)) (0, x)
  n * lnTwo + 2 * sum

/-- 2^64 times ln (a / b). -/
def lnOf (a b : Nat) : Int := if b ≤ a then (lnUp a b : Int) else -(lnUp b a : Int)

/-! ## Conversions (R389, R390, R395) -/

/-- Millivolts at a source of ±2.5 V range, times a ratio in thousandths, of a code (R390). -/
def codeMv (code : Int) (ratio : Nat) : Int := roundAway (code * 2500 * (ratio : Int)) 524288000

/-- A thermistor reading in 1/16 °C by the β equation (R395): the divider's ratio is 25·code over 12,582,912 − 25·code. -/
def thermistor (code : Nat) : Int :=
  let l := lnOf (25 * code) (12582912 - 25 * code)
  let d : Int := 343500 * 18446744073709551616 + 29815 * l
  roundAway (16 * 29815 * 3435 * 18446744073709551616 * 10 - 43704 * d) (10 * d.natAbs)

/-- Value of an input for a good code (R389, R390): that of a junction sensor and of the peak hold is given with the conversion. -/
def State.adcValueOf (s : State) (i : Nat) (code value : Int) : Int :=
  if i < 16 ∨ i = 46 then value
  else if i < 24 then thermistor code.natAbs
  else if i = 24 then codeMv code (s.get K.vinSenseRatio)
  else if i = 25 then codeMv code (s.get K.holdupSenseRatio)
  else if i < 44 then roundAway (code * 5000) 524288
  else if i < 46 then codeMv code 1000
  else roundAway (code * 2500000) 524288

/-! ## Hold-up bank (R368 to R371) -/

/-- Bank voltage in mV, and its energy above the cutoff in mJ, less what Pepper takes (R368, R487). -/
def State.bankMv (s : State) : Nat := (s20 (s.get (K.adcValue 25))).toNat
def State.bankEnergy (s : State) : Nat :=
  let v := s.bankMv
  let c := s.get K.holdupCutoff
  let e := s.get K.holdupCapacitance * (v * v - c * c) / 2000000000
  min 1048575 (e - (if s.flag K.pepperEnable then s.get K.energyOffset else 0))

/-- HoldupState (R370, R387, R398): below 1.6 J it is charging while the charger runs outside the serving modes, and low otherwise. -/
def State.bankState (s : State) : Nat :=
  if (s.get (K.adcSample 47)).testBit 4 then 0
  else if s.pw.reversed then 4
  else if s.pw.shorted then 5
  else if s.pw.testFailed then 6
  else if s.pw.test then 7
  else if 1600 ≤ s.get K.holdupEnergy then 2
  else if s.pw.charger && !s.serving then 1
  else 3

/-- Reports HoldupState, and in step 11 whether the bank still keeps the buffer out of a serving mode (R33, R345, R370). -/
def reportBank (s : State) : State :=
  let s := s.report K.holdupState s.bankState
  if s.mode = 1 ∧ s.get K.bringupStep = 11 then s.report K.bringupFault (if s.bankReady then 0 else 3) else s

/-- The bank below 1.6 J in a serving mode stops admission, and at 1.7 J admission resumes (R371). -/
def bankLimits (s : State) : State :=
  if !s.serving then s
  else if !s.pw.low && decide (s.get K.holdupEnergy < 1600) then
    occur 1181 1 ((s.modPw (fun p => { p with low := true })).modWr (fun w => { w with admitStop := true }))
  else if s.pw.low && decide (1700 ≤ s.get K.holdupEnergy) then
    occur 1181 0 ((s.modPw (fun p => { p with low := false })).modWr (fun w => { w with admitStop := false }))
  else s

/-- The end of a scan: energy, state and limits of the bank (R368, R370, R371, R398). -/
def bankScan (s : State) : State :=
  let s := s.set K.holdupEnergy (if (s.get (K.adcSample 47)).testBit 4 then 0 else s.bankEnergy)
  let s := s.set K.holdupVoltage (to20 (roundAway (s20 (s.get (K.adcValue 25))) 10))
  let s := s.when (s.pw.shorted && decide (1000 ≤ s.bankMv)) (fun s => s.modPw (fun p => { p with shorted := false }))
  bankLimits (reportBank s)

/-- The charger is restored after a test, but not into a reversed or shorted bank (R369, R370). -/
def restoreCharger (s : State) : State := if s.pw.shorted then s else startCharging s

/-- The energy that a test takes, in mJ: 10 ms of the test load (R369). -/
def State.testCost (s : State) : Nat := s.bankMv * s.bankMv / (10000 * s.get K.holdupTestLoad)

/-- A capacitance test may start (R369): none runs, and with a known capacitance it does not take the energy below 1.6 J. -/
def State.testMayStart (s : State) : Bool :=
  !s.pw.test && !s.pw.reversed && (decide (s.get K.holdupCapacitance = 0) || decide (1600 + s.testCost ≤ s.get K.holdupEnergy))

/-- Starts a capacitance test: the charger off, the load on, and V0 from the latest conversion if it is good, else from the next good one
(R369, R412). -/
def startTest (s : State) : State :=
  if s.testMayStart then
    let good := decide (s.get (K.adcSample 25) % 4 = 0) && (SMap.find? s.mon.convertedAt 25).isSome
    let s := s.modPw (fun p => { p with test := true, charger := false })
    let s := s.modMon (fun m => { m with v0 := if good then some s.bankMv else none, v1Due := false })
    reportBank s
  else s

/-- Ends a test with V0 and V1 (R369): C = t / (R ln (V0 / V1)); V1 not below V0, or C below 10 % of the previous C, fails it. -/
def finishTest (v0 v1 : Nat) (s : State) : State :=
  let old := s.get K.holdupCapacitance
  let l := if v1 = 0 then 0 else lnUp (max v0 v1) v1
  let c := if l = 0 then 0 else (roundAway (100000 * 18446744073709551616) (s.get K.holdupTestLoad * l)).toNat
  let fails := decide (v0 ≤ v1) || decide (v1 = 0) || decide (10 * c < old)
  let s := s.modPw (fun p => { p with test := false, testFailed := fails, measured := p.measured || !fails })
  let s := s.modMon (fun m => { m with v0 := none, v1Due := false })
  let s := if fails then s else cfSave .power (s.set K.holdupCapacitance (min 1048575 c))
  reportBank (restoreCharger s)

/-- What a conversion of the bank input does (R370, R392, R412): `ovr` with its direction, or good. -/
def bankConverted (good ovr : Bool) (code : Int) (s : State) : State :=
  let was := s.pw.reversed
  let now := if ovr then decide (code < 0) else if good then decide (code < -104857) else was
  let s := s.modPw (fun p => { p with reversed := now, charger := p.charger && !now })
  let s := s.when (now && !was) (fun s => occur 1180 4 (reportBank s))
  if !good || !s.pw.test then s
  else match s.mon.v0 with
    | none => s.modMon (fun m => { m with v0 := some s.bankMv })
    | some v0 => if s.mon.v1Due then finishTest v0 s.bankMv s else s

/-! ## Thermal limits (R363) -/

/-- A junction sensor takes part in the limits: converted, and not faulty. -/
def State.junctionOk (s : State) (i : Nat) : Bool := (SMap.find? s.mon.convertedAt i).isSome && !(s.get (K.adcSample i)).testBit 4

/-- A junction sensor lies at or above a limit: a saturated reading lies beyond every limit (R392). -/
def State.junctionAt (s : State) (i : Nat) (limit : Int) : Bool :=
  (s.get (K.adcSample i)).testBit 0 || decide (limit ≤ s20 (s.get (K.adcValue i)))

/-- A thermal trip (R363): Vigil from a serving mode, Cold from Bringup; the count lasts over the buffer's life. -/
def thermalTrip (i : Nat) (s : State) : State :=
  if s.serving ∨ s.mode = 1 then
    let s := (occur 1178 i s).inc K.thermalTrips
    let s := s.modNv (fun n => { n with saved := SMap.insert n.saved K.thermalTrips (s.get K.thermalTrips) })
    let s := s.modPw (fun p => { p with tripped := true })
    if s.mode = 1 then enterCold 7 false s else enterVigil 3 false s
  else s

/-- A conversion of a junction sensor: JunctionMax, the warning and the trip (R363, R394). -/
def junctionConverted (i : Nat) (s : State) : State :=
  let ok := (List.range 16).filter s.junctionOk
  let vs := (ok.filter (fun j => SMap.getD s.mon.valued j false)).map (fun j => s20 (s.get (K.adcValue j)))
  let s := match vs with | [] => s | v :: r => s.set K.junctionMax (to20 (r.foldl max v))
  let warn := s20 (s.get K.junctionWarn)
  let s :=
    if decide (s.mode ≠ 0) && !s.pw.reduced && s.junctionOk i && s.junctionAt i warn then
      occur 1177 (i + 16) (digestChanged (s.modPw (fun p => { p with reduced := true })))
    else if s.pw.reduced && ok.all (fun j => !s.junctionAt j (warn - 79)) then
      occur 1177 i (digestChanged (s.modPw (fun p => { p with reduced := false, skipNext := false })))
    else s
  if s.junctionOk i && s.junctionAt i 1728 then thermalTrip i s else s

/-! ## Faulty inputs (R394, R395, R397, R398) -/

/-- Marks an input, with the event MonitorFault. -/
def markFaulty (i channel : Nat) (s : State) : State :=
  let x := s.get (K.adcSample i)
  let s := s.set (K.adcSample i) (if x.testBit 4 then x else x + 16)
  let s := s.modMon (fun m => { m with goodRun := SMap.erase m.goodRun i })
  occur 1182 (i + 64 * channel) (s.inc K.monitorFaults)

/-- Clears the mark of an input. -/
def clearFaulty (i : Nat) (s : State) : State :=
  let x := s.get (K.adcSample i)
  occur 1182 (i + 8192) (s.set (K.adcSample i) (if x.testBit 4 then x - 16 else x))

/-- A check of an input that eight consecutive good conversions clear (R395, R398): `bad` and `good` of this conversion. -/
def checkInput (i : Nat) (bad good : Bool) (s : State) : State :=
  let marked := (s.get (K.adcSample i)).testBit 4
  if bad then (if marked then s.modMon (fun m => { m with goodRun := SMap.erase m.goodRun i }) else markFaulty i 0 s)
  else if !marked then s
  else if !good then s.modMon (fun m => { m with goodRun := SMap.erase m.goodRun i })
  else if SMap.getD s.mon.goodRun i 0 = 7 then clearFaulty i (s.modMon (fun m => { m with goodRun := SMap.erase m.goodRun i }))
  else s.modMon (fun m => { m with goodRun := SMap.modify m.goodRun i 0 (fun k => k + 1) })

/-- The check of a channel's pin-current monitor (R397): conversion and peak converter, in 0.1 mA. -/
def checkPinMonitor (c : Nat) (value peak : Int) (s : State) : State :=
  if (s.chan c).driversOff ∨ s.get K.powerState ≠ 0 ∨ SMap.getD s.mon.faultyCh c false then s
  else if 400 + max value peak < 20 * (value - peak).natAbs then
    markFaulty 46 c (s.modMon (fun m => { m with faultyCh := SMap.insert m.faultyCh c true }))
  else s

/-! ## Conversions (R388, R391 to R393) -/

/-- Inputs that the ADC converts now: none while MOD_RST_N is low or in S5, the junction sensors in step 1, all of them after it (R388). -/
def State.adcInputs (s : State) : Nat :=
  if s.mode = 0 then (if s.bootRuns then 16 else 0) else if s.get K.powerState = 5 then 0 else 48

/-- The code that Pepper forces on an input (R487). -/
def State.adcForced (s : State) (i : Nat) : Option Int :=
  if s.flag K.pepperEnable && decide (s.get K.adcInput = i) && decide (s.get K.adcConversions ≠ 0) then
    match s.get K.adcForce with | 1 => some 524287 | 2 => some (-524288) | _ => none
  else none

/-- One conversion of an input: code, the value of an input whose code has no voltage, and the peak converter's figure. -/
def convert (i : Nat) (code value peak : Int) (s : State) : State :=
  let forced := s.adcForced i
  let code := forced.getD code
  let s := s.when forced.isSome (fun s => (s.sub K.adcConversions 1).inc K.adcInjected)
  let ovr := decide (code = 524287) || decide (code = -524288)
  let settle := decide (s.mon.settle ≠ 0)
  let good := !ovr && !settle
  let old := s.get (K.adcSample i)
  let kept := (if old.testBit 4 then 16 else 0) + (if old.testBit 3 || ovr then 8 else 0)
  let s := s.set (K.adcSample i) (1048576 * to20 code + kept + (if settle then 2 else 0) + (if ovr then 1 else 0))
  let s := s.when ovr (fun s => s.inc (K.adcOverRanges i))
  let s := s.when settle (fun s => s.inc K.settleDiscards)
  let s := s.modMon (fun m =>
    { m with settle := if ovr then 3 else m.settle - 1, convertedAt := SMap.insert m.convertedAt i s.now })
  let takes := fun (s : State) => s.set (K.adcValue i) (to20 (s.adcValueOf i code value))
  if i < 16 then
    let s := s.when (ovr && decide (code < 0) && !old.testBit 4) (markFaulty i 0)
    junctionConverted i (s.when good (fun s => (takes s).modMon (fun m => { m with valued := SMap.insert m.valued i true })))
  else if i < 24 then
    if (s.get K.thermistorMask).testBit (i - 16) then
      let out := decide (492830 < code) || decide (code < 10486)
      let s := checkInput i ((ovr || good) && out) (good && !out) s
      -- A faulty input keeps its last good Value (R395).
      s.when (good && !out && !(s.get (K.adcSample i)).testBit 4) takes
    else s
  else if i = 25 then bankConverted good ovr code (s.when good takes)
  else if i = 46 then
    let s := s.when good takes
    s.when good (checkPinMonitor (s.get K.scanCount % 96) value peak)
  else if i = 47 then
    let v := s.adcValueOf 47 code value
    let out := ovr || decide (v < 995000) || decide (1005000 < v)
    checkInput i ((ovr || good) && out) (good && !out) (s.when good takes)
  else s.when good takes

/-- ADC_CONVERSION (R388): the next input of the scan converts; the scan ends with input 47. In step 1 the junction sensors alone convert,
for the end of a thermal trip (R363). -/
def execAdcConversion (raw value peak : BitVec 20) (s : State) : Res :=
  .next (
    let n := s.adcInputs
    if n = 0 then s
    else
      let i := s.mon.next % n
      let s := s.modMon (fun m => { m with next := (i + 1) % n })
      let s := convert i (s20 raw.toNat) (s20 value.toNat) (s20 peak.toNat) s
      if s.mode = 0 then tryStep1 s
      else if i = 47 then bankScan (s.inc K.scanCount)
      else s)

/-! ## Commands of the bank (R369, R370) -/

/-- BANK_SHORTED (R370): the charger has been enabled for 500 ms and the bank is still below 1 V. -/
def execBankShorted (s : State) : Res :=
  .next (if s.pw.charger ∧ s.bankMv < 1000 then
    reportBank (s.modPw (fun p => { p with shorted := true, charger := false }))
    else s)

/-- HOLDUP_CHARGE_RETRY (R370): one retry every 10 s. -/
def execHoldupChargeRetry (s : State) : Res :=
  .next (if s.pw.shorted ∧ !s.pw.charger ∧ 1 ≤ s.mode ∧ s.mode ≤ 4 then startCharging s else s)

/-- HOLDUP_TEST (R369): at Bringup, once the bank voltage has stopped rising. -/
def execHoldupTest (s : State) : Res := .next (if s.mode = 1 ∧ s.pw.charger then startTest s else s)

/-- HOLDUP_TEST_PERIOD (R369): every HoldupTestPeriod in serving modes. -/
def execHoldupTestPeriod (s : State) : Res := .next (if s.serving then startTest s else s)

/-- A write of 1 to HoldupTestStart (R369). -/
def holdupTestStartEffect (s : State) : State := startTest s

/-- HOLDUP_TEST_END (R369, R412): after 10 ms V1 is taken, from the latest conversion if it is good, else from the next good one. -/
def execHoldupTestEnd (s : State) : Res :=
  .next (if s.pw.test then
    match s.mon.v0 with
    | none => s
    | some v0 =>
      if s.get (K.adcSample 25) % 4 = 0 then finishTest v0 s.bankMv s
      else s.modMon (fun m => { m with v1Due := true })
    else s)

end Sys2Proof.Machine
end

