-- ==== Sys2Proof/Machine/Group.lean ====
section
/-! DEFINITION. Group.lean: the board group (R414 to R444): the peer ring, formation and roster, barriers and snapshots, board reset, and transfers
between buffers. -/

namespace Sys2Proof.Machine

def State.modGrp (s : State) (f : Group → Group) : State := { s with grp := f s.grp }

/-- The buffer is the manager of its ring (R414). -/
abbrev State.isManager (s : State) : Bool := decide (s.get K.role = 1)

/-! ## Roster (R418, R422, R444) -/

/-- Fields of a roster entry. -/
def State.rosterField (s : State) (k at_ width : Nat) : Nat := s.get (K.rosterEntry k) / 2 ^ at_ % 2 ^ width
abbrev State.rosterState (s : State) (k : Nat) : Nat := s.rosterField k 37 3

/-- Writes a field of a roster entry. -/
def setRoster (k at_ width v : Nat) (s : State) : State :=
  let e := s.get (K.rosterEntry k)
  s.set (K.rosterEntry k) (e - s.rosterField k at_ width * 2 ^ at_ + v % 2 ^ width * 2 ^ at_)

/-- Device numbers of the members that the manager's roster names: itself, and members, sleeping or leaving. -/
def State.rosterMembers (s : State) : List Nat :=
  (List.range 16).filter (fun k => k = 0 || (2 ≤ s.rosterState k && s.rosterState k ≤ 4))

def maskOf (l : List Nat) : Nat := (List.range 16).foldl (fun a k => if l.contains k then a + 2 ^ k else a) 0

/-! ## Sending (R421, R442) -/

/-- A peer port carries packets, now or after a recovery or a wake. -/
def State.portUsable (s : State) (p : Nat) : Bool := 2 ≤ s.get (K.portLinkState p)

/-- A port whose neighbour slept, off at this side too, comes back: a fast retrain, as from S3 (R301, R312, R442; log entry 172). -/
def portAwake (p : Nat) (s : State) : State := (startRetrain p 7 s).modPort p (fun pt => { pt with partnerAsleep := false })

/-- A sleeping neighbour is woken through the wake pattern; the packet is held until the port is up (R442). -/
def wakeNeighbour (p : Nat) (s : State) : State :=
  if (s.port p).partnerAsleep then portAwake p (s.emit (.wakePattern p)) else s

/-- Direction and hops to a device: for the manager the fewer working hops, east on a tie; for a worker the way to the manager that its
broadcasts show, and east to any other member (R421). -/
def State.route (s : State) (dest : Nat) : Nat × Nat :=
  if s.isManager then
    let e := s.rosterField dest 33 4
    let w := s.rosterField dest 29 4
    if e ≠ 0 ∧ (w = 0 ∨ e ≤ w) ∧ s.portUsable 1 then (1, e) else if w ≠ 0 then (2, w) else (1, e)
  else if dest = 0 then (s.grp.mgrPort, s.grp.mgrHops)
  else if s.portUsable 1 then (1, 15) else (2, 15)

/-- Sends a control packet to a device (R420). -/
def sendControl (subtype dest argument duo1 : Nat) (s : State) : State :=
  let (p, hops) := s.route dest
  sendPeer p 0x13 0 0 dest hops argument duo1 false subtype (wakeNeighbour p s)

/-- Sends a packet to every wanted member: east only on an unbroken ring, both ways on a broken one, each arm with the hops of its farthest
such member; one for all of them goes round an unbroken ring (R421). -/
def broadcastTo (want : Nat → Bool) (mk : Nat → Nat → PeerPacket) (s : State) : State :=
  let far := fun (at_ : Nat) => ((List.range 16).map (fun k =>
    if want k ∧ 2 ≤ s.rosterState k ∧ s.rosterState k ≤ 4 then s.rosterField k at_ 4 else 0)).foldl max 0
  let arms := match s.grp.ringSize with
    | some n => if s.portUsable 1 && s.portUsable 2 then [(1, if s.rosterMembers.all want then n else far 33)] else [(1, far 33), (2, far 29)]
    | none => [(1, far 33), (2, far 29)]
  s.over (arms.filter (fun a => a.2 ≠ 0 && s.portUsable a.1)) (fun s a => sendPacket a.1 (.peer (mk a.1 a.2)) (wakeNeighbour a.1 s))

/-- Sends a packet to every member. -/
abbrev broadcastPacket (mk : Nat → Nat → PeerPacket) (s : State) : State := broadcastTo (fun _ => true) mk s

/-- A broadcast control packet of the manager. -/
def controlPacket (subtype argument : Nat) (s : State) (port hops : Nat) : PeerPacket :=
  { typ := 0x13, tag := 0, status := 0, source := 0, dest := 0, broadcast := true, west := decide (port = 2), hops := hops,
    generation := s.get K.rosterGeneration, subtype := subtype, argument := argument, duo1 := 0, words := [], frame := 0 }

/-- Broadcasts a control packet. -/
def broadcastControl (subtype argument : Nat) (s : State) : State := broadcastPacket (controlPacket subtype argument s) s

/-- Raises GroupChange with the members of a roster (R479). -/
def groupChanged (mask : Nat) (s : State) : State := occur 1224 (mask % 65536 + 65536 * s.get K.groupState) s

/-- The roster has changed: its generation counts, and the manager broadcasts Roster (R418, R440). -/
def rosterChanged (s : State) : State :=
  let l := s.rosterMembers
  let s := (s.inc20 K.rosterGeneration).set K.memberCount l.length
  groupChanged (maskOf l) (broadcastControl 0x04 (maskOf l) s)

/-! ## Arrival (R419 to R421) -/

/-- Forwards a packet through the port's through queue, once it fits into it (R421). -/
def forwardPacket (out : Nat) (k : PeerPacket) (s : State) : State :=
  if !s.portUsable out then s
  else
    let s := wakeNeighbour out s
    pump out (s.modPort out (fun pt => acceptThrough { pt with through := pt.through ++ [{ k with through := true }] }))

/-- The buffer is a member of a group. -/
def State.isMember (s : State) : Bool := s.isManager || (2 ≤ s.get K.groupState && s.get K.groupState ≤ 4)

/-- A packet as it is passed on, with one hop less left. -/
def passOn (h : PeerHdr) (typ subtype : Nat) (ws : List Word) (frame : Payload) : PeerPacket :=
  { typ := typ, tag := h.tag.toNat, status := h.status.toNat, source := h.source.toNat, dest := h.dest.toNat, broadcast := h.broadcast, west := h.west,
    hops := h.hops.toNat - 1, generation := h.generation.toNat, subtype := subtype, argument := h.argument.toNat, duo1 := h.duo1.toNat, words := ws,
    frame := frame }

/-- A packet from a peer port comes to a buffer in S3 or below through the wake pattern; in S1 and S2 the ports go on (R312, R442). -/
def arrivalWake (s : State) : State := if 3 ≤ s.get K.powerState then exitPower 3 3 s else s

/-- A broadcast control packet by which a member that has lost the manager finds it again: Discover, Roster or Heartbeat. -/
def findsManager (typ subtype : Nat) : Bool := decide (typ = 0x13) && (decide (subtype = 1) || decide (subtype = 4) || decide (subtype = 5))

/-- The manager notes when a member was last heard (R422). -/
def heardFrom (h : PeerHdr) (s : State) : State :=
  s.when s.isManager (fun s => s.modGrp (fun g => { g with heard := SMap.insert g.heard h.source.toNat s.now }))

/-- A packet is sent in the wrong direction: one for the manager to someone else, a broadcast of the manager as no broadcast, or another as one (R420). -/
def wrongWay (typ subtype : Nat) (h : PeerHdr) : Bool :=
  let toManager := h.broadcast || decide (h.dest ≠ 0)
  match typ with
  | 0x11 => toManager
  | 0x12 => !h.broadcast
  | 0x13 => if [0x02, 0x06, 0x07, 0x09, 0x0D].contains subtype then toManager else if subtype = 0x03 then h.broadcast else !h.broadcast
  | _ => h.broadcast

/-- A packet that arrives on a peer port: one sent in the wrong direction is discarded whole and counted (R420); discarded in Vigil and without power; taken by its destination, by every member for a broadcast,
and forwarded otherwise (R421); every buffer that it reaches takes one from HopsLeft (log entry 50). A member that has lost the manager serves
none, but for those by which it finds the manager again (R440, log entry 107). -/
def peerArrive (port : Nat) (h : PeerHdr) (typ subtype : Nat) (ws : List Word) (frame : Payload) (take : State → State) (s : State) : State :=
  if port = 0 ∨ s.mode = 0 ∨ s.mode = 5 then s
  else if wrongWay typ subtype h then (arrivalWake s).inc (K.portMalformedPackets port)
  else
    let s := heardFrom h (arrivalWake s)
    let left := h.hops.toNat - 1
    let fwd := passOn h typ subtype ws frame
    let out := if port = 1 then 2 else 1
    let lost := decide (s.get K.groupState = 4)
    if h.broadcast then
      if s.isManager then take s
      else
        let old := (s.grp.grantGen + 1048576 - h.generation.toNat) % 1048576
        if s.isMember && decide (old ≠ 0) && decide (old < 524288) then s
        else
          let s := s.when (decide (left ≠ 0)) (forwardPacket out fwd)
          let s := s.modGrp (fun g => { g with mgrPort := port, mgrHops := max 1 (s.get K.memberCount - 1 - left) })
          if lost && !findsManager typ subtype then s else take s
    else
      let mine := if h.dest = 0 then s.isManager else decide (s.get K.deviceNumber = h.dest.toNat) && s.isMember
      if mine then (if lost then s else take s)
      else if left = 0 then s.inc K.misroutedPackets
      else forwardPacket out fwd s

/-- A control packet that arrives. -/
def controlArrive (port : Nat) (h : PeerHdr) (subtype : Nat) (take : State → State) (s : State) : State :=
  peerArrive port h 0x13 subtype [] 0 take s

/-! ## EQX_N and snapshots (R428 to R433) -/

/-- Drives EQX_N low: the pending barrier is armed. -/
def armBarrier (s : State) : State :=
  ((s.set K.barrierState 1).set K.eqxDriving 1).set K.eqxLine 0 |>.modGrp (fun g => { g with rearm := false, joining := false })

/-- Releases EQX_N for good: standalone, or left. -/
def releaseEqx (s : State) : State :=
  ((s.set K.barrierState 0).set K.eqxDriving 0).modGrp (fun g => { g with rearm := false, joining := false })

/-- Completions that a snapshot held are posted (R432). -/
def releaseHold (s : State) : State :=
  postHeld (s.modRings (fun r => { r with snapHold := false }))

/-- Abandons a snapshot: posting resumes at once (R432). -/
def abandonSnapshot (s : State) : State := if s.get K.barrierState = 3 then (releaseHold s).set K.snapshotState 3 else s

/-- An arrival is in range: the barrier is armed and the number is its (R429). -/
def State.arriveOk (s : State) (v : Nat) : Bool := decide (s.get K.barrierState = 1) && decide (v % 1048576 = s.get K.barrierNumber)

/-- The buffer arrives at its barrier and releases EQX_N; with the Snapshot bit it holds completions (R428, R429, R432). -/
def arriveEffect (v : Nat) (s : State) : State :=
  let snap := v.testBit 39
  let s := ((s.set K.barrierState (if snap then 3 else 2)).set K.eqxDriving 0).modGrp (fun g => { g with arrivedAt := s.now })
  s.when snap (fun s => s.modRings (fun r => { r with snapHold := true }))

/-- A write to StartAll: the manager arrives, and ArriveAll arrives every member (R429). -/
def startAllEffect (v : Nat) (s : State) : State :=
  broadcastControl 0x0B ((if v.testBit 39 then 2147483648 else 0) + v % 1048576) (arriveEffect v s)

/-- What ArriveAll does where it is taken (R429). -/
def takeArriveAll (h : PeerHdr) (s : State) : State :=
  let a := h.argument.toNat
  let v := (if a.testBit 31 then 549755813888 else 0) + a % 1048576
  if s.arriveOk v then arriveEffect v s else s

/-- ARRIVE_ALL (R429): it arrives the member, unless that arrival is out of range (R443). -/
def execArriveAll (port : Fin 3) (h : PeerHdr) (s : State) : Res :=
  .next (controlArrive port h 0x0B (takeArriveAll h) s)

/-- A pending barrier completes (R430), and with it the cut of a snapshot that holds posts (R432, R433). -/
def completeBarrier (n : Nat) (s : State) : State :=
  if s.get K.barrierState = 3 then
    let cut := s.get K.journalSequence
    let s := ((s.set K.snapshotNumber n).set K.snapshotSequence cut).set K.snapshotState 1
    let s := programJournalPage (releaseHold (s.set K.barrierState 2))
    let s := occur 1225 (n % 524288 + 524288) s
    if s.isManager then
      let s := s.over (List.range 16) (fun s k => s.set (K.snapshotTable k) allOnes40)
      let s := (s.set (K.snapshotTable 0) cut).set K.snapshotGathered 1
      broadcastControl 0x0C n s
    else s
  else occur 1225 (n % 524288) s

/-- The next barrier number, armed once the rearm time has passed (R430). -/
def nextBarrier (s : State) : State :=
  (s.set K.barrierNumber ((s.get K.barrierNumber + 1) % 1048576)).modGrp (fun g => { g with rearm := true })

/-- EQX_N_RISE (R430): the line is high through the filter; the pending barrier completes, and a snapshot's cut is captured (R432, R433). -/
def execEqxNRise (s : State) : Res :=
  .next (
    let s := s.set K.eqxLine 1
    if s.mode = 5 ∨ s.mode = 0 then s
    else if s.grp.joining then nextBarrier s
    else if s.get K.barrierState < 2 ∨ s.grp.rearm then s
    else completeBarrier (s.get K.barrierNumber) (nextBarrier (s.set K.lastBarrierTime ((s.now - s.grp.arrivedAt) % 2 ^ 40))))

/-- EQX_REARM (R430): 1.2 µs after its completion the next barrier is armed. -/
def execEqxRearm (s : State) : Res := .next (if s.grp.rearm ∧ s.isMember ∧ s.mode ≠ 5 then armBarrier s else s)

/-- EQX_N_FALL (R359): the line falls, and wakes a member below S0. -/
def execEqxNFall (s : State) : Res := .next (if s.mode = 0 ∨ s.mode = 5 then s.set K.eqxLine 0 else exitPower 3 3 (s.set K.eqxLine 0))

/-- BARRIER_TIMEOUT (R431). -/
def execBarrierTimeout (s : State) : Res :=
  .next (if (s.get K.barrierState = 2 ∨ s.get K.barrierState = 3) ∧ !s.grp.rearm ∧ s.mode ≠ 5 then
    (occur 1226 (s.get K.barrierNumber % 524288) (abandonSnapshot s)).set K.barrierState 4 else s)

/-- SNAPSHOT_HOLD_LIMIT (R432). -/
def execSnapshotHoldLimit (s : State) : Res :=
  .next (if s.get K.barrierState = 3 ∧ s.mode ≠ 5 then (abandonSnapshot s).set K.barrierState 2 else s)

/-- SNAPSHOT_DURABLE (R433): JournalDurable has reached the cut. -/
def execSnapshotDurable (s : State) : Res :=
  .next (if s.get K.snapshotState = 1 ∧ s.get K.snapshotSequence ≤ s.get K.journalDurable then s.set K.snapshotState 2 else s)

/-- What SnapshotGather does where it is taken (R433). -/
def takeSnapshotGather (h : PeerHdr) (s : State) : State :=
  if s.isManager then s
  else
    let n := h.argument.toNat % 1048576
    let valid := decide (s.get K.snapshotNumber = n) && (decide (s.get K.snapshotState = 1) || decide (s.get K.snapshotState = 2))
    sendControl 0x0D 0 (n + (if valid then 1048576 else 0)) (if valid then s.get K.snapshotSequence else 0) s

/-- SNAPSHOT_GATHER (R433): every member answers with its cut. -/
def execSnapshotGather (port : Fin 3) (h : PeerHdr) (s : State) : Res :=
  .next (controlArrive port h 0x0C (takeSnapshotGather h) s)

/-- What SnapshotReport does where it is taken (R433). -/
def takeSnapshotReport (h : PeerHdr) (s : State) : State :=
  let a := h.argument.toNat
  if s.isManager ∧ a.testBit 20 ∧ a % 1048576 = s.get K.snapshotNumber then
    (s.set (K.snapshotTable h.source.toNat) h.duo1.toNat).set K.snapshotGathered (s.get K.snapshotGathered ||| 2 ^ h.source.toNat)
  else s

/-- SNAPSHOT_REPORT (R433): the manager enters a valid cut into SnapshotTable. -/
def execSnapshotReport (port : Fin 3) (h : PeerHdr) (s : State) : Res :=
  .next (controlArrive port h 0x0D (takeSnapshotReport h) s)

/-! ## Transfers (R436, R437) -/

/-- A start is in range (R436, R443). -/
def State.transferOk (s : State) : Bool :=
  let d := s.get K.transferDevice
  let set := s.get K.transferSourceSet
  let n := s.get K.transferUnits
  -- A worker knows the members of the group from the last Roster only by their count (log entry 51).
  let member := if s.isManager then (s.rosterMembers.contains d) else s.isMember
  member && decide (d ≠ s.get K.deviceNumber) && decide (s.get (K.setState set) ≠ 0)
    && decide (s.get K.transferSourceFirst + n ≤ s.get (K.setLogicalUnits set)) && decide (n ≠ 0) && decide (s.get K.transferState ≠ 1) && s.fetches

def transferStartEffect (s : State) : State :=
  (((s.set K.transferState 1).set K.transferUnitsDone 0).set K.transferUnitsSuperseded 0).modGrp (fun g => { g with xfer := some (0, []) })

/-- Stops the transfer that this buffer sources. -/
def stopTransfer (s : State) : State :=
  if s.get K.transferState = 1 then (s.set K.transferState 3).modGrp (fun g => { g with xfer := none }) else s

/-- A write of 1 to TransferStop: TransferState becomes 3 (R444). -/
def transferStopEffect (s : State) : State := (s.set K.transferState 3).modGrp (fun g => { g with xfer := none })

/-- A frame of a page as a transfer takes it, which reads as a READ does: read, recovered from its stripe, or lost with its record (R436, R164,
R167). -/
def transferFrame (x : Stripe) (pos : Nat) (os : List PageOutcome) (s : State) (f : Nat) : Option Payload × State :=
  let erased := s.erasedAt x f os
  match s.frameOr x f pos erased with
  | some p => (some p, s.when (erased.contains pos) (fun s => (countLadder (nth x.gen.channels pos 127) 4 s).inc K.framesReconstructed))
  | none => (none, declareStripeLoss 0 x f erased s)

/-- Reads the page of a transferred unit, and where frames of it are erased, the other members that recover those (R164, R436). -/
def transferReads (x : Stripe) (pos : Nat) (os : List PageOutcome) (s : State) : State :=
  let q := (x.gen.parity x.rb.die x.rb.block x.wl).2
  let hurt := (List.range 4).filter (fun f => (s.erasedAt x f os).contains pos)
  let withQ := hurt.any (fun f => s.needsQ x f pos os)
  let others := (x.gen.present x.rb.die).filter (fun p => p ≠ pos && (withQ || p ≠ q) && s.memberRead x p)
  let t := s.when (s.memberRead x pos) (fun s => readMember x (List.range 4) os s pos)
  if hurt = [] then t else t.over others (readMember x hurt os)

/-- Frames of a unit as a transfer sends them, none for a unit with no location. -/
def transferRead (set lui : Nat) (os : List PageOutcome) (s : State) : Option (List (Option Payload)) × State :=
  match locOf (s.entry set lui) with
  | .none => (none, s)
  | .staged k => ((SMap.find? s.wr.slots k).map (fun u => u.frames.map some), s)
  | .shadow j => ((SMap.find? s.wr.shadows j).map (fun u => u.frames.map some), s)
  | .media p =>
    match s.stripeOf p with
    | none => (some ((List.range 4).map (fun f => some (s.mediaFrame p f))), s.inc (K.chPageReads (pmaCh p)))
    | some (x, pos) =>
      if SMap.getD s.fl.torn (pmaPlace p) false then (some (List.replicate 4 none), s)
      else
        let (os, s) := forceOutcomes x 3 [pos] (List.range 4) os s
        let (fs, s) := (List.range 4).foldl (fun (a : List (Option Payload) × State) f =>
          let r := transferFrame x pos os a.2 f
          (a.1 ++ [r.1], r.2)) ([], transferReads x pos os s)
        (some fs, s)

/-- Unit i of a transfer is sent as it was read: its four frames, or one packet for no location (R436). -/
def sendUnit (i : Nat) (unit : Option (List (Option Payload))) (s : State) : State :=
  let dst := s.get K.transferDestFirst + i
  let set := s.get K.transferDestSet
  let dev := s.get K.transferDevice
  let (port, hops) := s.route dev
  let s := wakeNeighbour port s
  let pkt := fun (f status : Nat) (p : Payload) =>
    ({ typ := 0x14, tag := 0, status := status, source := s.get K.deviceNumber, dest := dev, broadcast := false, west := decide (port = 2), hops := hops,
       generation := s.get K.rosterGeneration, subtype := 0, argument := 0, duo1 := set * 2 ^ 37 + f * 2 ^ 35 + dst, words := [],
       frame := p } : PeerPacket)
  match unit with
  | none => sendPacket port (.peer (pkt 0 2 0)) s
  | some fs => s.over (fs.zip (List.range 4)) (fun s e => match e.1 with
      | some p => sendPacket port (.peer (pkt e.2 (if (metaOf p).kind = 8 then 1 else 0) p)) s
      | none => sendPacket port (.peer (pkt e.2 1 0)) s)

/-- TRANSFER_UNIT_SEND (R436): the source resolves its next unit, reads it and sends its frames, or one packet for no location. -/
def execTransferUnitSend (outcomes : List PageOutcome) (s : State) : Res :=
  .next (match s.grp.xfer with
    | none => s
    | some (i, out) =>
      if s.get K.transferUnits ≤ i ∨ !s.fetches then s
      else
        let (unit, s) := transferRead (s.get K.transferSourceSet) (s.get K.transferSourceFirst + i) outcomes s
        (sendUnit i unit s).modGrp (fun g => { g with xfer := some (i + 1, out ++ [s.get K.transferDestFirst + i]) }))

/-- A frame as the destination stages it: its own Lba, no tag, and a carried loss where the source had one (R436). -/
def arrivedFrame (lui f status : Nat) (p : Payload) : Payload :=
  if status = 1 then carriedLoss (4 * lui + f) else payloadOf (payloadData p) { metaOf p with lba := 4 * lui + f, tag := 0, seq := 0 }

/-- What TransferData does where it is taken (R436). -/
def takeTransferData (port : Fin 3) (h : PeerHdr) (frame : Payload) (s : State) : State :=
  let d := h.duo1.toNat
  let set := d / 2 ^ 37
  let f := d / 2 ^ 35 % 4
  let lui := d % 2 ^ 35
  let src := h.source.toNat
  let found := s.grp.arriving.find? (fun x => x.source = src && x.set = set && x.lui = lui)
  let refused := decide (s.get (K.setState set) = 0) || decide (s.get (K.setLogicalUnits set) ≤ lui) || decide (s.get K.groupState = 3)
  if found.isNone && refused then ackTransfer src port lui 2 s
  else
    let x : XferUnit := found.getD
      { source := src, port := port.val, set := set, lui := lui, entry := s.entry set lui, frames := [], empty := decide (h.status = 2) }
    let y : XferUnit := if x.empty then x else { x with frames := SMap.insert x.frames f (arrivedFrame lui f h.status.toNat frame) }
    let s := s.modGrp (fun g => { g with arriving := match found with | some z => mapIf (fun e => e = z) (fun _ => y) g.arriving | none => g.arriving ++ [y] })
    s.when y.complete commitTransfers

/-- TRANSFER_DATA (R436): a frame, or a unit with no location, reaches its destination; with the fourth frame the unit commits. -/
def execTransferData (port : Fin 3) (h : PeerHdr) (frame : Payload) (s : State) : Res :=
  .next (peerArrive port h 0x14 0 [] frame (fun s => takeTransferData port h frame (exitPower 3 port s)) s)

/-- What TransferAck does where it is taken (R436, R437). -/
def takeTransferAck (h : PeerHdr) (s : State) : State :=
  match s.grp.xfer with
  | none => s
  | some (i, out) =>
    let lui := h.duo1.toNat % 2 ^ 35
    if !out.contains lui then s
    else if h.status = 2 then stopTransfer s
    else
      let s := s.inc (if h.status = 0 then K.transferUnitsDone else K.transferUnitsSuperseded)
      let rest := out.erase lui
      let s := s.modGrp (fun g => { g with xfer := some (i, rest) })
      if rest = [] ∧ s.get K.transferUnits ≤ i then (s.set K.transferState 2).modGrp (fun g => { g with xfer := none }) else s

/-- TRANSFER_ACK (R436, R437): the destination has committed, superseded or refused a unit. -/
def execTransferAck (port : Fin 3) (h : PeerHdr) (s : State) : Res :=
  .next (peerArrive port h 0x15 0 [] 0 (takeTransferAck h) s)

/-! ## Board reset (R434, R435) -/

/-- Step 2 and 3 of an orderly reset at a member: nothing is fetched or admitted, open rows close, and walks write their checkpoints. -/
def prepareReset (s : State) : State :=
  let s := (s.modRings (fun r => { r with stopped := true })).modGrp (fun g => { g with preparing := true, reported := false })
  s.over s.wr.sets (fun s e => match e.2.walk with | some w => checkpoint e.1 w s | none => s)

/-- The orderly reset is abandoned: fetching and admission resume, and the doorbells held meanwhile are acted upon (R434). -/
def resumeReset (s : State) : State :=
  if s.grp.preparing then
    releaseDoorbells ((s.modRings (fun r => { r with stopped := false })).modGrp (fun g => { g with preparing := false, reported := false }))
  else s

/-- A member has drained (R434): nothing staged or in program, and the journal and the retained writes durable. -/
def State.isDrained (s : State) : Bool :=
  decide (s.wr.slots = []) && decide (s.wr.shadows = []) && s.wr.returning.isEmpty && s.wr.waitingUnits.isEmpty
    && s.wr.sets.all (fun e => e.2.rows.isEmpty)
    && decide (s.get K.journalDurable = s.get K.journalSequence) && decide (s.get K.retainedDurable = s.get K.retainedAccepted)

/-- The manager broadcasts Reset (R435). -/
def sendReset (immediate : Bool) (s : State) : State := (broadcastControl 0x0A (if immediate then 1 else 0) s).set K.resetState 2

/-- With the last report of an orderly reset, Reset is broadcast (R434). -/
def checkDrained (s : State) : State :=
  if s.get K.resetState = 1 ∧ s.rosterMembers.all (fun k => s.grp.drained.contains k) then sendReset false s else s

def orderlyResetEffect (s : State) : State :=
  prepareReset (broadcastControl 0x08 0 ((s.set K.resetState 1).modGrp (fun g => { g with drained := [] })))
def immediateResetEffect (s : State) : State := sendReset true s

/-- What ResetPrepare does where it is taken (R434). -/
def takeResetPrepare (s : State) : State :=
  if s.isManager then s else prepareReset s

/-- RESET_PREPARE (R434). -/
def execResetPrepare (port : Fin 3) (h : PeerHdr) (s : State) : Res :=
  .next (controlArrive port h 0x08 (takeResetPrepare) s)

/-- DRAIN_COMPLETE (R434): the conditions of Drained hold. -/
def execDrainComplete (s : State) : Res :=
  .next (if s.grp.preparing ∧ !s.grp.reported ∧ s.isDrained then
    let s := s.modGrp (fun g => { g with reported := true })
    if s.isManager then checkDrained (s.modGrp (fun g => { g with drained := g.drained ++ [0] })) else sendControl 0x09 0 0 0 s
    else s)

/-- What Drained does where it is taken (R434). -/
def takeDrained (h : PeerHdr) (s : State) : State :=
  if s.isManager ∧ s.get K.resetState = 1 then checkDrained (s.modGrp (fun g => { g with drained := g.drained ++ [h.source.toNat] })) else s

/-- DRAINED (R434): a member has reported to the manager. -/
def execDrained (port : Fin 3) (h : PeerHdr) (s : State) : Res :=
  .next (controlArrive port h 0x09 (takeDrained h) s)

/-- RESET_DRAIN_LIMIT (R434): the reset is refused, and every member resumes. -/
def execResetDrainLimit (s : State) : Res :=
  .next (if s.get K.resetState = 1 then
    let late := s.rosterMembers.filter (fun k => !s.grp.drained.contains k)
    let s := (s.set K.resetState 3).set K.resetStragglers (maskOf late)
    resumeReset (broadcastControl 0x04 (maskOf s.rosterMembers) s)
    else s)

/-- What Reset does where it is taken (R435). -/
def takeReset (s : State) : State :=
  if s.isManager then s else enterCold 5 false s

/-- RESET (R435): the member enters Cold. -/
def execReset (port : Fin 3) (h : PeerHdr) (s : State) : Res :=
  .next (controlArrive port h 0x0A (takeReset) s)

/-- MANAGER_RESET_DELAY (R435): the manager enters Cold 2.0 ms after Reset. -/
def execManagerResetDelay (s : State) : Res := .next (if s.get K.resetState = 2 then enterCold 5 false s else s)

/-! ## Formation (R415, R416, R418) -/

/-- The manager is past step 3 of its start-up (R418). -/
def State.pastStep3 (s : State) : Bool := s.serving || (decide (s.mode = 1) && decide (3 < s.get K.bringupStep))

/-- DISCOVER_TIMER (R418): the manager sends Discover on each port that is up. -/
def execDiscoverTimer (s : State) : Res :=
  .next (if s.isManager ∧ s.pastStep3 then
    s.over ([1, 2].filter (fun p => s.get (K.portLinkState p) = 2)) (fun s p =>
      sendPeer p 0x13 0 0 0 15 (s.get K.barrierNumber) 0 true 0x01 s)
    else s)

/-- A worker seeks a place: in Bringup before step 10, or serving with a number of this group (R415, R416, R438). -/
def State.seeksPlace (s : State) : Bool :=
  !s.isManager && decide (s.get K.groupState ≠ 2) && decide (s.get K.groupState ≠ 3)
    && ((decide (s.mode = 1) && !s.pw.restored) || (s.serving && decide (s.get K.deviceNumber ≠ 0)))

/-- What Discover does where it is taken (R418). -/
def takeDiscover (port : Fin 3) (h : PeerHdr) (s : State) : State :=
  if s.isManager then s.modGrp (fun g => { g with ringSize := some (16 - h.hops.toNat) })
  else if s.seeksPlace then
    let held := s.get K.deviceNumber
    let arg := held * 2 ^ 28 + (if s.serving then 2 ^ 27 else 0) + s.mode * 2 ^ 24 + s.get K.lastDeviceNumber * 2 ^ 20
    sendPeer port 0x13 0 0 0 15 arg 0 false 0x02 (s.modGrp (fun g => { g with asked := true }))
  else s

/-- DISCOVER (R418): a worker answers with JoinRequest toward the manager; the manager's own, come back, tells it the ring is unbroken. -/
def execDiscover (port : Fin 3) (h : PeerHdr) (s : State) : Res :=
  .next (controlArrive port h 0x01 (takeDiscover port h) s)

/-- The number that the manager chooses for a requester, if it admits it (R415): `side` and `d` say where the requester sits. -/
def State.chooseNumber (s : State) (held last : Nat) (serving : Bool) (side d : Nat) : Option Nat :=
  let same := fun (k : Nat) => decide (s.rosterState k ≠ 0) && decide (s.rosterField k (if side = 1 then 33 else 29) 4 = d)
  let free := fun (k : Nat) => decide (1 ≤ k) && decide (k ≤ 15) && (decide (s.rosterState k = 0) || same k)
  match (List.range 16).find? (fun k => decide (1 ≤ k) && same k && (!serving || decide (k = held))) with
  | some k => some k
  | none =>
    if serving then
      if held = 0 then none
      else if free held then some held
      -- Two workers hold the number: the one fewer hops east is admitted (R415).
      else if side = 1 ∧ (s.rosterField held 33 4 = 0 ∨ d < s.rosterField held 33 4) then some held else none
    else if free last then some last
    else ((List.range 16).filter free).head?

/-- What JoinRequest does where it is taken (R415, R418). -/
def takeJoinRequest (port : Fin 3) (h : PeerHdr) (s : State) : State :=
  let a := h.argument.toNat
  let serving := a.testBit 27
  let d := 16 - h.hops.toNat
  if !s.isManager || !s.pastStep3 then s
  else match s.chooseNumber (a / 2 ^ 28) (a / 2 ^ 20 % 16) serving port d with
    | none => s
    | some n =>
      let east := if port.val = 1 then d else match s.grp.ringSize with | some k => k - d | none => 0
      let west := if port.val = 2 then d else match s.grp.ringSize with | some k => k - d | none => 0
      let s := s.set (K.rosterEntry n) (2 * 2 ^ 37 + east % 16 * 2 ^ 33 + west % 16 * 2 ^ 29 + a / 2 ^ 24 % 8 * 2 ^ 26)
      let s := s.modGrp (fun g => { g with heard := SMap.insert g.heard n s.now })
      let s := if s.get K.groupState = 2 then s else armBarrier (s.set K.groupState 2)
      let s := s.inc20 K.rosterGeneration
      let s := sendPeer port 0x13 0 0 n d (n * 2 ^ 28 + s.get K.barrierNumber) 0 false 0x03 s
      let l := s.rosterMembers
      groupChanged (maskOf l) (broadcastControl 0x04 (maskOf l) (s.set K.memberCount l.length))

/-- JOIN_REQUEST (R415, R418): the manager chooses a number and sends Grant; the roster changes. -/
def execJoinRequest (port : Fin 3) (h : PeerHdr) (s : State) : Res :=
  .next (controlArrive port h 0x02 (takeJoinRequest port h) s)

/-- A Grant that is taken (R415, R416, R418, R428). A new LastDeviceNumber is a retained write, and counts as one in RetainedAccepted and
RetainedDurable, which the manual does not say (R45; DESIGN CHOICE, log entry 150). -/
def takeGrant (n barrier gen : Nat) (s : State) : State :=
  let running := decide (barrier ≠ 0) || s.serving
  let s := (s.set K.deviceNumber n).set K.groupState 2
  let s := if s.get K.lastDeviceNumber = n then s else retainWrite K.lastDeviceNumber n (s.set K.lastDeviceNumber n)
  let s := (s.set K.barrierNumber barrier).set K.rosterGeneration gen
  let s := s.modGrp (fun g => { g with grantGen := gen, asked := false })
  if running then s.modGrp (fun g => { g with joining := true }) else armBarrier s

/-- GRANT (R418): taken where HopsLeft reaches 0, by a worker that seeks a place and may take the number (R416); forwarded before. -/
def execGrant (port : Fin 3) (h : PeerHdr) (s : State) : Res :=
  .next (
    let n := h.argument.toNat / 2 ^ 28
    let here := decide (h.hops.toNat ≤ 1) && s.seeksPlace && s.grp.asked && (decide (s.mode = 1) || decide (n = s.get K.deviceNumber))
    if port.val ≠ 0 ∧ s.mode ≠ 0 ∧ s.mode ≠ 5 ∧ wrongWay 0x13 0x03 h then (arrivalWake s).inc (K.portMalformedPackets port)
    else if here ∧ port.val ≠ 0 then takeGrant n (h.argument.toNat % 1048576) h.generation.toNat (arrivalWake s)
    else if port.val = 0 ∨ s.mode = 0 ∨ s.mode = 5 then s
    else if h.hops.toNat ≤ 1 then s.inc K.misroutedPackets
    else forwardPacket (if port.val = 1 then 2 else 1) (passOn h 0x13 0x03 [] 0) (arrivalWake s))

/-- What the loss of members ends at this buffer: transfers that touch them (R440). -/
def dropMembers (mask : Nat) (s : State) : State :=
  let gone := fun (k : Nat) => !mask.testBit k
  let s := s.when (s.grp.xfer.isSome && gone (s.get K.transferDevice)) stopTransfer
  s.modGrp (fun g => { g with arriving := g.arriving.filter (fun x => !gone x.source) })

/-- What Roster does where it is taken (R418, R434, R439, R440). -/
def takeRoster (h : PeerHdr) (s : State) : State :=
  if s.isManager then s
  else
    let m := h.argument.toNat % 65536
    let n := s.get K.deviceNumber
    if s.isMember then
      let s := (s.set K.rosterGeneration h.generation.toNat).set K.memberCount ((List.range 16).filter (fun k => m.testBit k)).length
      let s := if s.get K.groupState = 3 ∧ m.testBit n = false then releaseEqx (s.set K.groupState 1) else s
      groupChanged m (resumeReset (dropMembers m s))
    else if s.grp.asked ∧ s.serving ∧ n ≠ 0 ∧ m.testBit n then s.set K.groupState 5
    else s

/-- ROSTER (R418, R434, R439, R440): every member raises GroupChange; a worker that is leaving and no longer named has left; an orderly
reset is over; a worker whose number another holds reads refused (R415). -/
def execRoster (port : Fin 3) (h : PeerHdr) (s : State) : Res :=
  .next (controlArrive port h 0x04 (takeRoster h) s)

/-! ## Heartbeats and the loss of members (R422, R439 to R441) -/

/-- HEARTBEAT_TIMER (R422): Heartbeat to every member that is not sleeping. -/
def execHeartbeatTimer (s : State) : Res :=
  let awake := fun (k : Nat) => decide (s.rosterState k ≠ 3)
  .next (if s.isManager ∧ s.pastStep3 ∧ s.rosterMembers.any (fun k => k ≠ 0 && awake k) then broadcastTo awake (controlPacket 0x05 0 s) s else s)

/-- What Heartbeat does where it is taken (R422). -/
def takeHeartbeat (s : State) : State :=
  if s.isManager || !s.isMember then s
  else
    let s := if s.get K.groupState = 4 then s.set K.groupState 2 else s
    sendControl 0x06 0 (s.mode * 2 ^ 24 + s.get K.powerState * 2 ^ 21 + (if s.grp.reported then 2 ^ 20 else 0)) 0 s

/-- HEARTBEAT (R422): a member answers with Status. -/
def execHeartbeat (port : Fin 3) (h : PeerHdr) (s : State) : Res :=
  .next (controlArrive port h 0x05 (takeHeartbeat) s)

/-- What Status does where it is taken (R422). -/
def takeStatus (h : PeerHdr) (s : State) : State :=
  let k := h.source.toNat
  let a := h.argument.toNat
  if !s.isManager || decide (s.rosterState k = 0) then s
  else
    let s := setRoster k 23 3 (a / 2 ^ 21 % 8) (setRoster k 26 3 (a / 2 ^ 24 % 8) s)
    let back := decide (s.rosterState k = 5) || decide (s.rosterState k = 3)
    let s := s.when back (fun s => rosterChanged (setRoster k 37 3 2 s))
    s.when (a.testBit 20 && decide (s.get K.resetState = 1)) (fun s => checkDrained (s.modGrp (fun g => { g with drained := g.drained ++ [k] })))

/-- STATUS (R422): the manager updates the member's roster entry. -/
def execStatus (port : Fin 3) (h : PeerHdr) (s : State) : Res :=
  .next (controlArrive port h 0x06 (takeStatus h) s)

/-- The manager has lost a member: its work in flight is resolved and the others are told (R440). -/
def memberGone (k state : Nat) (s : State) : State :=
  let s := setRoster k 37 3 state s
  let s := s.over s.grp.relays (fun s e => if e.2.2 = k then s.set (K.relayState + (e.1 + 1) * pathStride) 3 else s)
  let s := s.modGrp (fun g => { g with relays := g.relays.filter (fun e => e.2.2 ≠ k) })
  let s := s.set K.snapshotGathered ((maskOf ((List.range 16).filter (fun i => i ≠ k && (s.get K.snapshotGathered).testBit i))))
  checkDrained (dropMembers (maskOf s.rosterMembers) (rosterChanged s))

/-- MEMBER_UNREACHABLE (R422, R440): nothing has been heard from a member for 20 ms. -/
def execMemberUnreachable (k : Fin 16) (s : State) : Res :=
  .next (if s.isManager ∧ k.val ≠ 0 ∧ s.rosterState k = 2 then memberGone k 5 s else s)

/-- MANAGER_UNREACHABLE (R441): a worker has had no Heartbeat for 20 ms. -/
def execManagerUnreachable (s : State) : Res :=
  .next (if !s.isManager ∧ s.get K.groupState = 2 ∧ s.mode ≠ 0 ∧ s.mode ≠ 5 then s.set K.groupState 4 else s)

/-- What Leave does where it is taken (R439). -/
def takeLeave (h : PeerHdr) (s : State) : State :=
  if s.isManager ∧ h.source ≠ 0 ∧ s.rosterState h.source.toNat ≠ 0 then memberGone h.source.toNat 0 s else s

/-- LEAVE (R439): the manager removes the worker from the roster. -/
def execLeave (port : Fin 3) (h : PeerHdr) (s : State) : Res :=
  .next (controlArrive port h 0x07 (takeLeave h) s)

/-- A write of 0x1EA5E to GroupLeave at a worker (R439, R443). -/
def groupLeaveEffect (s : State) : State :=
  if s.get K.groupState = 2 ∨ s.get K.groupState = 4 then
    let s := releaseEqx (abandonSnapshot (stopTransfer (s.set K.groupState 3)))
    sendControl 0x07 0 0 0 s
  else s

/-- A Power flit from a neighbour on a peer port (R442): code 3 it goes to sleep, code 7 it enters Vigil; the manager's roster shows it
(DEDUCED, log entry 157). -/
def peerPowerFlit (p code : Nat) (s : State) : State :=
  let s := s.when (decide (code = 3)) (fun s => (s.set (K.portLinkState p) 7).modPort p (fun pt => { pt with partnerAsleep := true }))
  if s.isManager then
    match (List.range 16).find? (fun k => decide (1 ≤ k) && decide (s.rosterState k = 2) && decide (s.rosterField k (if p = 1 then 33 else 29) 4 = 1)) with
    | some k => if code = 3 then setRoster k 37 3 3 s else memberGone k 5 s
    | none => s
  else s

end Sys2Proof.Machine
end

