-- ==== Sys2Proof/Machine/Power.lean ====
section
/-! DEFINITION. Power.lean: power states below S0 (R355 to R361, R442) and the Power flits (R313). -/

namespace Sys2Proof.Machine

/-! ## Conditions (R357) -/

/-- Bits of PowerBlock that are set: the conditions of R357 that fail (R387). -/
def State.powerBlocked (s : State) (k : Nat) : Bool :=
  match k with
  | 0 => decide (s.mode ≠ 2) && decide (s.mode ≠ 3)
  | 1 => decide (s.rings.ops ≠ []) || decide (s.rings.held ≠ []) || decide (s.rings.aborts ≠ []) || decide (s.rings.migrations ≠ [])
      || decide (s.rings.heldPosts ≠ [])
      || s.enabledRings.any (fun n => decide (s.get (K.ringHead n) ≠ s.get (K.ringTail n)))
  | 2 => s.rings.unnoticed.any (fun e => s.flag (K.cringNotifyEnable e.1) && decide (e.2.2.1 + s.get (K.cringNotifyDelay e.1) ≤ s.now)) || (s.port 0).unsent.any (fun k => match k with | .notice _ _ _ => true | _ => false)
  | 3 => decide (s.grp.relays ≠ [])
  | 4 => decide (s.wr.slots ≠ []) || decide (s.wr.returning ≠ []) || decide (s.wr.waitingUnits ≠ [])
      || s.fl.dies.any (fun e => e.2.cur.isSome || decide (e.2.progs ≠ []) || decide (e.2.reads ≠ []))
  | 5 => decide (s.get K.journalDurable ≠ s.get K.journalSequence)
  | 6 => decide (s.get K.retainedDurable ≠ s.get K.retainedAccepted)
  | 7 => (List.range 8).any (fun n => decide (s.harvestState n = 2))
  | 8 => (List.range 3).any (fun p => decide ((s.port p).replay ≠ []) || decide ((s.port p).unreported ≠ 0))
  | _ => false

/-- PowerBlock (R357, R387). -/
def State.powerBlock (s : State) : Nat := (List.range 9).foldl (fun a k => if s.powerBlocked k then a + 2 ^ k else a) 0

/-- The conditions of R357 that keep a state below S0: all of them, but that the peer ports go on forwarding in S1 and S2 (R442; log entry 165). -/
def State.powerHeld (s : State) : Bool :=
  (List.range 8).all (fun k => !s.powerBlocked k) && decide ((s.port 0).replay = []) && decide ((s.port 0).unreported = 0)

/-- A state below S0 that a condition of R357 no longer allows ends: the buffer returns to S0 (R341, R357). -/
def leaveUnheld (s : State) : State := holdPower s.powerHeld s

/-! ## Entry (R312, R356, R358, R361, R362, R442) -/

/-- A port as a power state leaves it: the peer ports keep forwarding in S1 and S2 (R312, R442). -/
def portDown (k p : Nat) (s : State) : State :=
  if s.get (K.portLinkState p) ≠ 2 then s
  else if p = 0 then (sendControlFlit 0 (powerFlit 0 4) s).set (K.portLinkState 0) (if k = 1 then 5 else if k = 2 then 6 else 7)
  else if 3 ≤ k then (sendControlFlit p (powerFlit p 3) s).set (K.portLinkState p) 7
  else s

/-- Enters a power state below S0. -/
def enterPower (k : Nat) (s : State) : State :=
  let s := if 3 ≤ k then
      let s := cfSave .health (cfSave .scrub (cfSave .calends (cfSave .dieCounts s)))
      (s.modWr (fun w => { w with cache := if sramFate .mapCache k = .discarded then [] else w.cache })).modFl (fun f =>
        { f with retunes := if sramFate .retunes k = .discarded then [] else f.retunes })
    else s
  let s := portDown k 2 (portDown k 1 (portDown k 0 s))
  let s := if k = 1 then idleRanks 10 (fun x => { x with powerDown := true }) s else idleRanks 5 (fun x => { x with selfRefresh := true }) s
  let s := s.when (decide (k = 3) || decide (k = 4)) (vidMove 0)
  let s := { s with pw := { s.pw with request := none, coreEn := decide (k ≠ 5), parked := if 3 ≤ k then parkedIn k else s.pw.parked } }
  (s.report K.powerState k).inc K.powerEntries

/-- Queues the wake image, two copies, in a format private to the warden (R361, R455); WakeImageValid says of the last one whether it matches the settings
in use. -/
def writeWakeImage (s : State) : State :=
  let (i, s) := s.free
  let w := [BitVec.ofNat 20 (Config.freeNat i), 0]
  cfAppend .wakeImage 2 w (.save .wakeImage) (cfAppend .wakeImage 2 w (.save .wakeImage) { s with pw := { s.pw with imageStale := false } })

/-- POWER_STATE_ENTRY (R358, R361): a request held in S0 is met once R357 holds; S5 first has its wake image written. -/
def execPowerStateEntry (s : State) : Res :=
  .next (match s.pw.request with
    | none => s
    | some k =>
      if s.get K.powerState ≠ 0 ∨ s.powerBlock ≠ 0 then s
      else if k = 5 ∧ s.get K.wakeImageValid = 0 then (if s.imagePending then s else writeWakeImage s)
      else enterPower k s)

/-- AUTO_POISE (R358). -/
def execAutoPoise (s : State) : Res :=
  .next (if s.get K.autoPoiseIdle ≠ 0 ∧ s.get K.powerState = 0 ∧ s.pw.request = none ∧ s.powerBlock = 0 then enterPower 1 s else s)

/-- The parked regions that an exit left are reloaded in the background, after S5 once the wake image has been read (R359, R361). -/
def reloadParked (s : State) : State :=
  s.when (decide (s.get K.powerState = 0) && !(s.cf.cur.toList ++ s.cf.queue).any (fun d => decide (d.purpose = .wakeRead)))
    (fun s => { s with pw := { s.pw with parked := [] } })

/-- SAVE_TIMER (R360): in S1 to S4 the core wakes to save the die counters and the clock, and returns to its state. -/
def execSaveTimer (s : State) : Res :=
  .next (if 1 ≤ s.get K.powerState ∧ s.get K.powerState ≤ 4 then (cfSave .calends (cfSave .dieCounts s)).set K.wakeCause 4 else s)

/-! ## Power flits (R313, R358, R442) -/

/-- A request for a state below S0 from the host controller, held until R357 holds; after a failed wake image S4 stands for S5 (R358,
R361). -/
def requestPower (k : Nat) (s : State) : State :=
  if s.serving ∧ s.get K.powerState = 0 then
    { s with pw := { s.pw with request := some (if k = 5 ∧ s.pw.s5Denied then 4 else k) } }
  else s

/-- POWER_ENTER_S1 (R358). -/
def execPowerEnterS1 (port : Fin 3) (ctl : FlitCtl) (s : State) : Res :=
  .next (rxFlit port ctl (powerPayload 1) 3 (fun s => if port = 0 then requestPower 1 s else s) s)

/-- POWER_ENTER_S2 (R358). -/
def execPowerEnterS2 (port : Fin 3) (ctl : FlitCtl) (s : State) : Res :=
  .next (rxFlit port ctl (powerPayload 2) 3 (fun s => if port = 0 then requestPower 2 s else s) s)

/-- POWER_ENTER_DEEP (R358, R442): the state that DeepestState names; on a peer port the neighbour goes to sleep. -/
def execPowerEnterDeep (port : Fin 3) (ctl : FlitCtl) (s : State) : Res :=
  .next (rxFlit port ctl (powerPayload 3) 3 (fun s => if port = 0 then requestPower (s.get K.deepestState) s else peerPowerFlit port 3 s) s)

/-- POWER_ACKNOWLEDGE (R313): the partner acknowledges; the flit's link control is taken. -/
def execPowerAcknowledge (port : Fin 3) (ctl : FlitCtl) (s : State) : Res := .next (rxFlit port ctl (powerPayload 4) 3 id s)

/-- POWER_VIGIL (R442): a neighbour on a peer port enters Vigil. -/
def execPowerVigil (port : Fin 3) (ctl : FlitCtl) (s : State) : Res :=
  .next (rxFlit port ctl (powerPayload 7) 3 (fun s => if port = 0 then s else peerPowerFlit port 7 s) s)

/-- WAKE_PATTERN (R313, R359): the partner wakes the link, and the buffer with it; a port whose neighbour slept retrains. -/
def execWakePattern (port : Fin 3) (s : State) : Res :=
  .next (
    if s.mode = 0 ∨ s.mode = 5 ∨ s.get (K.portLinkState port) < 6 then s
    else if s.get K.powerState ≠ 0 then exitPower (if port = 0 then 1 else 3) port s
    else portAwake port s)

end Sys2Proof.Machine
end

