-- ==== Sys2Proof/Machine/Faults.lean ====
section
/-! DEFINITION. Faults.lean: handshake watchdogs and VDD_CORE (R13 to R15), wedged stages (R482, R483), warden faults (R481), event sources (R474)
and Pepper (R485). -/

namespace Sys2Proof.Machine

/-! ## Handshake watchdogs and VID (R14, R15, R362, R484) -/

/-- Raises VDD_CORE by one step: at once, or at the end of 10 µs since the code last changed; at code 9 VidLimit is raised (R14, R362, R479). -/
def vidRaise (cls : Nat) (s : State) : State :=
  let code := s.get K.vidCode
  if 9 ≤ code then occur 1169 cls s
  else
    if s.vidRecent then s.modEv (fun e => { e with vidPending := true })
    else vidSet (code + 1) (s.inc K.vidRaises)

/-- HANDSHAKE_WATCHDOG (R14, R484): a trip of a stage's watchdog, `pepper` when a Pepper delay causes it. -/
def execHandshakeWatchdog (cls : Fin 8) (stage : Fin 4096) (pepper : Bool) (s : State) : Res :=
  .next (
    let s := (occur (1152 + cls) stage s).modEv (fun e => { e with tripAt := some s.now })
    if pepper && s.flag K.pepperEnable then
      let n := s.get (K.stagePhases cls)
      let was := s.pepperActive
      if n = 0 ∨ n = 0xFFFFF then s else pepperChanged was (s.set (K.stagePhases cls) (n - 1))
    else vidRaise cls s)

/-- VID_STEP_WAIT_END (R14, R362): the code that a mode or a power state waits for takes effect, else the pending raise. -/
def execVidStepWaitEnd (s : State) : Res :=
  .next (if s.ev.vidTarget.isSome then vidSet (s.ev.vidTarget.getD 9) s
    else if s.ev.vidPending then
    let code := s.get K.vidCode
    if 9 ≤ code then s.modEv (fun e => { e with vidPending := false }) else vidSet (code + 1) (s.inc K.vidRaises)
    else s)

/-- VID_LOWER (R15): every slack monitor has reported slack for 1 ms; no watchdog has tripped in it, and the code may change. -/
def execVidLower (s : State) : Res :=
  .next (
    let code := s.get K.vidCode
    let tripped := match s.ev.tripAt with | some t => decide (s.now < t + 1000) | none => false
    if s.serving ∧ s.get K.powerState ≤ 2 ∧ code ≠ 0 ∧ !tripped ∧ !s.vidRecent ∧ !s.ev.vidPending ∧ s.ev.vidTarget.isNone then vidSet (code - 1) (s.inc K.vidLowers) else s)

/-! ## Wedged stages (R482 to R484) -/

/-- Scope of the abort that cleans up a stage: 0 a link reset of a port, 1 a channel, 2 the device, 3 code flash, with its target (R482, R479). -/
def wedgeScope (cls stage : Nat) : Nat × Nat :=
  if cls = 7 ∧ 96 ≤ stage ∧ stage ≤ 98 then (0, stage - 96)
  else if (cls = 7 ∨ cls = 4) ∧ stage < 96 then (1, stage)
  else if cls = 7 ∧ (stage = 99 ∨ stage = 100) then (3, 0)
  else (2, 0)

/-- Step 2: the abort of the stage's scope. -/
def wedgeAbort (cls stage : Nat) (s : State) : State :=
  match wedgeScope cls stage with
  | (0, p) => startLinkReset p 0 true false s
  | (k, t) => startAbort k t none s

/-- STAGE_WEDGED (R482, R483): the event, a dump, Recovery, and the abort; a stage that wedges within 60 s of its last clean-up is fenced. -/
def execStageWedged (cls : Fin 8) (stage : Fin 4096) (pepper : Bool) (s : State) : Res :=
  .next (
    let c : Nat := cls
    let t : Nat := stage
    if (c, t) ∈ s.ev.wedged ∨ (c, t) ∈ s.ev.fenced then s
    else
      let again := s.ev.cleaned.any (fun e => decide (e.1 = c) && decide (e.2.1 = t) && decide (s.now < e.2.2 + 60000000))
      let s := faultDump (occur (1160 + c) (t + (if again then 4096 else 0)) s)
      -- A delay that Pepper forces has its trip before it (R487); the wedge itself runs the whole clean-up (R484).
      let s := s.modEv (fun e => if again then { e with fenced := e.fenced ++ [(c, t)] } else { e with wedged := e.wedged ++ [(c, t)] })
      let _ := pepper
      if s.mode = 0 ∨ s.mode = 5 then s else leaveUnheld (wedgeAbort c t (deriveMode s)))

/-- The abort of step 2 has ended. -/
def State.wedgeAborted (s : State) (cls stage : Nat) : Bool :=
  match wedgeScope cls stage with
  | (0, p) => decide ((s.port p).recovery ≠ 2)
  | (k, t) => !(s.rings.aborts.any (fun a => a.op.isNone && decide (a.scope = k) && decide (a.target = t)))

/-- STAGE_SELF_TEST (R482 steps 3 and 4, R483): the stage returns to service, or is fenced until the next Cold entry. -/
def execStageSelfTest (cls : Fin 8) (stage : Fin 4096) (passed : Bool) (s : State) : Res :=
  .next (
    let c : Nat := cls
    let t : Nat := stage
    if (c, t) ∉ s.ev.wedged ∨ s.wedgeAborted c t = false then s
    else
      let s := s.modEv (fun e => { e with wedged := e.wedged.erase (c, t) })
      if passed then
        let s := s.modEv (fun e => { e with cleaned := e.cleaned.filter (fun x => x.1 ≠ c || x.2.1 ≠ t) ++ [(c, t, s.now)] })
        deriveMode s
      else deriveMode (occur (1160 + c) (t + 4096) (s.modEv (fun e => { e with fenced := e.fenced ++ [(c, t)] }))))

/-! ## Loss of members (R180) -/

/-- MEMBER_LOSS (R180): reads go degraded and programs fail; a new generation starts, or waits for a record; Protection rises, with a summary
record and a loss scan when more than two positions of a live row are lost; a rebuild walk starts. Recovery holds S0 (R341). -/
def execMemberLoss (set : Fin 8) (s : State) : Res :=
  .next (
    let lost := (s.sset set).lossPending
    if lost = [] ∨ s.get (K.setState set) = 0 then s else leaveUnheld (takeLosses set lost s))

/-! ## Warden faults (R480, R481) -/

/-- A warden fault: the event and a dump; the core restarts from its verified image, all four at a second fault within 10 s, and what it led
resumes from its records. -/
def wardenFault (core kind : Nat) (s : State) : State :=
  if s.mode = 0 then s
  else
    let again := match s.ev.wardenFaultAt with | some t => decide (s.now < t + 10000000) | none => false
    let s := faultDump (occur 1170 (core + 4 * kind) s)
    (s.emit (.coreRestart (if again then 15 else 2 ^ core))).modEv (fun e => { e with wardenFaultAt := some s.now })

/-- WARDEN_WATCHDOG (R481). -/
def execWardenWatchdog (core : Fin 4) (s : State) : Res := .next (wardenFault core 1 s)

/-- WARDEN_FAULT (R481): an exception, or a parity failure of the object store. -/
def execWardenFault (core : Fin 4) (parity : Bool) (s : State) : Res := .next (wardenFault core (if parity then 3 else 2) s)

/-! ## Event sources and Pepper objects (R474, R485) -/

/-- A write of 1 to Clear (R474). -/
def clearEffect (n : Nat) (s : State) : State := s.set (K.evLatched n) 0

/-- A write to PepperEnable: 0 returns every Pepper object to its default (R485). -/
def pepperEnableEffect (v : Bool) (s : State) : State :=
  let was := s.pepperActive
  if v then pepperChanged was (s.set K.pepperEnable 1)
  else
    let s := (pepperDefaults (K.pepperSeed :: pepperKeys) (s.set K.pepperEnable 0)).modRings (fun r => { r with pepperDraws := 0 })
    pepperChanged was s

/-- A write of 1 to PepperClearAll (R485). -/
def pepperClearAllEffect (s : State) : State := pepperEnableEffect false s

end Sys2Proof.Machine
end

