-- ==== Sys2Proof/Machine/Almanac.lean ====
section
/-! DEFINITION. Almanac.lean: what an object reads as, which values are in range of it, and what a write to it does (R34 to R66, and the
object tables of every chapter). -/

namespace Sys2Proof.Machine

/-! ## Types and paths (R37, R40, R54) -/

/-- Type code of a value type (R37). -/
def VType.code : VType → Nat
  | .bool => 1
  | .u8 => 2
  | .w20 => 3
  | .s20 => 4
  | .w40 => 5
  | .s40 => 6
  | .time40 => 7
  | .text => 8
  | .blob => 9

/-- Words of one element of a type code (R37); a rsvd code counts one word (DEDUCED, log entry 60). -/
def typeWords (code : Nat) : Nat := if 5 ≤ code ∧ code ≤ 7 then 2 else 1

/-- A TEXT or BLOB, reached by word offset (R36). -/
def ObjRow.wordwise (r : ObjRow) : Bool := decide (r.ty = .text) || decide (r.ty = .blob)

/-- Classes that a path holds (R40, R41), numbered as PathClasses: 1 HOST, 2 BOARD, 4 PEER, 8 TEST. -/
def State.classes (s : State) (p : Path) : Nat :=
  (match p with | .urvan => 1 | .sb0 => 2 | .sb1 => 2 | .peer => 4 | .stranger => 0) + (if (s.pathState p).test then 8 else 0)

/-- Most value words of a transaction on a path (R54). -/
def pathWords : Path → Nat
  | .urvan => 512
  | .sb0 => 96
  | .sb1 => 96
  | .peer => 512
  | .stranger => 512

/-- The object at an index and subindex: its instance and row; subindex 0 is the highest subindex in use (R35). -/
def objAt (idx sub : Nat) : Option (Nat × ObjRow) :=
  if sub = 0 then (highestSub idx).map (fun h => (0, ⟨"HighestSubindex", 0, 0, .u8, .const, 15, .lit h, .full, allOnes40, 1⟩))
  else rowOf idx sub

/-- Access of an object now: the RW objects of the buffer's own rings, and LogicalUnits of a set that is not defined, behave as RO
(R68, R197). -/
def State.access (s : State) (idx : Nat) (r : ObjRow) : Access :=
  if 0xA000 + 8160 ≤ idx ∧ idx < 0xC000 ∧ r.acc = .rw then .ro
  else if 0xC000 + 4080 ≤ idx ∧ idx < 0xD000 ∧ r.acc = .rw then .ro
  else if 0x5010 ≤ idx ∧ idx < 0x5018 ∧ r.name = "LogicalUnits" ∧ s.get (K.setState (idx - 0x5010)) = 0 then .ro
  else r.acc

/-! ## Objects computed at a read -/

/-- QueryResult on a path (R61). -/
def State.queryResult (s : State) (p : Path) : Nat :=
  let idx := s.get (pathKey p 0x1004 1)
  let sub := s.get (pathKey p 0x1004 2)
  match objAt idx sub with
  | none => 0
  | some (_, r) =>
    let acc := match s.access idx r with | .ro => 0 | .rw => 1 | .wo => 2 | .const => 3 | .rwp => 4
    2 ^ 39 + r.ty.code * 2 ^ 35 + acc * 2 ^ 32 + r.mask * 2 ^ 28 + (if r.mask &&& s.classes p ≠ 0 then 2 ^ 27 else 0)
      + (if r.wordwise then r.maxWords else 1) * 2 ^ 14

/-- Slots held by parity accumulators: 32 for an open row (R114). -/
def State.paritySlots (s : State) : Nat :=
  (s.wr.sets.map (fun e => (e.2.rows.map (fun r => if r.holdsAcc then 32 else 0)).sum)).sum

/-- A record of Harvest as R238 lays it out, and the Calends tag, of a die-block. -/
def State.harvestDuo (s : State) (i : Nat) : Nat :=
  let h := s.hrec i
  SMap.getD s.fl.valid i 0 * 2 ^ 25 + min 131071 h.erases * 2 ^ 8 + h.state * 16 + (if h.refresh then 8 else 0) + (if h.failed then 4 else 0)

/-- Sample of an input (R393): Stale when it has not been converted for more than two scans at the current rate, and for a thermistor that
ThermistorMask does not enable, which is never faulty (R395), and the peak hold of gated flash PHYs. -/
def State.sampleDuo (s : State) (i : Nat) : Nat :=
  let off := decide (16 ≤ i) && decide (i < 24) && !(s.get K.thermistorMask).testBit (i - 16)
  let scan := if s.mode = 0 ∨ 3 ≤ s.get K.powerState then 10000 else 96
  let stale := match SMap.find? s.mon.convertedAt i with | some t => decide (t + 2 * scan < s.now) | none => true
  let gated := decide (i = 46) && decide (s.get K.powerState ≠ 0)
  let x := s.get (K.adcSample i)
  if off then (if x.testBit 4 then x - 16 else x) ||| 4 else if stale || gated then x ||| 4 else x

/-- BoardDigest (R410). -/
def State.digest (s : State) : Nat :=
  s.mode * 2 ^ 37 + s.get K.powerState * 2 ^ 34 + s.get K.holdupState * 2 ^ 31 + s.get K.healthFlags % 16 * 2 ^ 27
    + (if s.pw.reduced then 2 ^ 26 else 0) + (if s.get K.bringupFault ≠ 0 then 2 ^ 25 else 0) + s.ev.changeCount % 1048576

/-- A roster entry as it reads (R422, R444): with the ms since the member was last heard; the manager's own entry shows itself. -/
def State.rosterRead (s : State) (k : Nat) : Nat :=
  if k = 0 then (if s.get K.groupState = 2 then 2 * 2 ^ 37 + s.mode * 2 ^ 26 + s.get K.powerState * 2 ^ 23 else 0)
  else
    let e := s.get (K.rosterEntry k)
    if s.rosterState k = 0 then e else e / 1048576 * 1048576 + min 1048575 ((s.now - SMap.getD s.grp.heard k s.now) / 1000)

/-- Free tear records of the ledger area: four words each, of those erased in it (R378, R387; log entry 61). -/
def State.ledgerFree (s : State) : Nat :=
  let p := SMap.getD s.nv.areaNext 2240 0
  (32768 - (if p = 0 then 0 else (p - 1) % 16384 + 1)) / 4

/-- A placement of one of the buffer's own rings: whatever its work requires, in the layout of R71, its rsvd and unused fields zero (R68). -/
def ownPlacement (n : Nat) : Nat :=
  if n % 3 = 0 then 0
  else if n % 3 = 1 then 2 ^ 38 + n / 3 % 8 * 2 ^ 35
  else 2 ^ 39 + n / 3 % 96 * 2 ^ 28 + n / 288 % 16 * 2 ^ 24

/-- Priority of one of the buffer's own rings: background unless some set's Harvest is urgent or its walk runs in the normal class (R68, R183, R242); which
of the rings then runs that work is open. -/
def State.ownClass (s : State) (n : Nat) : Nat :=
  let normal := (List.range 8).any (fun k => decide (s.harvestState k = 2)
    || ((s.sset k).walk.isSome && decide (s.get (K.setProtection k) = 2)))
  if normal && n % 2 = 0 then 1 else 3

/-- Elements of the buffer's own rings that move as its background work requires: Placement, Priority, Head, Tail, Epoch and InFlight of a submission
ring, Head, Tail, Phase and Reserved of a completion ring (R31, R68, R109, R110). -/
def ownMoves (idx sub : Nat) : Bool :=
  (decide (0xA000 + 8160 ≤ idx) && decide (idx < 0xC000) && (decide (sub = 4) || decide (sub = 6) || (decide (9 ≤ sub) && decide (sub ≤ 12))))
    || (decide (0xC000 + 4080 ≤ idx) && decide (idx < 0xD000) && decide (7 ≤ sub) && decide (sub ≤ 10))

/-- What such an element reads: which work runs on which ring, and how far it has come, the manual leaves to the buffer, so that the figure is a free one in
its range; before the first serving mode the rings stand idle (R31, R68; log entry 64). -/
def State.ownFigure (s : State) (idx sub stored n : Nat) : Nat :=
  if idx < 0xC000 ∧ sub = 4 then ownPlacement n
  else if idx < 0xC000 ∧ sub = 6 then s.ownClass n
  else if s.mode ≤ 1 then stored
  else if idx < 0xC000 then (if sub = 11 then n % 16 else n % 256)
  else if sub = 9 then n % 2 else n % 256

/-- Number that an object reads as before any object of its class is hidden. -/
def State.readRaw (s : State) (p : Path) (idx sub inst : Nat) : Nat :=
  let stored := s.get (pathKey p idx sub)
  match idx with
  | 0x1003 => if sub = 1 then s.classes p else pathWords p
  | 0x1004 => if sub = 3 then s.queryResult p else stored
  | 0x5800 =>
    (match sub with
    | 1 => 2520 - s.wr.hostSlots.length - s.wr.backSlots.length - s.paritySlots
    | 2 => s.wr.hostSlots.length
    | 13 => min 0xFFFFF s.wr.tags.length
    | 14 => s.wr.shadows.length
    | _ => stored)
  | 0x5900 => if sub = 10 then s.fl.softQ.length else stored
  | 0x5901 => if sub = 6 then Config.modelGeneration (s.get K.firmwareVersion) else stored
  | 0x7802 =>
    (match sub with
    | 2 => s.harvestDuo (s.get K.dieBlockSelect)
    | 3 => SMap.getD s.fl.tags (s.get K.dieBlockSelect) noLoc
    | _ => stored)
  | 0x7820 =>
    (match sub with
    | 1 => s.spareLeft
    | 2 => s.wearMean
    | 3 => s.wearMax
    | 4 => s.rated
    | _ => stored)
  | 0x9000 => if sub = 6 then (if s.pw.calLoaded then s.recordsUsable else 0) else stored
  | 0x2001 => if sub = 6 then s.get K.journalSequence - s.oldestSave else stored
  | 0x2010 => if sub = 5 then s.powerBlock else stored
  | 0x2040 => if sub = 9 then s.ledgerFree else stored
  | 0x3810 => s.digest
  | 0xF001 => s.rosterRead (sub - 1)
  | 0x8000 => if sub = 4 then s.slotStates else stored
  | 0x8001 =>
    (match sub with
    | 1 => min 32 s.cf.queue.length
    | 6 => s.cfSparesLeft
    | 9 => s.cfErases (s.get K.counterSelect)
    | 10 => (List.range 4096).foldl (fun a n => max a (s.cfErases n)) 0
    | _ => stored)
  | 0x8003 =>
    (match sub with
    | 5 => s.customerKeyState
    | 8 => s.minSecurity
    | _ => stored)
  | 0xE000 => if sub = 2 then (if s.pepperActive then 1 else 0) else stored
  | _ =>
    -- The buffer's own rings carry its work as that requires (R31, R68; log entry 64).
    if ownMoves idx sub then s.ownFigure idx sub stored (Config.freeNat s.freeIdx)
    else if 0x6000 ≤ idx ∧ idx < 0x7800 then
      (if (idx - 0x6000) % 0x40 = 0x19 then (let x := s.die inst (sub - 1); min 64 x.reads.length + min 4 x.progs.length) else stored)
    else if 0x8800 ≤ idx ∧ idx < 0x88C0 then
      (if (idx - 0x8800) % 0x40 = 2 ∧ sub = 5 then (s.port inst).replay.length else stored)
    else if 0x5810 ≤ idx ∧ idx < 0x5818 then
      (match sub with
      | 1 => ((s.sset inst).rows.filter Row.holdsAcc).length
      | 2 => (s.sset inst).queue.length
      | 4 => s.erasedLowest inst
      | _ => stored)
    else if 0x5010 ≤ idx ∧ idx < 0x5018 then
      (match sub with
      | 8 => s.highestMapped inst
      | 11 => s.liveUnits inst
      | 13 => s.spareFree inst
      | _ => stored)
    else if 0x7810 ≤ idx ∧ idx < 0x7818 then
      (match sub with
      | 1 => s.harvestState inst
      | 3 => (match (s.sset inst).victim with
        | some (d, b, _) => (((s.wr.rowBlocks.filter (fun r => r.set = inst && r.die = d && r.block = b)).filterMap
            (fun r => (s.genRec inst r.gen).map (fun g => s.blockValid r g))).sum)
        | none => 0)
      | 4 => min 1048575 (s.candidates inst).length
      | _ => stored)
    else if 0x3100 ≤ idx ∧ idx < 0x3130 then
      (match sub with
      | 1 => s.sampleDuo inst
      | 2 => if 16 ≤ inst ∧ inst < 24 ∧ (s.get K.thermistorMask).testBit (inst - 16) = false then 0 else stored
      | _ => stored)
    else stored

/-- What the RO objects of a set that is not defined read as, and the manager-only objects on a worker, if they are hidden (R143, R197,
R253, R444). -/
def State.hidden (s : State) (idx sub inst : Nat) (r : ObjRow) : Option Nat :=
  if managerOnly idx sub && !s.isManager then some 0
  else
    let none_ := decide (s.get (K.setState inst) = 0) && decide (r.acc = .ro)
    if 0x5810 ≤ idx ∧ idx < 0x5818 ∧ none_ then some 0
    else if 0x5010 ≤ idx ∧ idx < 0x5018 ∧ none_ then some 0
    else if 0x5020 ≤ idx ∧ idx < 0x5028 ∧ none_ then some 0xFF
    else if 0x7810 ≤ idx ∧ idx < 0x7818 ∧ none_ then some (if sub = 2 then 0xFFFFF else 0)
    else none

/-- Words of a TEXT or BLOB as they stand. -/
def State.readBlob (s : State) (p : Path) (idx sub : Nat) : List Word :=
  match idx, sub with
  | 0x1000, 3 => s.otpWords 3 32
  | 0x1E00, 1 => (s.pathState p).nonce
  | 0x5902, 1 => ldpcBaseMatrix
  | 0x5001, 2 =>
    (match s.nv.losses.find? (fun r => decide (r.number = s.get K.lossSelect)) with | some r => duoWords (lossDuos r) | none => [])
  | 0x7820, 9 => duoWords ((List.range 8).map (fun j => SMap.getD s.fl.hist (8 * s.get K.tempHistDie + j) 0))
  | 0x8001, 7 =>
    (List.range 205).map (fun w => BitVec.ofNat 20 ((List.range 20).foldl (fun a b =>
      if SMap.getD s.cf.protect (20 * w + b) false then a + 2 ^ b else a) 0))
  | 0x8003, 1 => s.otpWords 35 16
  | 0x8003, 2 => s.otpWords 51 20
  | 0x8003, 3 => s.otpWords 71 20
  | 0x8003, 4 => (match s.customerSlot with | some k => s.otpWords (91 + 20 * k) 20 | none => [])
  | 0xF020, _ => if s.isManager then s.blob (pathKey p idx sub) else []
  | _, _ => s.blob (pathKey p idx sub)

/-- A number as the words of a type. The manual does not say how a count goes on past its largest value: what is read then is free. -/
def valueWords (ty : VType) (k n : Nat) : List Word :=
  let bits := match ty with | .bool => 1 | .u8 => 8 | .w20 => 20 | .s20 => 20 | _ => 40
  let n := if n < 2 ^ bits then n else (Config.counterPast k n).toNat % 2 ^ bits
  if bits = 40 then [BitVec.ofNat 20 n, BitVec.ofNat 20 (n / 1048576)] else [BitVec.ofNat 20 n]

/-- Words that one element reads as. -/
def State.readElem (s : State) (p : Path) (idx sub inst : Nat) (r : ObjRow) : List Word :=
  let n := if sub = 0 then dfltOf inst r.dflt else (s.hidden idx sub inst r).getD (s.readRaw p idx sub inst)
  valueWords r.ty (key idx sub) n

/-- What a read of an element changes: peaks start again and OvrSeen clears (R62, R143, R172, R393); a free value that it gave is spent. -/
def readEffect (idx sub : Nat) (s : State) : State :=
  if idx = 0x5800 ∧ sub = 3 then s.set K.hostSlotsPeak s.wr.hostSlots.length
  else if idx = 0x5900 ∧ sub = 11 then s.set K.softQueuePeak s.fl.softQ.length
  else if idx = 0x5900 ∧ sub = 12 then s.set K.reorderPeak (s.fl.dlBuffers + s.fl.buffers)
  else if 0x6000 ≤ idx ∧ idx < 0x7800 ∧ (idx - 0x6000) % 0x40 = 0x14 ∧ sub = 3 then s.set (key idx sub) 0
  else if 0x3100 ≤ idx ∧ idx < 0x3130 ∧ sub = 1 then
    (let x := s.get (key idx sub); s.set (key idx sub) (if x.testBit 3 then x - 8 else x))
  else if ownMoves idx sub then s.free.2
  else s

/-! ## TEST (R41 to R43) -/

/-- The nonce of a path is drawn when first needed: it is fixed until the next attempt or reset (R42). -/
def drawNonce (p : Path) (s : State) : State :=
  if (s.pathState p).nonce = [] then
    let (i, s) := s.free
    s.modPath p (fun ps => { ps with nonce := (List.range 20).map (fun k => nth (Config.nonce i) k 0) })
  else s

/-- A write of 1 to TestUnlock: the attempt is being verified (R43). DESIGN CHOICE (log entry 151): a write while one is being verified is met by
that verification. -/
def testUnlockEffect (p : Path) (s : State) : State := (drawNonce p s).set (pathKey p 0x1E00 5) 1

/-- An attempt within 1 s after a failed one on the path is out of range (R43). -/
def State.unlockOk (s : State) (p : Path) : Bool :=
  match (s.pathState p).failedAt with | some t => decide (t + 1000000 ≤ s.now) | none => true

/-- Byte that names a path in the signed message (R42). -/
def pathByte : Path → Byte
  | .urvan => 0
  | .sb0 => 1
  | .sb1 => 2
  | .peer => 3
  | .stranger => 3

/-- The key's hash is that of the row, and the signature verifies over the nonce and the path byte (R42, R43): as they stand when the verification ends, so
that a key or signature written while TestState reads 1 is what is verified (DESIGN CHOICE, log entry 174). -/
def State.unlockVerifies (s : State) (p : Path) : Bool :=
  let ps := s.pathState p
  digestWords (wordBytes 96 ps.key) == s.otpWords 71 20
    && Config.ecdsaVerify (wordBytes 96 ps.key) (wordBytes 96 ps.signature) (Config.sha384 (wordBytes 50 ps.nonce ++ [pathByte p]))

/-- TEST_VERIFY_DONE (R43): the verification of a path's attempt ends, and the nonce is replaced. -/
def execTestVerifyDone (p : Path) (s : State) : Res :=
  .next (if s.get (pathKey p 0x1E00 5) = 1 ∧ p ≠ .peer ∧ p ≠ .stranger then
    let ok := s.unlockVerifies p
    let s := drawNonce p (s.modPath p (fun ps => { ps with nonce := [] }))
    if ok then occur 1232 (pathCode p) ((s.set (pathKey p 0x1E00 5) 2).modPath p (fun ps => { ps with test := true, failedAt := none }))
    else (s.set (pathKey p 0x1E00 5) 0).modPath p (fun ps => { ps with failedAt := some s.now })
    else s)

/-! ## Values in range (R63, and the Description of each object) -/

/-- A value lies in a range that does not depend on the state. -/
def Range.holds (g : Range) (v : Nat) : Bool :=
  match g with
  | .full => true
  | .upTo lo hi => decide (lo ≤ v) && decide (v ≤ hi)
  | .signed lo hi => decide (lo ≤ s20 v) && decide (s20 v ≤ hi)
  | .zeroOr lo hi => decide (v = 0) || (decide (lo ≤ v) && decide (v ≤ hi))
  | .oneOf l => l.contains v
  | .upToOr lo hi x => decide (v = x) || (decide (lo ≤ v) && decide (v ≤ hi))

/-- Slots of two rings overlap. -/
def slotsMeet (a n b m : Nat) : Bool := decide (a < b + m) && decide (b < a + n)

/-- Enabling a submission ring is in range (R111). -/
def State.ringMayEnable (s : State) (n : Nat) : Bool :=
  let base := s.get (K.ringBase n)
  let size := s.ringSize n
  decide (base % size = 0) && decide (base + size ≤ 253952) && s.placementOk (s.get (K.ringPlacement n))
    && s.flag (K.cringEnable (s.get (K.ringCompletionRing n)))
    && (s.enabledRings.filter (fun k => k < 8160)).all (fun k => k = n || !slotsMeet base size (s.get (K.ringBase k)) (s.ringSize k))

/-- Completion rings that are enabled. -/
def State.enabledCrings (s : State) : List Nat :=
  s.objs.filterMap (fun e => if 0xC000 * 256 ≤ e.1 ∧ e.1 < 0xD000 * 256 ∧ e.1 % 256 = 1 ∧ e.2 ≠ 0 then some (e.1 / 256 - 0xC000) else none)

/-- Enabling a completion ring is in range (R111). -/
def State.cringMayEnable (s : State) (m : Nat) : Bool :=
  let base := s.get (K.cringBase m)
  let size := s.cringSize m
  decide (base % size = 0) && decide (base + size ≤ 126976) && decide (s.get (K.cringNotifyCount m) < size)
    && (s.enabledCrings.filter (fun k => k < 4080)).all (fun k => k = m || !slotsMeet base size (s.get (K.cringBase k)) (s.cringSize k))

/-- A value in range of a submission-ring object (R68, R71, R109, R111, R112). A Placement that R71 puts out of range, such as one on a set that does not
exist, is refused at its own write, so that the ring keeps the one it had; and Enable checks it once more (DESIGN CHOICE, log entry 177). -/
def State.ringValueOk (s : State) (n sub v : Nat) : Bool :=
  let on := s.flag (K.ringEnable n)
  match sub with
  | 1 => if v = 1 then on || s.ringMayEnable n else !on || (decide (s.get (K.ringInFlight n) = 0) && decide (s.get (K.ringHead n) = s.get (K.ringTail n)))
  | 2 => !on
  | 3 => !on
  | 4 => !on && s.placementOk v
  | 5 => !on
  | 8 => decide (v = 0) || s.placementOk v
  | 14 => decide (n < 8160)
  | _ => true

/-- A value in range of a completion-ring object (R110 to R112). -/
def State.cringValueOk (s : State) (m sub v : Nat) : Bool :=
  let on := s.flag (K.cringEnable m)
  match sub with
  | 1 => if v = 1 then on || s.cringMayEnable m else !on || s.enabledRings.all (fun n => s.get (K.ringCompletionRing n) ≠ m)
  | 2 => !on
  | 3 => !on
  | 4 => decide (1 ≤ v) && decide (v < s.cringSize m)
  | _ => true

/-- The request in RelayRequest may be broadcast: a write or an ordered write (R425). -/
def State.relayWrites (s : State) (p : Path) : Bool :=
  let op := (nth (s.blob (pathKey p 0xF020 2)) 1 0).toNat / 2 ^ 18
  decide (op = 1) || decide (op = 2)

/-- RelayGo is in range (R424, R425). -/
def State.relayOk (s : State) (p : Path) : Bool :=
  decide (s.get (pathKey p 0xF020 4) ≠ 1) && decide (s.get (pathKey p 0xF020 1) ≠ 0)
    && (decide (s.get (pathKey p 0xF020 1) ≠ 0x1F) || s.relayWrites p)

/-- A value in range of an object, beyond what its row says: the conditions on the state that each chapter gives. -/
def State.rangeOk (s : State) (p : Path) (idx sub inst v : Nat) : Bool :=
  if managerOnly idx sub && !s.isManager then false
  else match idx with
  | 0x1E00 => if sub = 4 then s.unlockOk p else true
  | 0x5000 => if sub = 5 then decide (s.get K.lossAckedThrough ≤ v) && decide (v ≤ s.get K.lossRecordsIssued) else true
  | 0x5030 =>
    (match sub with
    | 3 => decide (v = 0) || s.planOk
    | 6 => decide (v = 0) || s.retireOk
    | _ => true)
  | 0x7801 => if sub = 1 then decide (s.get K.calendsNow ≤ v) && decide (v < 2 ^ 28) else true
  | 0x4020 => if sub = 10 then decide (v = 0) || s.helperStartOk else true
  | 0x9001 => if sub = 7 then decide (v = 0) || s.calImported.isSome else true
  | 0xF000 => if sub = 7 then !s.isManager else true
  | 0xF010 => if sub = 3 ∨ sub = 12 then s.arriveOk v else true
  | 0xF020 => if sub = 3 then decide (v = 0) || s.relayOk p else true
  | 0xF040 => if sub = 8 then decide (v = 0) || s.transferOk else true
  | 0x8000 => if sub = 7 then decide (v = 0) || s.updateOk else true
  | 0x8002 => if sub = 3 then decide (v = 0) || s.cfReadOk else true
  | 0x8003 =>
    (match sub with
    | 7 => decide (v = 0) || s.keyBurnOk
    | 9 => s.raiseOk v
    | _ => true)
  | 0xE080 => if sub = 3 then decide (v = 0) || s.serving else true
  | _ =>
    if 0xA000 ≤ idx ∧ idx < 0xC000 then s.ringValueOk inst sub v
    else if 0xC000 ≤ idx ∧ idx < 0xD000 then s.cringValueOk inst sub v
    else if 0x5010 ≤ idx ∧ idx < 0x5018 ∧ sub = 7 then decide (v ≤ s.get (K.setMaxLogicalUnits inst)) && decide (s.highestMapped inst ≤ v)
    else true

/-- One value is in range of its object. -/
def State.valueOk (s : State) (p : Path) (idx sub inst : Nat) (r : ObjRow) (v : Nat) : Bool :=
  (match r.ty with | .bool => decide (v < 2) | .u8 => decide (v < 256) | _ => true)
    && r.range.holds (v &&& r.keep) && s.rangeOk p idx sub inst (v &&& r.keep)

/-- Ranges that tie several objects of one index together, judged as a whole write would leave them: the weights of R240 are not all zero,
and VinGoodLevel is above VinFailLevel (R387). -/
def togetherOk (idx : Nat) (vs : List (Nat × Nat)) (s : State) : Bool :=
  let new := fun (sub : Nat) => match vs.find? (fun e => decide (e.1 = sub)) with | some e => e.2 | none => s.get (key idx sub)
  if idx = 0x7800 then decide (new 1 ≠ 0) || decide (new 2 ≠ 0) || decide (new 3 ≠ 0)
  else if idx = 0x2030 ∧ vs.any (fun e => decide (e.1 = 11)) then decide (new 10 < new 11)
  else true

/-! ## What a write does -/

/-- Enable of a submission ring (R111): a ring newly enabled starts with Head, Tail and Epoch 0; one disabled no longer lacks a placement (R105). Its State
shows an abort or a migration that still stands: a migration that the buffer started is kept through the disabled time, and later replaces Placement and posts
its completion (R103, R109; DESIGN CHOICE, log entry 176). -/
def ringEnableEffect (n v : Nat) (s : State) : State :=
  let on := s.flag (K.ringEnable n)
  if on = decide (v = 1) then s
  else if v = 1 then refreshRing n ((((s.set (K.ringEnable n) 1).set (K.ringHead n) 0).set (K.ringTail n) 0).set (K.ringEpoch n) 0)
  else ((s.set (K.ringEnable n) 0).set (K.ringState n) 0).modRings (fun r => { r with noPlace := SMap.erase r.noPlace n })

/-- Enable of a completion ring (R111): a ring newly enabled starts with Head and Tail 0 and Phase 1. -/
def cringEnableEffect (m v : Nat) (s : State) : State :=
  let on := s.flag (K.cringEnable m)
  if on = decide (v = 1) then s
  else
    let s := { s with rings := { s.rings with unnoticed := SMap.erase s.rings.unnoticed m } }
    if v = 1 then ((((s.set (K.cringEnable m) 1).set (K.cringHead m) 0).set (K.cringTail m) 0)).set (K.cringPhase m) 1
    else s.set (K.cringEnable m) 0

/-- A notice that a change of NotifyEnable, NotifyCount or NotifyDelay makes due is sent (R87). -/
def noticeCheck (m : Nat) (s : State) : State :=
  match SMap.find? s.rings.unnoticed m with
  | some (n, _) => s.when (s.flag (K.cringNotifyEnable m) && (decide (s.get (K.cringNotifyCount m) ≤ n) || decide (s.get (K.cringNotifyDelay m) = 0)))
    (sendNotice m)
  | none => s

/-- A write of 1 to RelayGo (R424, R425): the request goes to a member, or to every member; a member that is not in the roster is
unreachable at once. The tags of the relays run from 0 to 15. -/
def relayGoEffect (p : Path) (s : State) : State :=
  let dev := s.get (pathKey p 0xF020 1)
  let st := pathKey p 0xF020 4
  let req := s.blob (pathKey p 0xF020 2)
  let (op, r) := headerOf (BitVec.ofNat 40 (wordsNat (req.take 2))) (BitVec.ofNat 40 (wordsNat ((req.drop 2).take 2)))
  let n := 4 + (if op = 1 ∨ op = 2 then r.count.toNat * typeWords r.typ.toNat else 0)
  let words := (List.range n).map (fun k => nth req k 0)
  let tag := s.grp.nextTag
  let s := s.modGrp (fun g => { g with nextTag := (tag + 1) % 16, relays := SMap.insert g.relays (pathCode p) (tag, dev) })
  let s := s.set st 1
  if dev = 0x1F then
    let s := broadcastPacket (fun port hops =>
      { typ := 0x12, tag := tag, status := 0, source := 0, dest := 0, broadcast := true, west := decide (port = 2), hops := hops,
        generation := s.get K.rosterGeneration, subtype := 0, argument := 0, duo1 := 0, words := words, frame := 0 }) s
    -- On a broken ring no packet comes back: the broadcast has ended on every arm (log entry 62).
    if s.grp.ringSize.isSome && s.portUsable 1 && s.portUsable 2 then s
    else
      let s := (s.set st 4).set (pathKey p 0xF020 6) (maskOf (s.rosterMembers.filter (fun k => k ≠ 0)))
      s.modGrp (fun g => { g with relays := SMap.erase g.relays (pathCode p) })
  else if s.rosterMembers.contains dev then
    let (port, hops) := s.route dev
    let k : PeerPacket :=
      { typ := 0x10, tag := tag, status := 0, source := 0, dest := dev, broadcast := false, west := decide (port = 2), hops := hops,
        generation := s.get K.rosterGeneration, subtype := 0, argument := 0, duo1 := 0, words := words, frame := 0 }
    sendPacket port (.peer k) (wakeNeighbour port s)
  else (s.set st 3).modGrp (fun g => { g with relays := SMap.erase g.relays (pathCode p) })

/-- A write to BoardReset (R434, R435). -/
def boardResetEffect (v : Nat) (s : State) : State := if v = 0x0B0D0 then orderlyResetEffect s else immediateResetEffect s

/-- Effect of a write of an accepted value that is not simply the object's new value: commands, and objects with a consequence. -/
def writeEffect (p : Path) (idx sub inst v : Nat) (s : State) : State :=
  let cmd := fun (f : State → State) => if v = 1 then f s else s
  match idx with
  | 0x1E00 =>
    (match sub with
    | 4 => cmd (testUnlockEffect p)
    | 6 => cmd (loseTest p)
    | _ => s)
  | 0x5000 => if sub = 5 then lossAckEffect v s else s
  | 0x5030 =>
    (match sub with
    | 3 => cmd planCommitEffect
    | 6 => cmd retireCommitEffect
    | _ => s)
  | 0x7801 => if sub = 1 then updateHealth (calendsNowEffect v s) else s
  | 0x7820 => updateHealth s
  | 0x4020 => if sub = 10 then cmd helperStartEffect else s
  | 0x9001 =>
    (match sub with
    | 4 => cmd calSelectEffect
    | 7 => cmd calImportEffect
    | _ => s)
  | 0x2030 => if sub = 9 then cmd holdupTestStartEffect else s
  | 0xF000 => if sub = 7 then groupLeaveEffect s else s
  | 0xF010 =>
    (match sub with
    | 3 => arriveEffect v s
    | 12 => startAllEffect v s
    | _ => s)
  | 0xF020 => if sub = 3 then cmd (relayGoEffect p) else s
  | 0xF030 => if sub = 1 then boardResetEffect v s else s
  | 0xF040 =>
    (match sub with
    | 8 => cmd transferStartEffect
    | 12 => cmd transferStopEffect
    | _ => s)
  | 0x8000 =>
    (match sub with
    | 7 => cmd updateCommitEffect
    | 10 => cmd protectStandbyEffect
    | _ => s)
  | 0x8002 =>
    (match sub with
    | 3 => cmd cfReadEffect
    | 7 => cmd dumpRequestEffect
    | 10 => cmd dumpReleaseEffect
    | _ => s)
  | 0x8003 =>
    (match sub with
    | 7 => cmd keyBurnEffect
    | 9 => raiseEffect v s
    | _ => s)
  | 0xE000 =>
    (match sub with
    | 1 => pepperEnableEffect (v == 1) s
    | 3 => cmd pepperClearAllEffect
    | 4 => s.modRings (fun r => { r with pepperDraws := 0 })
    | _ => s)
  | 0xE050 => if sub = 5 then cmd forceRealignEffect else s
  | _ =>
    if 0x6000 ≤ idx ∧ idx < 0x7800 then
      (match (idx - 0x6000) % 0x40, sub with
      | 1, 4 => cmd (adminIsolateEffect inst)
      | 3, 5 => cmd (recalibrateEffect inst)
      | _, _ => s)
    else if 0xA000 ≤ idx ∧ idx < 0xC000 then
      (match sub with
      | 1 => ringEnableEffect inst v s
      | 4 => s.modRings (fun r => { r with noPlace := SMap.erase r.noPlace inst })
      | 14 => cmd (abortRingEffect inst)
      | _ => s)
    else if 0xC000 ≤ idx ∧ idx < 0xD000 then
      (match sub with
      | 1 => cringEnableEffect inst v s
      | 4 | 5 => noticeCheck inst s
      | 6 => cmd (noticeCheck inst)
      | _ => s)
    else if 0x5010 ≤ idx ∧ idx < 0x5018 then
      (match sub with
      | 7 => logicalUnitsEffect inst v s
      | 18 => cmd (rebuildStartEffect inst)
      | _ => s)
    else if 0x4010 ≤ idx ∧ idx < 0x4018 then (if sub = 9 then retireRankEffect inst v s else s)
    else if 0xD000 ≤ idx ∧ idx < 0xD600 then (if sub = 7 then cmd (clearEffect inst) else s)
    else s

/-- What follows a write once its response has been sent: what would end the path that carries it (R317, R350, R487). -/
def afterEffect (idx sub inst v : Nat) (s : State) : State :=
  if idx = 0x2000 ∧ sub = 6 then enterCold 6 false s
  else if idx = 0xE080 ∧ sub = 3 then (if v = 1 then supplyLossEffect s else s)
  else if 0x8800 ≤ idx ∧ idx < 0x88C0 ∧ (idx - 0x8800) % 0x40 = 0 ∧ v = 1 then
    (match sub with
    | 8 => retrainEffect inst s
    | 9 => fullTrainEffect inst s
    | 10 => linkResetEffect inst s
    | _ => s)
  else s

/-- Enable of a ring, and PepperEnable: their effect sets the object. -/
def selfSet (idx sub : Nat) : Bool := decide (sub = 1) && ((decide (0xA000 ≤ idx) && decide (idx < 0xD000)) || decide (idx = 0xE000))

/-- Writes one element of a single value (R38, R45): RW and RWP objects take it, an RWP write is retained, and effects follow. -/
def writeObj (p : Path) (idx sub inst : Nat) (r : ObjRow) (v : Nat) (s : State) : State :=
  let v := v &&& r.keep
  let was := s.pepperActive
  let k := pathKey p idx sub
  let s := if (r.acc = .rw ∨ r.acc = .rwp) ∧ selfSet idx sub = false then s.set k v else s
  let s := s.when (decide (r.acc = .rwp)) (retainWrite k v)
  let s := writeEffect p idx sub inst v s
  -- A perturbation object may change PepperActive (R485, R479).
  s.when (decide (0xE010 ≤ idx) && decide (idx ≤ 0xE080) && decide (r.acc = .rw)) (pepperChanged was)

/-- A write to an object of the channel broadcast block acts on every channel (R426). -/
def broadcastWrite (idx sub v : Nat) (s : State) : State :=
  let ks := (List.range 96).map (fun c => if idx = 0xF3D1 then K.chThrottleLimit c
    else if sub = 1 then K.chDataRate c else if sub = 2 then K.chDriveCode c else K.chOdtCode c)
  s.over ks (fun s k => retainWrite k v (s.set k v))

/-- Writes words of a BLOB at an offset (R36, R42, R335, R424, R469). -/
def writeBlob (p : Path) (idx sub off : Nat) (ws : List Word) (s : State) : State :=
  let put := fun (old : List Word) => (List.range (max old.length (off + ws.length))).map (fun k => if off ≤ k ∧ k < off + ws.length then nth ws (k - off) 0 else nth old k 0)
  if idx = 0x1E00 then
    s.modPath p (fun ps => if sub = 2 then { ps with key := put ps.key } else { ps with signature := put ps.signature })
  else s.setBlob (pathKey p idx sub) (put (s.blob (pathKey p idx sub)))

end Sys2Proof.Machine
end

