-- ==== Sys2Proof/Machine/DramServe.lean ====
section
/-! DEFINITION. DramServe.lean: the picks of the DRAM scheduler and the recovery of bursts (R264, R277), with what waits for them. -/

namespace Sys2Proof.Machine

/-- DRAM_PICK (R264): held accesses enter the bank queues, the sub-channel's scheduler picks a request and issues it; `burst` is what
the read brings: the symbols in error, or a command-parity mismatch (R261, R262, R273). A READ that waited for the access goes on with its last
burst. -/
def execDramPick (sub : Fin 8) (burst : BurstRead) (s : State) : Res :=
  .next (
    let c := burstCheck burst
    let n : Nat := sub
    let s := enterHeld n s
    match s.dramNext n with
    | none => s
    | some r =>
      let k := s.rankFor n r.da
      if c = .commandParity then dramChecked n k r.da c s
      else if (!r.write || r.rmw) && decide (c = .uncorrectable) && decide (s.daRegion r.da ≠ 0) && decide (s.daRegion r.da ≠ 10) then
        -- The request stays in its queue until the burst is recovered (R277).
        dramChecked n k r.da c (issueDram n { r with write := false, rmw := false } s)
      else
        let s := s.modDsub n (fun x =>
          let turned := decide (x.writing ≠ r.write)
          { x with queue := x.queue.erase r, last := daTurn r.da, writing := r.write, run := if turned then 1 else x.run + 1,
                   panicRun := if x.queue.all (fun q => q.cls ≠ 1) || (decide (r.cls = 2) && !r.write) then 0 else x.panicRun + 1 })
        let s := issueDram n r s
        let read := !r.write || r.rmw
        fetched r.src (s.when read (dramChecked n k r.da c)))

/-- REGION_RECOVERY_DONE (R277): the recovery of the i-th pending burst ends. The mapping entries, the write tags, the torn-page index, the
row-block generations and the spare map come back as their durable records give them; a program shadow's entry is marked
unreadable; entries of the loss index are dropped. -/
def execRegionRecoveryDone (i : Nat) (s : State) : Res :=
  .next (
    -- The controller serves only the Vigil sequencer in Vigil (R270).
    match (if s.mode = 5 then none else s.dram.recoveries[i]?) with
    | none => s
    | some a =>
      let l := s.dram.recoveries.eraseIdx i
      let s := (s.modDram (fun x => { x with recoveries := l })).set K.recoveriesPending l.length
      -- What was recovered is written to its place (R275, R276).
      let s := columnCommand (daSub a) (s.rankFor (daSub a) a) 2 a s
      let s := match s.daRegion a with
      | 3 => s.modDram (fun x =>
          let j := (a - 0x3C00000000) / 16640
          let js := if (a + 63 - 0x3C00000000) / 16640 = j then [j] else [j, j + 1]
          { x with badShadows := (x.badShadows ++ js).eraseDups })
      | 5 => s.modWr (fun w =>
          let b := a - 0x3C43000000
          { w with lossIndex := ((w.lossIndex.zip (List.range w.lossIndex.length)).filter (fun e =>
              decide (5 * e.2 + 5 ≤ b) || decide (b + 64 ≤ 5 * e.2))).map (fun e => e.1) })
      | _ => s
      -- Transitions that were held commit, or not, by their starting values.
      commitTransfers (commitHeld s))

end Sys2Proof.Machine
end

