-- ==== Sys2Proof/Machine/Service.lean ====
section
/-! DEFINITION. Service.lean: the Almanac's transactions (R47 to R66): availability, violations, responses, and one row for each command object,
which is a transaction that names it. -/

namespace Sys2Proof.Machine

/-! ## Availability (R58) -/

/-- The form in which the Almanac is served now (R58): 0 not at all, 1 restricted, 2 in full, 3 reads on the sideband ports only. -/
def State.availability (s : State) : Nat :=
  if s.mode = 0 then (if s.bootRuns then 1 else 0)
  else if s.mode = 1 then (if s.get K.bringupStep < 3 then 1 else 2)
  else if s.mode = 5 then 3
  else 2

/-- A path that is a sideband port. -/
def onSideband : Path → Bool
  | .sb0 => true
  | .sb1 => true
  | _ => false

/-- A transaction on the path is served: the Urvan link and the peer ports carry none in Cold and in Vigil, and the Urvan link none unless it
is up (R58, R314, R421). -/
def State.answers (s : State) (p : Path) : Bool :=
  decide (s.availability ≠ 0) && (onSideband p || (decide (s.mode ≠ 0) && decide (s.mode ≠ 5)))
    && (decide (p ≠ .urvan) || decide (s.get (K.portLinkState 0) = 2))

/-- An access is not refused by the mode (R58). -/
def State.modeAllows (s : State) (idx : Nat) (write : Bool) : Bool :=
  match s.availability with
  | 1 => if write then idx == 0x1E00 else (decide (0x1000 ≤ idx) && decide (idx < 0x2000)) || (decide (0x3000 ≤ idx) && decide (idx < 0x4000))
  | 2 => true
  | 3 => !write
  | _ => false

/-! ## Transactions -/

/-- One element that a transaction names. -/
structure Elem where
  sub : Nat
  inst : Nat
  row : ObjRow
  deriving DecidableEq, Repr

/-- Elements that a header names, if all of them exist within the object (R36, R48, R63). -/
def elemsOf (r : ReqHeader) : Option (List Elem) :=
  let idx := r.index.toNat
  let sub := r.sub.toNat
  let n := r.count.toNat
  if n = 0 ∨ 256 < n then none
  else match objAt idx sub with
    | none => none
    | some (inst, row) =>
      if row.wordwise then (if r.offset.toNat + n ≤ row.maxWords then some [⟨sub, inst, row⟩] else none)
      else if r.offset ≠ 0 then none
      else (List.range n).mapM (fun i => (objAt idx (sub + i)).map (fun e => (⟨sub + i, e.1, e.2⟩ : Elem)))

/-- An element may be accessed so on a path (R40, R63). -/
def State.allows (s : State) (p : Path) (idx typ : Nat) (write : Bool) (e : Elem) : Bool :=
  decide (e.row.ty.code = typ) && decide (e.row.mask &&& s.classes p ≠ 0)
    && (if write then (match s.access idx e.row with | .rw => true | .wo => true | .rwp => true | _ => false)
        else decide (s.access idx e.row ≠ .wo))

/-- Value words that a header calls for (R49). -/
def valueCount (r : ReqHeader) : Nat := r.count.toNat * typeWords r.typ.toNat

/-- The elements of an access that is no violation, the values apart (R54, R58, R63). -/
def State.named (s : State) (p : Path) (write : Bool) (r : ReqHeader) : Option (List Elem) :=
  if !s.modeAllows r.index.toNat write || decide (pathWords p < valueCount r) then none
  else match elemsOf r with
    | none => none
    | some es => if es.all (s.allows p r.index.toNat r.typ.toNat write) then some es else none

/-- Words that a read answers with, and the state after it: zeros for a violation (R50, R64). -/
def almanacRead (p : Path) (r : ReqHeader) (s : State) : List Word × State :=
  let idx := r.index.toNat
  match s.named p false r with
  | none => (List.replicate (valueCount r) 0, s)
  | some es =>
    match es with
    | [e] =>
      if e.row.wordwise then
        let s := if idx = 0x1E00 then drawNonce p s else s
        let ws := s.readBlob p idx e.sub
        ((List.range r.count.toNat).map (fun k => nth ws (r.offset.toNat + k) 0), s)
      else (s.readElem p idx e.sub e.inst e.row, readEffect idx e.sub s)
    | _ => (es.flatMap (fun e => s.readElem p idx e.sub e.inst e.row), s.over es (fun s e => readEffect idx e.sub s))

/-- Values of the elements of a write. -/
def valuesOf (r : ReqHeader) (es : List Elem) (ws : List Word) : List (Elem × Nat) :=
  let w := typeWords r.typ.toNat
  es.zip ((List.range es.length).map (fun i => wordsNat ((ws.drop (i * w)).take w)))

/-- Every value of a write is in range (R63); a TEXT or BLOB takes any words, but for manager-only objects on a worker. -/
def State.writeOk (s : State) (p : Path) (r : ReqHeader) (es : List Elem) (ws : List Word) : Bool :=
  let idx := r.index.toNat
  let vs := valuesOf r es ws
  if es.any (fun e => e.row.wordwise) then !(managerOnly idx r.sub.toNat && !s.isManager)
  else vs.all (fun e => s.valueOk p idx e.1.sub e.1.inst e.1.row e.2) && togetherOk idx (vs.map (fun e => (e.1.sub, e.2 &&& e.1.row.keep))) s

/-- What a write to RestoreDefaults does (R44): every RW and RWP object to its default, in ascending order, each checked as a write of its own. What
the moment makes RO, the LogicalUnits of a set that is not defined for one, is passed over without a count (DEDUCED, log entry 26). -/
def restoreDefaults (p : Path) (s : State) : State :=
  let todo : List (Nat × Nat × Nat × ObjRow) := (List.range 65536).flatMap (fun idx =>
    match rowsAt idx with
    | none => []
    | some (inst, rows) => rows.flatMap (fun r =>
        if r.acc = .rw ∨ r.acc = .rwp then (List.range (r.hi + 1 - r.lo)).map (fun k => (idx, r.lo + k, inst, r)) else []))
  let (n, s) := todo.foldl (fun (a : Nat × State) e =>
    let (idx, sub, inst, r) := e
    -- The default of CalendsNow is the saved minute (R253).
    let v := if idx = 0x7801 then SMap.getD a.2.nv.saved K.calendsNow 0 else dfltOf inst r.dflt
    if a.2.access idx r = .ro then a
    else if a.2.valueOk p idx sub inst r v && togetherOk idx [(sub, v)] a.2 then (a.1, writeObj p idx sub inst r v a.2)
    else (a.1 + 1, a.2)) (0, s)
  s.set K.restoreSkipped n

/-- Writes every element of a write that is no violation: all or none (R50). What the values were is answered for what follows the response. -/
def almanacWrite (p : Path) (r : ReqHeader) (ws : List Word) (s : State) : List (Elem × Nat) × State :=
  let idx := r.index.toNat
  match s.named p true r with
  | none => ([], s)
  | some es =>
    if s.writeOk p r es ws = false then ([], s)
    else if es.any (fun e => e.row.wordwise) then ([], writeBlob p idx r.sub.toNat r.offset.toNat ws s)
    else
      let vs := valuesOf r es ws
      let s := s.over vs (fun s e =>
        if idx = 0xF3C2 ∨ idx = 0xF3D1 then broadcastWrite idx e.1.sub e.2 s
        else if idx = 0x1011 then restoreDefaults p s
        else writeObj p idx e.1.sub e.1.inst e.1.row e.2 s)
      (vs, s)

/-! ## Responses (R49, R56) -/

/-- Hands a response to a path: a packet on the Urvan link, the port's pending response on a sideband port; on the peer ring the packet that carries
it is sent where the request is taken (R424). A sideband response that its length byte cannot count carries a number of words that no rule states (log entry 63). -/
def respond (p : Path) (op : Nat) (r : ReqHeader) (vs : List Word) (s : State) : State :=
  let (d0, d1) := headerDuos op r
  let s := s.emit (.response p d0 d1 vs)
  match p with
  | .urvan => sendPacket 0 (.mgmtResponse d0 d1 vs) s
  | .peer => s
  | .stranger => s
  | _ =>
    let (vs, s) := if vs.length ≤ 98 then (vs, s) else
      (let (i, s) := s.free
       (vs.take (Config.freeNat i % 99), s))
    let n := transactionBytes (4 + vs.length)
    let bytes := natBytes n (wordsNat (natWords 2 d0.toNat ++ natWords 2 d1.toNat ++ vs))
    let q := if p = .sb0 then 0 else 1
    { s with sb := SMap.modify s.sb q {} (fun x => { x with response := some bytes }) }

/-- An ordered write on the Urvan path takes effect after every store sent before it is visible to the wardens, a violation too (R49, R64). -/
def orderStores (p : Path) (op : Nat) (s : State) : State := s.when (decide (op = 2) && decide (p = .urvan)) drainStores

/-- What follows the response of a write (R317, R350, R487). -/
def afterWrite (idx : Nat) (vs : List (Elem × Nat)) (s : State) : State := s.over vs (fun s e => afterEffect idx e.1.sub e.1.inst e.2 s)

/-- Serves a transaction (R49 to R51, R58, R63, R64): Op 0 reads, 1 and 2 write, 3 is rsvd and answers with its header alone. The arrival of work
cancels a power request that waits (R358). -/
def serveWith (reply : List Word → State → State) (p : Path) (op : Nat) (r : ReqHeader) (ws : List Word) (s : State) : State :=
  let s := orderStores p op { s with pw := { s.pw with request := none } }
  match op with
  | 0 => let (vs, s) := almanacRead p r s
         reply vs s
  | 3 => reply [] s
  | _ => let (vs, s) := almanacWrite p r ws s
         afterWrite r.index.toNat vs (reply [] s)

/-- Serves a transaction that has come over a path, if the path answers; a write that carries fewer or more words than its header calls for is
a transport fault and is not served (R65). -/
def serve (p : Path) (op : Nat) (r : ReqHeader) (ws : List Word) (s : State) : State :=
  if !s.answers p then s
  else if (op = 1 ∨ op = 2) ∧ ws.length ≠ valueCount r then s
  else serveWith (respond p op r) p op r ws s

/-- ALMANAC_READ (R49). -/
def execAlmanacRead (p : Path) (r : ReqHeader) (s : State) : Res := .next (serve p 0 r [] s)

/-- ALMANAC_WRITE (R50). -/
def execAlmanacWrite (p : Path) (r : ReqHeader) (ws : List Word) (s : State) : Res := .next (serve p 1 r ws s)

/-- ORDERED_WRITE (R49). -/
def execOrderedWrite (p : Path) (r : ReqHeader) (ws : List Word) (s : State) : Res := .next (serve p 2 r ws s)

/-- RSVD_OP (R64): the header alone comes back. -/
def execRsvdOp (p : Path) (r : ReqHeader) (s : State) : Res := .next (serve p 3 r [] s)

/-! ## Transactions on the link (R55) -/

/-- MGMT_REQUEST (R55): one transaction in a packet of the Urvan link; a ByteCount that differs from what its header calls for is a transport
fault, discarded whole and counted (R65). -/
def execMgmtRequest (byteCount : BitVec 13) (d0 d1 : Duo) (ws : List Word) (s : State) : Res :=
  .next (
    let (op, r) := headerOf d0 d1
    let n := if op = 1 ∨ op = 2 then valueCount r else 0
    if s.mode = 0 ∨ s.mode = 5 ∨ s.get (K.portLinkState 0) ≠ 2 then s
    else if byteCount.toNat ≠ transactionBytes (4 + n) ∨ ws.length ≠ n then s.inc (K.portMalformedPackets 0)
    else serve .urvan op r ws s)

/-! ## Command objects -/

/-- Header of a transaction on one element. -/
def oneHeader (tag : BitVec 8) (idx sub typ : Nat) : ReqHeader :=
  { tag := tag, index := BitVec.ofNat 16 idx, sub := BitVec.ofNat 8 sub, typ := BitVec.ofNat 4 typ, rsvd0 := 0, offset := 0, rsvd1 := 0, count := 1 }

/-- A write of a one-word value to an object. -/
def writeOne (p : Path) (tag : BitVec 8) (idx sub typ : Nat) (v : Word) (s : State) : Res := .next (serve p 1 (oneHeader tag idx sub typ) [v] s)

/-- A write of a W40 value to an object. -/
def writeDuo (p : Path) (tag : BitVec 8) (idx sub : Nat) (v : Duo) (s : State) : Res :=
  .next (serve p 1 (oneHeader tag idx sub 5) (natWords 2 v.toNat) s)

/-- A read of one element. -/
def readOne (p : Path) (tag : BitVec 8) (idx sub typ : Nat) (s : State) : Res := .next (serve p 0 (oneHeader tag idx sub typ) [] s)

/-- A truth value as a word. -/
def boolWord (v : Bool) : Word := if v then 1 else 0

/-- RESTORE_DEFAULTS (R44): the defaults are set before the response. -/
def execRestoreDefaults (p : Path) (tag : BitVec 8) (v : Word) (s : State) : Res :=
  writeOne p tag 0x1011 1 3 v s

/-- TEST_UNLOCK (R43). -/
def execTestUnlock (p : Path) (tag : BitVec 8) (s : State) : Res := writeOne p tag 0x1E00 4 1 1 s
/-- TEST_LOCK (R41). -/
def execTestLock (p : Path) (tag : BitVec 8) (s : State) : Res := writeOne p tag 0x1E00 6 1 1 s

/-- QUERY_READ_RESET (R62): a read of PinCurrentPeak, which resets it. -/
def execQueryReadReset (p : Path) (tag : BitVec 8) (c : Fin 96) (s : State) : Res := readOne p tag (0x6014 + 0x40 * c.val) 3 4 s
/-- HOST_SLOTS_PEAK_READ (R143). -/
def execHostSlotsPeakRead (p : Path) (tag : BitVec 8) (s : State) : Res := readOne p tag 0x5800 3 3 s
/-- SOFT_QUEUE_PEAK_READ (R172). -/
def execSoftQueuePeakRead (p : Path) (tag : BitVec 8) (s : State) : Res := readOne p tag 0x5900 11 3 s
/-- REORDER_PEAK_READ (R172). -/
def execReorderPeakRead (p : Path) (tag : BitVec 8) (s : State) : Res := readOne p tag 0x5900 12 3 s
/-- SAMPLE_READ (R393): a read of Sample, which clears OvrSeen. -/
def execSampleRead (p : Path) (tag : BitVec 8) (i : Fin 48) (s : State) : Res := readOne p tag (0x3100 + i.val) 1 5 s

/-- SUBMISSION_RING_ENABLE (R111). -/
def execSubmissionRingEnable (p : Path) (tag : BitVec 8) (ring : Fin 8192) (v : Bool) (s : State) : Res :=
  writeOne p tag (0xA000 + ring.val) 1 1 (boolWord v) s
/-- COMPLETION_RING_ENABLE (R111). -/
def execCompletionRingEnable (p : Path) (tag : BitVec 8) (ring : Fin 4096) (v : Bool) (s : State) : Res :=
  writeOne p tag (0xC000 + ring.val) 1 1 (boolWord v) s
/-- ABORT_RING (R106). -/
def execAbortRing (p : Path) (tag : BitVec 8) (ring : Fin 8192) (s : State) : Res := writeOne p tag (0xA000 + ring.val) 14 1 1 s

/-- RECALIBRATE (R222). -/
def execRecalibrate (p : Path) (tag : BitVec 8) (c : Fin 96) (s : State) : Res := writeOne p tag (0x6003 + 0x40 * c.val) 5 1 1 s
/-- ADMIN_ISOLATE (R230). -/
def execAdminIsolate (p : Path) (tag : BitVec 8) (c : Fin 96) (s : State) : Res := writeOne p tag (0x6001 + 0x40 * c.val) 4 1 1 s

/-- CALENDS_NOW (R236). -/
def execCalendsNow (p : Path) (tag : BitVec 8) (v : Duo) (s : State) : Res := writeDuo p tag 0x7801 1 v s

/-- REBUILD_START (R197). -/
def execRebuildStart (p : Path) (tag : BitVec 8) (set : Fin 8) (s : State) : Res := writeOne p tag (0x5010 + set.val) 18 1 1 s
/-- PLAN_COMMIT (R192). -/
def execPlanCommit (p : Path) (tag : BitVec 8) (s : State) : Res := writeOne p tag 0x5030 3 1 1 s
/-- RETIRE_COMMIT (R195). -/
def execRetireCommit (p : Path) (tag : BitVec 8) (s : State) : Res := writeOne p tag 0x5030 6 1 1 s
/-- LOSS_ACK (R190). -/
def execLossAck (p : Path) (tag : BitVec 8) (v : Duo) (s : State) : Res := writeDuo p tag 0x5000 5 v s
/-- LOGICAL_UNITS (R259). -/
def execLogicalUnits (p : Path) (tag : BitVec 8) (set : Fin 8) (v : Duo) (s : State) : Res := writeDuo p tag (0x5010 + set.val) 7 v s

/-- RETIRE_RANK (R272). -/
def execRetireRank (p : Path) (tag : BitVec 8) (sub : Fin 8) (v : Fin 2) (s : State) : Res :=
  writeOne p tag (0x4010 + sub.val) 9 2 (BitVec.ofNat 20 v.val) s
/-- HELPER_START (R280). -/
def execHelperStart (p : Path) (tag : BitVec 8) (s : State) : Res := writeOne p tag 0x4020 10 1 1 s

/-- RETRAIN (R301). -/
def execRetrain (p : Path) (tag : BitVec 8) (port : Fin 3) (s : State) : Res := writeOne p tag (0x8800 + 0x40 * port.val) 8 1 1 s
/-- FULL_TRAIN (R301). -/
def execFullTrain (p : Path) (tag : BitVec 8) (port : Fin 3) (s : State) : Res := writeOne p tag (0x8800 + 0x40 * port.val) 9 1 1 s
/-- LINK_RESET_WRITE (R317). -/
def execLinkResetWrite (p : Path) (tag : BitVec 8) (port : Fin 3) (s : State) : Res := writeOne p tag (0x8800 + 0x40 * port.val) 10 1 1 s

/-- HOLDUP_TEST_START (R369). -/
def execHoldupTestStart (p : Path) (tag : BitVec 8) (s : State) : Res := writeOne p tag 0x2030 9 1 1 s
/-- RESET_DEVICE (R350): Cold follows the response. -/
def execResetDevice (p : Path) (tag : BitVec 8) (s : State) : Res := writeOne p tag 0x2000 6 3 0x0C01D s

/-- CAL_SELECT (R334). -/
def execCalSelect (p : Path) (tag : BitVec 8) (s : State) : Res := writeOne p tag 0x9001 4 1 1 s
/-- CAL_IMPORT (R335). -/
def execCalImport (p : Path) (tag : BitVec 8) (s : State) : Res := writeOne p tag 0x9001 7 1 1 s

/-- GROUP_LEAVE (R439). -/
def execGroupLeave (p : Path) (tag : BitVec 8) (s : State) : Res := writeOne p tag 0xF000 7 3 0x1EA5E s
/-- RELAY_GO (R424). -/
def execRelayGo (p : Path) (tag : BitVec 8) (s : State) : Res := writeOne p tag 0xF020 3 1 1 s
/-- EQUINOX_ARRIVE (R429). -/
def execEquinoxArrive (p : Path) (tag : BitVec 8) (v : Duo) (s : State) : Res := writeDuo p tag 0xF010 3 v s
/-- START_ALL (R429). -/
def execStartAll (p : Path) (tag : BitVec 8) (v : Duo) (s : State) : Res := writeDuo p tag 0xF010 12 v s
/-- BOARD_RESET_ORDERLY (R434). -/
def execBoardResetOrderly (p : Path) (tag : BitVec 8) (s : State) : Res := writeOne p tag 0xF030 1 3 0x0B0D0 s
/-- BOARD_RESET_IMMEDIATE (R435). -/
def execBoardResetImmediate (p : Path) (tag : BitVec 8) (s : State) : Res := writeOne p tag 0xF030 1 3 0x0B0FF s
/-- TRANSFER_START (R436). -/
def execTransferStart (p : Path) (tag : BitVec 8) (s : State) : Res := writeOne p tag 0xF040 8 1 1 s
/-- TRANSFER_STOP (R444). -/
def execTransferStop (p : Path) (tag : BitVec 8) (s : State) : Res := writeOne p tag 0xF040 12 1 1 s
/-- ALL_DATA_RATE (R426). -/
def execAllDataRate (p : Path) (tag : BitVec 8) (v : Word) (s : State) : Res := writeOne p tag 0xF3C2 1 3 v s
/-- ALL_DRIVE_CODE (R426). -/
def execAllDriveCode (p : Path) (tag : BitVec 8) (v : Word) (s : State) : Res := writeOne p tag 0xF3C2 2 2 v s
/-- ALL_ODT_CODE (R426). -/
def execAllOdtCode (p : Path) (tag : BitVec 8) (v : Word) (s : State) : Res := writeOne p tag 0xF3C2 3 2 v s
/-- ALL_THROTTLE_LIMIT (R426). -/
def execAllThrottleLimit (p : Path) (tag : BitVec 8) (v : Word) (s : State) : Res := writeOne p tag 0xF3D1 1 4 v s

/-- UPDATE_COMMIT (R462). -/
def execUpdateCommit (p : Path) (tag : BitVec 8) (s : State) : Res := writeOne p tag 0x8000 7 1 1 s
/-- PROTECT_STANDBY (R461). -/
def execProtectStandby (p : Path) (tag : BitVec 8) (s : State) : Res := writeOne p tag 0x8000 10 1 1 s
/-- CF_READ (R471). -/
def execCfRead (p : Path) (tag : BitVec 8) (s : State) : Res := writeOne p tag 0x8002 3 1 1 s
/-- DUMP_REQUEST (R467). -/
def execDumpRequest (p : Path) (tag : BitVec 8) (s : State) : Res := writeOne p tag 0x8002 7 1 1 s
/-- DUMP_RELEASE (R467). -/
def execDumpRelease (p : Path) (tag : BitVec 8) (s : State) : Res := writeOne p tag 0x8002 10 1 1 s
/-- CUSTOMER_KEY_BURN (R469). -/
def execCustomerKeyBurn (p : Path) (tag : BitVec 8) (s : State) : Res := writeOne p tag 0x8003 7 1 1 s
/-- RAISE_SECURITY_VERSION (R469). -/
def execRaiseSecurityVersion (p : Path) (tag : BitVec 8) (v : BitVec 8) (s : State) : Res := writeOne p tag 0x8003 9 2 (v.setWidth 20) s

/-- CLEAR (R474). -/
def execClear (p : Path) (tag : BitVec 8) (source : Fin 1536) (s : State) : Res := writeOne p tag (0xD000 + source.val) 7 1 1 s
/-- PEPPER_ENABLE (R485). -/
def execPepperEnable (p : Path) (tag : BitVec 8) (v : Bool) (s : State) : Res := writeOne p tag 0xE000 1 1 (boolWord v) s
/-- PEPPER_CLEAR_ALL (R485). -/
def execPepperClearAll (p : Path) (tag : BitVec 8) (s : State) : Res := writeOne p tag 0xE000 3 1 1 s
/-- FORCE_REALIGN (R487). -/
def execForceRealign (p : Path) (tag : BitVec 8) (s : State) : Res := writeOne p tag 0xE050 5 1 1 s
/-- SUPPLY_LOSS (R487): Vigil follows the response. -/
def execSupplyLoss (p : Path) (tag : BitVec 8) (s : State) : Res := writeOne p tag 0xE080 3 1 1 s

end Sys2Proof.Machine
end

