-- ==== Sys2Proof/Machine/Peer.lean ====
section
/-! DEFINITION. Peer.lean: Almanac transactions on the peer ring: relays, their responses, and relay broadcasts (R57, R424, R425). -/

namespace Sys2Proof.Machine

/-- The transaction that a packet carries: Op, header and value words; none if its ByteCount, or the number of its words, is not what the header calls
for (R55, R57). -/
def transactionOf (byteCount : Nat) (ws : List Word) : Option (Nat × ReqHeader × List Word) :=
  if ws.length < 4 then none
  else
    let (op, r) := headerOf (BitVec.ofNat 40 (wordsNat (ws.take 2))) (BitVec.ofNat 40 (wordsNat ((ws.drop 2).take 2)))
    let n := 4 + (if op = 1 ∨ op = 2 then valueCount r else 0)
    if ws.length = n ∧ byteCount = transactionBytes n then some (op, r, ws.drop 4) else none

/-- A transaction arrives on a peer port: one of the wrong length is discarded whole and counted, wherever it travels to (R57, R65). -/
def transactionArrive (port : Fin 3) (h : PeerHdr) (typ : Nat) (ws : List Word) (take : State → State) (s : State) : State :=
  if (transactionOf h.byteCount.toNat ws).isNone ∧ port.val ≠ 0 ∧ s.mode ≠ 0 ∧ s.mode ≠ 5 then (arrivalWake s).inc (K.portMalformedPackets port)
  else peerArrive port h typ 0 ws 0 take s

/-- The class of a peer transaction's source: PEER from the group manager, none from any other buffer (R57). -/
def sourcePath (h : PeerHdr) : Path := if h.source = 0 then .peer else .stranger

/-- Sends the response to a peer transaction to its source, with the same Tag (R420). -/
def replyPeer (h : PeerHdr) (op : Nat) (r : ReqHeader) (vs : List Word) (s : State) : State :=
  let s := respond (sourcePath h) op r vs s
  let (d0, d1) := headerDuos op r
  let (port, hops) := s.route h.source.toNat
  let k : PeerPacket :=
    { typ := 0x11, tag := h.tag.toNat, status := 0, source := s.get K.deviceNumber, dest := h.source.toNat, broadcast := false,
      west := decide (port = 2), hops := hops, generation := s.get K.rosterGeneration, subtype := 0, argument := 0, duo1 := 0,
      words := natWords 2 d0.toNat ++ natWords 2 d1.toNat ++ vs, frame := 0 }
  sendPacket port (.peer k) s

/-- What PeerMgmtRequest does where it is taken (R57). -/
def takePeerMgmtRequest (port : Fin 3) (h : PeerHdr) (ws : List Word) (s : State) : State :=
  match transactionOf h.byteCount.toNat ws with
  | none => s.inc (K.portMalformedPackets port)
  | some (op, r, vs) => if s.answers (sourcePath h) then serveWith (replyPeer h op r) (sourcePath h) op r vs s else s

/-- PEER_MGMT_REQUEST (R57): a transaction of the manager is served as PEER, one of any other buffer without a class; a transaction of the wrong
length is discarded whole and counted (R65). -/
def execPeerMgmtRequest (port : Fin 3) (h : PeerHdr) (ws : List Word) (s : State) : Res :=
  .next (transactionArrive port h 0x10 ws (fun s => takePeerMgmtRequest port h ws (exitPower 3 port s)) s)

/-- The path whose relay a packet answers, if any. -/
def State.relayOf (s : State) (tag dev : Nat) : Option Nat := (List.find? (fun (e : Nat × Nat × Nat) => decide (e.2 = (tag, dev))) s.grp.relays).map (fun e => e.1)

/-- Ends a path's relay with a RelayState (R424). -/
def endRelay (code state : Nat) (s : State) : State :=
  (s.set (K.relayState + (code + 1) * pathStride) state).modGrp (fun g => { g with relays := SMap.erase g.relays code })

/-- What PeerMgmtResponse does where it is taken (R424). -/
def takePeerMgmtResponse (port : Fin 3) (h : PeerHdr) (ws : List Word) (s : State) : State :=
  if !s.isManager then s.inc (K.portMalformedPackets port)
  else match s.relayOf h.tag.toNat h.source.toNat with
    | none => s
    | some code => endRelay code 2 (s.setBlob (K.relayResponse + (code + 1) * pathStride) ws)

/-- PEER_MGMT_RESPONSE (R424): the manager enters the response into RelayResponse of the path that relayed; a worker is no one's destination. -/
def execPeerMgmtResponse (port : Fin 3) (h : PeerHdr) (ws : List Word) (s : State) : Res :=
  .next (peerArrive port h 0x11 0 ws 0 (takePeerMgmtResponse port h ws) s)

/-- What MgmtBroadcast does where it is taken (R425). -/
def takeMgmtBroadcast (port : Fin 3) (h : PeerHdr) (ws : List Word) (s : State) : State :=
  if s.isManager then
    match s.relayOf h.tag.toNat 0x1F with
    | none => s
    | some code => endRelay code 4 (s.set (K.relayReached + (code + 1) * pathStride) (maskOf (s.rosterMembers.filter (fun k => k ≠ 0))))
  else match transactionOf h.byteCount.toNat ws with
    | none => s.inc (K.portMalformedPackets port)
    | some (op, r, vs) =>
      if (op = 1 ∨ op = 2) ∧ s.answers (sourcePath h) then serveWith (fun _ s => s) (sourcePath h) op r vs s else s

/-- MGMT_BROADCAST (R425): a member applies the write as PEER and forwards it, and no response is sent; come back to the manager, the broadcast
is done and every member has taken it. -/
def execMgmtBroadcast (port : Fin 3) (h : PeerHdr) (ws : List Word) (s : State) : Res :=
  .next (transactionArrive port h 0x12 ws (fun s => takeMgmtBroadcast port h ws (exitPower 3 port s)) s)

/-- RELAY_TIMEOUT (R424): no response has arrived within 10 ms. A broadcast that has not come back by then has ended on every arm, and which
members took it is not known to the manager: RelayReached is a free value within the roster (log entry 62). -/
def execRelayTimeout (p : Path) (s : State) : Res :=
  .next (match SMap.find? s.grp.relays (pathCode p) with
    | none => s
    | some (_, dev) =>
      if dev = 0x1F then
        let (i, s) := s.free
        let l := s.rosterMembers.filter (fun k => decide (k ≠ 0) && (Config.freeNat i).testBit k)
        endRelay (pathCode p) 4 (s.set (K.relayReached + (pathCode p + 1) * pathStride) (maskOf l))
      else endRelay (pathCode p) 3 s)

end Sys2Proof.Machine
end

