-- ==== Sys2Proof/Machine/Sideband.lean ====
section
/-! DEFINITION. Sideband.lean: the two sideband ports (R56, R399 to R409): framing, PEC, port resets, and what they answer in each power state. -/

namespace Sys2Proof.Machine

def State.sbPort (s : State) (p : Nat) : SbPort := SMap.getD s.sb p {}
def State.modSb (s : State) (p : Nat) (f : SbPort → SbPort) : State := { s with sb := SMap.modify s.sb p {} f }

/-- Path of a sideband port. -/
def sbPath (p : Fin 2) : Path := if p = 0 then .sb0 else .sb1

/-- The port's own logic runs: from step 1 of start-up on, and for SB1 while SB1_RST_N is high (R58, R408). -/
def State.sbAlive (s : State) (p : Nat) : Bool := decide (s.availability ≠ 0) && !(s.sbPort p).released

/-- Acknowledges the address of a transfer (R409): in S4 the first transfer is not acknowledged and wakes the buffer, in S5 one on SB0 is, while
SB1 does not answer; in the other states below S0 the transfer wakes the buffer and is taken. -/
def sbAddress (p : Fin 2) (s : State) : Bool × State :=
  let k := s.get K.powerState
  if !s.sbAlive p then (false, s.emit (.sbNack p))
  else if k = 5 ∧ p = 1 then (false, s.emit (.sbNack p))
  else if 4 ≤ k then (false, exitPower 2 3 ((s.inc (K.sbWakeNacks p)).emit (.sbNack p)))
  else (true, exitPower 2 3 s)

/-- A STOP: written timing settings take effect (R401). -/
def sbStop (p : Nat) (s : State) : State :=
  s.modSb p (fun x => { x with timing := (s.get (K.sbSdaHold p), s.get (K.sbStartSetup p), s.get (K.sbSpikeFilter p)) })

/-- Address byte of a port: the 7-bit address and the direction, 0 to write and 1 to read (R56, R400). -/
def State.addressByte (s : State) (p read : Nat) : Byte := BitVec.ofNat 8 (2 * s.get (K.sbAddress p) + read)

/-- The request that bytes spell: Op, header and value words; none if they are fewer than its Count requires (R54, R65). -/
def requestOf (bs : List Byte) : Option (Nat × ReqHeader × List Word) :=
  let v := bytesNat bs
  if bs.length < 10 then none
  else
    let (op, r) := headerOf (BitVec.ofNat 40 v) (BitVec.ofNat 40 (v / 2 ^ 40))
    let n := if op = 1 ∨ op = 2 then valueCount r else 0
    if bs.length < transactionBytes (4 + n) then none else some (op, r, natWords n (v / 2 ^ 80))

/-- SB_WRITE_TRANSFER (R56, R402): the length byte, the request and the PEC byte over all bytes and the address byte. A right PEC and length are
acknowledged, the request is committed and an unread response discarded; otherwise the PEC byte is not acknowledged and nothing is served. -/
def execSbWriteTransfer (port : Fin 2) (bytes : List Byte) (s : State) : Res :=
  .next (
    let (ack, s) := sbAddress port s
    if !ack then s
    else
      let body := (bytes.drop 1).dropLast
      let right := decide (2 ≤ bytes.length) && decide (nth bytes 0 0 = BitVec.ofNat 8 body.length) && decide (body.length < 256)
        && decide (bytes.getLast? = some (pec (s.addressByte port 0 :: bytes.dropLast)))
      sbStop port (match (if right then requestOf body else none) with
        | none => (s.inc (K.sbPecFailures port)).emit (.sbNack port)
        | some (op, r, ws) => serve (sbPath port) op r ws (s.modSb port (fun x => { x with response := none }))))

/-- SB_READ_TRANSFER (R56, R402): the pending response with its length and PEC bytes, clocked out whole; L = 0 when none is pending. -/
def execSbReadTransfer (port : Fin 2) (s : State) : Res :=
  .next (
    let (ack, s) := sbAddress port s
    if !ack then s
    else
      let body := (s.sbPort port).response.getD []
      let bs := BitVec.ofNat 8 body.length :: body
      let s := s.emit (.sbBytes port (bs ++ [pec (s.addressByte port 1 :: bs)]))
      sbStop port (s.modSb port (fun x => { x with response := none })))

/-- A port reset (R405): the bus is released, TEST is lost on the path, and a pending response is kept. -/
def portReset (port : Fin 2) (cause : Nat) (s : State) : State :=
  let s := (s.emit (.busRelease port)).inc (K.sbPortResets port)
  loseTest (sbPath port) (s.set (K.sbLastResetCause port) cause)

/-- STRETCH_TIMEOUT (R403). -/
def execStretchTimeout (port : Fin 2) (s : State) : Res :=
  .next (if s.sbAlive port then portReset port 1 (s.inc (K.sbStretchTimeouts port)) else s)

/-- SCL_LOW_TIMEOUT (R404). -/
def execSclLowTimeout (port : Fin 2) (s : State) : Res :=
  .next (if s.sbAlive port then portReset port 2 (s.inc (K.sbSclLowTimeouts port)) else s)

/-- SDA_STUCK_RELEASE (R404). -/
def execSdaStuckRelease (port : Fin 2) (s : State) : Res :=
  .next (if s.sbAlive port then portReset port 3 (s.inc (K.sbSdaStuckReleases port)) else s)

/-- HANG_RECOVERY (R404): a START or STOP inside a byte, or a transfer ended early; the STOP lets timing settings take effect. -/
def execHangRecovery (port : Fin 2) (s : State) : Res := .next (if s.sbAlive port then sbStop port (portReset port 5 s) else s)

/-- SB1_RST_N (R408): low for 1 µs, it resets SB1 and holds the port released. -/
def execSb1RstN (s : State) : Res :=
  .next ((s.when (s.sbAlive 1) (portReset 1 4)).modSb 1 (fun x => { x with released := true }))

/-- SB1_RST_N_RISE (R408): the port takes its address again. -/
def execSb1RstNRise (s : State) : Res := .next (s.modSb 1 (fun x => { x with released := false }))

end Sys2Proof.Machine
end

