-- ==== Sys2Proof/Machine/HostAccess.lean ====
section
/-! DEFINITION. HostAccess.lean: host reads and writes of the buffer's spaces on the Urvan link (R74 to R76, R99, R100, R306, R307). -/

namespace Sys2Proof.Machine

/-- Spaces of the buffer's address map: first byte and size (R306). -/
abbrev windowSize : Nat := 0x400000
abbrev subPoolBase : Nat := 0x1000000
abbrev cplPoolBase : Nat := 0x2000000

/-- A byte of the shared window that the host may reach: the general window only within the grant (R75). -/
def State.granted (s : State) (off : Nat) : Bool :=
  decide (off < 0x20000) || (decide (1024 * s.get K.hostGrantBase ≤ off) && decide (off < 1024 * s.get K.hostGrantLimit))

/-- A range of the shared window lies within what the host may reach; the general window's grant is one range. -/
def State.windowOk (s : State) (off n : Nat) : Bool :=
  decide (off + n ≤ windowSize) && (decide (off + n ≤ 0x20000) || (s.granted (max off 0x20000) && s.granted (off + n - 1)))

/-- Value that a doorbell reads as: the one last accepted (R76). -/
def State.doorbellValue (s : State) (slot : Nat) : Nat :=
  if slot < 8192 then s.get (K.ringTail slot) else s.get (K.cringHead (slot - 8192))

/-- A byte of the shared window as the host reads it: its own stores are seen, whether visible to others or not (R74, R76, R99). -/
def State.windowByte (s : State) (off : Nat) : Byte :=
  if off < 0xC000 then BitVec.ofNat 8 (s.doorbellValue (off / 4) / 2 ^ (8 * (off % 4)))
  else if off < 0x10000 then 0
  else match s.win.pendingStores.flatten.reverse.find? (fun e => decide (e.1 = off)) with
    | some e => e.2
    | none => SMap.getD s.win.bytes off 0

/-- Bits that a byte of the ordered window keeps: in the mailbox, bits [19:0] of its listed slots, since all else of it reads as zero (R447). -/
def orderedMask (off : Nat) : Byte :=
  if 0x10040 ≤ off then 0xFF
  else
    let slot := (off - 0x10000) / 4
    if slot < 5 ∨ (8 ≤ slot ∧ slot < 11) then (if off % 4 = 3 then 0 else if off % 4 = 2 then 0x0F else 0xFF) else 0

/-- Stores one byte to the ordered window, where it is visible at once (R100). -/
def storeByte (off : Nat) (b : Byte) (s : State) : State :=
  { s with win := { s.win with bytes := SMap.put 0 s.win.bytes off (b &&& orderedMask off) } }

/-- A store to the general window, behind the host's earlier ones: its bytes, which lie in one aligned 4-byte word, become visible together
(R99). -/
def storeWord (l : List (Nat × Byte)) (s : State) : State :=
  { s with win := { s.win with pendingStores := s.win.pendingStores ++ [l] } }

/-- Bytes of a number. -/
def byteAt (v k : Nat) : Byte := BitVec.ofNat 8 (v / 2 ^ (8 * k))

/-- A host store to the shared window: each doorbell slot covered whole is acted upon, in ascending order; parts of slots are violations and
change nothing (R76). -/
def windowWrite (off n v : Nat) (s : State) : State :=
  let first := (off + 3) / 4
  let last := min (off + n) 0xC000 / 4
  let s := s.over ((List.range (last - first)).map (fun i => first + i)) (fun s k =>
    let w := v / 2 ^ (8 * (4 * k - off)) % 1048576
    if k < 8192 then doorbell false k w s else doorbell true (k - 8192) w s)
  let cells := (List.range n).map (fun i => (off + i, byteAt v i))
  let s := s.over (cells.filter (fun e => 0x10000 ≤ e.1 && e.1 < 0x20000)) (fun s e => storeByte e.1 e.2 s)
  let words := ((List.range (n / 4 + 2)).map (fun i => cells.filter (fun e => 0x20000 ≤ e.1 && e.1 / 4 = off / 4 + i))).filter (fun l => l ≠ [])
  s.over words (fun s l => storeWord l s)

/-- Bits of a duo that are no rsvd field of a descriptor with an opcode: duo 0 but for [32:20], and the operands that the opcode uses (R79, R80). -/
def descFields (opcode : Nat) : List Nat :=
  let all := 2 ^ 40 - 1
  let head := all - (2 ^ 33 - 2 ^ 20)
  let count := 2 ^ 20 - 1
  match opcode with
  | 0x01 => [head, 0, all, count, all]
  | 0x02 => [head, all, all, count, all]
  | 0x03 => [head, 0, all, count, 0]
  | 0x10 => [head, 0, all, 63, all]
  | 0x11 => [head, 0, all, 32, all]
  | 0x12 => [head, 0, all, 15, 0]
  | 0x21 => [head, 0, all, 0, 0]
  | 0x22 => [head, 0, all, 0, 0]
  | 0x00 | 0x04 | 0x20 => [head, 0, 0, 0, 0]
  | _ => [head, all, all, all, all]

/-- A descriptor as its slot holds it: the value written to a rsvd field is ignored, and the field reads as zero (R10). -/
def storedDesc (d : Descriptor) : Descriptor := d &&& BitVec.ofNat 320 (duosNat (descFields (descOpcode d)))

/-- A host write of whole submission slots of the host's share (R70, R307). -/
def poolWrite (off n v : Nat) (s : State) : State :=
  if off % 40 = 0 ∧ n % 40 = 0 ∧ off + n ≤ 40 * 253952 then
    s.over (List.range (n / 40)) (fun s i =>
      { s with rings := { s.rings with subPool := SMap.put 0 s.rings.subPool (off / 40 + i) (storedDesc (BitVec.ofNat 320 (v / 2 ^ (320 * i)))) } })
  else s

/-- The Urvan link carries packets now. -/
def State.hostReaches (s : State) : Bool := decide (s.get (K.portLinkState 0) = 2) && decide (s.mode ≠ 0) && decide (s.mode ≠ 5)

/-- MEM_WRITE (R306, R307): a host write to the shared window or to submission slots; to anything else it is a violation and changes nothing. -/
def execMemWrite (addr : Duo) (n : BitVec 13) (v : BitVec 32768) (s : State) : Res :=
  .next (
    let a := addr.toNat
    let n := n.toNat
    if !s.hostReaches ∨ n = 0 ∨ 4096 < n then s
    else
      let s := { s with pw := { s.pw with request := none } }
      if a < windowSize then (if s.windowOk a n then windowWrite a n (v.toNat % 2 ^ (8 * n)) s else s)
      else if subPoolBase ≤ a ∧ a < subPoolBase + 40 * 262144 then poolWrite (a - subPoolBase) n (v.toNat % 2 ^ (8 * n)) s
      else s)

/-- Bytes that a host read of a range returns: zeros for a violation (R75, R307). -/
def State.hostRead (s : State) (a n : Nat) : List Byte :=
  let zeros : List Byte := List.replicate n 0
  if a < windowSize then (if s.windowOk a n then (List.range n).map (fun i => s.windowByte (a + i)) else zeros)
  else if subPoolBase ≤ a ∧ a + n ≤ subPoolBase + 40 * 262144 then
    (List.range n).map (fun i => let o := a + i - subPoolBase; byteAt (SMap.getD s.rings.subPool (o / 40) 0).toNat (o % 40))
  else if cplPoolBase ≤ a ∧ a + n ≤ cplPoolBase + 20 * 131072 then
    (List.range n).map (fun i => let o := a + i - cplPoolBase; byteAt (SMap.getD s.rings.cplPool (o / 20) 0).toNat (o % 20))
  else zeros

/-- MEM_READ_REQ (R307): answered with one MemReadData. -/
def execMemReadReq (tag : BitVec 13) (addr : Duo) (n : BitVec 13) (s : State) : Res :=
  .next (
    if !s.hostReaches ∨ n = 0 ∨ 4096 < n.toNat then s
    else
      let v := bytesNat (s.hostRead addr.toNat n.toNat)
      sendPacket 0 (.memReadData tag.toNat addr.toNat n.toNat (BitVec.ofNat 32768 v)) { s with pw := { s.pw with request := none } })

end Sys2Proof.Machine
end

