-- ==== Sys2Proof/Machine/Dispatch.lean ====
section
/-! DEFINITION. Dispatch.lean: the effect of each command on everything but the queue, one arm per command. -/

namespace Sys2Proof.Machine

def exec (i : Instr) (s : State) : Host.Outcome State Fault Refusal :=
  match i with
  | .handshakeWatchdog cls stage pepper => Sys2Proof.Machine.execHandshakeWatchdog cls stage pepper s
  | .vidStepWaitEnd => Sys2Proof.Machine.execVidStepWaitEnd s
  | .vidLower => Sys2Proof.Machine.execVidLower s
  | .stageWedged cls stage pepper => Sys2Proof.Machine.execStageWedged cls stage pepper s
  | .stageSelfTest cls stage passed => Sys2Proof.Machine.execStageSelfTest cls stage passed s
  | .eventCompletionPost ring => Sys2Proof.Machine.execEventCompletionPost ring s
  | .almanacRead p r => Sys2Proof.Machine.execAlmanacRead p r s
  | .almanacWrite p r ws => Sys2Proof.Machine.execAlmanacWrite p r ws s
  | .orderedWrite p r ws => Sys2Proof.Machine.execOrderedWrite p r ws s
  | .rsvdOp p r => Sys2Proof.Machine.execRsvdOp p r s
  | .restoreDefaults p tag v => Sys2Proof.Machine.execRestoreDefaults p tag v s
  | .testUnlock p tag => Sys2Proof.Machine.execTestUnlock p tag s
  | .testVerifyDone p => Sys2Proof.Machine.execTestVerifyDone p s
  | .testLock p tag => Sys2Proof.Machine.execTestLock p tag s
  | .queryReadReset p tag c => Sys2Proof.Machine.execQueryReadReset p tag c s
  | .hostSlotsPeakRead p tag => Sys2Proof.Machine.execHostSlotsPeakRead p tag s
  | .softQueuePeakRead p tag => Sys2Proof.Machine.execSoftQueuePeakRead p tag s
  | .reorderPeakRead p tag => Sys2Proof.Machine.execReorderPeakRead p tag s
  | .sampleRead p tag idx => Sys2Proof.Machine.execSampleRead p tag idx s
  | .submissionDoorbell ring v => Sys2Proof.Machine.execSubmissionDoorbell ring v s
  | .completionHeadDoorbell ring v => Sys2Proof.Machine.execCompletionHeadDoorbell ring v s
  | .submissionRingEnable p tag ring v => Sys2Proof.Machine.execSubmissionRingEnable p tag ring v s
  | .completionRingEnable p tag ring v => Sys2Proof.Machine.execCompletionRingEnable p tag ring v s
  | .abortRing p tag ring => Sys2Proof.Machine.execAbortRing p tag ring s
  | .descriptorFetch => Sys2Proof.Machine.execDescriptorFetch s
  | .nop ring slot => Sys2Proof.Machine.execNop ring slot s
  | .read ring slot => Sys2Proof.Machine.execRead ring slot s
  | .write ring slot => Sys2Proof.Machine.execWrite ring slot s
  | .trim ring slot => Sys2Proof.Machine.execTrim ring slot s
  | .flush ring slot => Sys2Proof.Machine.execFlush ring slot s
  | .flushSettled ring slot => Sys2Proof.Machine.execFlushSettled ring slot s
  | .rawRead ring slot => Sys2Proof.Machine.execRawRead ring slot s
  | .rawProgram ring slot => Sys2Proof.Machine.execRawProgram ring slot s
  | .rawErase ring slot => Sys2Proof.Machine.execRawErase ring slot s
  | .fence ring slot => Sys2Proof.Machine.execFence ring slot s
  | .fenceComplete ring slot => Sys2Proof.Machine.execFenceComplete ring slot s
  | .barrierRelease ring slot => Sys2Proof.Machine.execBarrierRelease ring slot s
  | .migrate ring slot => Sys2Proof.Machine.execMigrate ring slot s
  | .migrationDone ring => Sys2Proof.Machine.execMigrationDone ring s
  | .abortRingScope ring slot => Sys2Proof.Machine.execAbortRingScope ring slot s
  | .abortChannelScope ring slot => Sys2Proof.Machine.execAbortChannelScope ring slot s
  | .abortDeviceScope ring slot => Sys2Proof.Machine.execAbortDeviceScope ring slot s
  | .abortCodeFlashScope ring slot => Sys2Proof.Machine.execAbortCodeFlashScope ring slot s
  | .abortComplete idx => Sys2Proof.Machine.execAbortComplete idx s
  | .notifyDelay ring => Sys2Proof.Machine.execNotifyDelay ring s
  | .writeAdmission => Sys2Proof.Machine.execWriteAdmission s
  | .tagWaitRelease ring slot => Sys2Proof.Machine.execTagWaitRelease ring slot s
  | .writeAcknowledge ring slot => Sys2Proof.Machine.execWriteAcknowledge ring slot s
  | .journalPageTimer => Sys2Proof.Machine.execJournalPageTimer s
  | .memberProgramTake take => Sys2Proof.Machine.execMemberProgramTake take s
  | .rowCloseDelay set => Sys2Proof.Machine.execRowCloseDelay set s
  | .backgroundSlotFree => Sys2Proof.Machine.execBackgroundSlotFree s
  | .dieQueueIssue c d => Sys2Proof.Machine.execDieQueueIssue c d s
  | .programHoldoff c d => Sys2Proof.Machine.execProgramHoldoff c d s
  | .busGrant c framing parityBad => Sys2Proof.Machine.execBusGrant c framing parityBad s
  | .hardDecode c ones pass => Sys2Proof.Machine.execHardDecode c ones pass s
  | .softDecode pass => Sys2Proof.Machine.execSoftDecode pass s
  | .reconstructFrame outcomes => Sys2Proof.Machine.execReconstructFrame outcomes s
  | .lossNotice => Sys2Proof.Machine.execLossNotice s
  | .statusPoll c d r => Sys2Proof.Machine.execStatusPoll c d r s
  | .dieTemperatureRead c d t => Sys2Proof.Machine.execDieTemperatureRead c d t s
  | .zqCalibrationShort c target => Sys2Proof.Machine.execZqCalibrationShort c target s
  | .writeCheck c d passed => Sys2Proof.Machine.execWriteCheck c d passed s
  | .channelTraining c r => Sys2Proof.Machine.execChannelTraining c r s
  | .recalibrate p tag c => Sys2Proof.Machine.execRecalibrate p tag c s
  | .adminIsolate p tag c => Sys2Proof.Machine.execAdminIsolate p tag c s
  | .pinCurrentTrip c lines current => Sys2Proof.Machine.execPinCurrentTrip c lines current s
  | .pinCurrentPeakSample c current => Sys2Proof.Machine.execPinCurrentPeakSample c current s
  | .dieCountSave => Sys2Proof.Machine.execDieCountSave s
  | .calendsAdvance => Sys2Proof.Machine.execCalendsAdvance s
  | .calendsSave => Sys2Proof.Machine.execCalendsSave s
  | .calendsNow p tag v => Sys2Proof.Machine.execCalendsNow p tag v s
  | .harvestTableSave => Sys2Proof.Machine.execHarvestTableSave s
  | .selectVictim set => Sys2Proof.Machine.execSelectVictim set s
  | .harvestCopy set outcomes => Sys2Proof.Machine.execHarvestCopy set outcomes s
  | .victimErase set => Sys2Proof.Machine.execVictimErase set s
  | .wearCheck set => Sys2Proof.Machine.execWearCheck set s
  | .scrubRead set outcomes => Sys2Proof.Machine.execScrubRead set outcomes s
  | .scrubPositionSave => Sys2Proof.Machine.execScrubPositionSave s
  | .healthSave => Sys2Proof.Machine.execHealthSave s
  | .memberLoss set => Sys2Proof.Machine.execMemberLoss set s
  | .lossScanEnd set => Sys2Proof.Machine.execLossScanEnd set s
  | .walkStripe set outcomes => Sys2Proof.Machine.execWalkStripe set outcomes s
  | .boundaryAdvance set => Sys2Proof.Machine.execBoundaryAdvance set s
  | .walkResume set => Sys2Proof.Machine.execWalkResume set s
  | .rebuildStart p tag set => Sys2Proof.Machine.execRebuildStart p tag set s
  | .planCommit p tag => Sys2Proof.Machine.execPlanCommit p tag s
  | .retireCommit p tag => Sys2Proof.Machine.execRetireCommit p tag s
  | .lossAck p tag v => Sys2Proof.Machine.execLossAck p tag v s
  | .logicalUnits p tag set v => Sys2Proof.Machine.execLogicalUnits p tag set v s
  | .dramPick sub r => Sys2Proof.Machine.execDramPick sub r s
  | .refresh sub rank => Sys2Proof.Machine.execRefresh sub rank s
  | .activateTableClear => Sys2Proof.Machine.execActivateTableClear s
  | .selfRefreshEntry sub rank => Sys2Proof.Machine.execSelfRefreshEntry sub rank s
  | .patrolScrub r => Sys2Proof.Machine.execPatrolScrub r s
  | .mr4Read sub rank doubled => Sys2Proof.Machine.execMr4Read sub rank doubled s
  | .dqsTracking sub rank steps => Sys2Proof.Machine.execDqsTracking sub rank steps s
  | .dramZqCalibration sub rank => Sys2Proof.Machine.execDramZqCalibration sub rank s
  | .rankCopy sub bursts parity => Sys2Proof.Machine.execRankCopy sub bursts parity s
  | .regionRecoveryDone idx => Sys2Proof.Machine.execRegionRecoveryDone idx s
  | .retireRank p tag sub v => Sys2Proof.Machine.execRetireRank p tag sub v s
  | .helperStart p tag => Sys2Proof.Machine.execHelperStart p tag s
  | .helperRunEnd laneErrors firstFail => Sys2Proof.Machine.execHelperRunEnd laneErrors firstFail s
  | .payloadFlit port ctl beats => Sys2Proof.Machine.execPayloadFlit port ctl beats s
  | .idleFlit port flit => Sys2Proof.Machine.execIdleFlit port flit s
  | .paramFlit port ctl creditP creditN role reset width => Sys2Proof.Machine.execParamFlit port ctl creditP creditN role reset width s
  | .powerEnterS1 port ctl => Sys2Proof.Machine.execPowerEnterS1 port ctl s
  | .powerEnterS2 port ctl => Sys2Proof.Machine.execPowerEnterS2 port ctl s
  | .powerEnterDeep port ctl => Sys2Proof.Machine.execPowerEnterDeep port ctl s
  | .powerAcknowledge port ctl => Sys2Proof.Machine.execPowerAcknowledge port ctl s
  | .powerVigil port ctl => Sys2Proof.Machine.execPowerVigil port ctl s
  | .wakePattern port => Sys2Proof.Machine.execWakePattern port s
  | .missedHeader port => Sys2Proof.Machine.execMissedHeader port s
  | .flitLock lock => Sys2Proof.Machine.execFlitLock lock s
  | .lockTimeout port => Sys2Proof.Machine.execLockTimeout port s
  | .ackDue port => Sys2Proof.Machine.execAckDue port s
  | .replayTimeout port => Sys2Proof.Machine.execReplayTimeout port s
  | .portTraining port r => Sys2Proof.Machine.execPortTraining port r s
  | .linkTrainRetry port => Sys2Proof.Machine.execLinkTrainRetry port s
  | .retrain p tag port => Sys2Proof.Machine.execRetrain p tag port s
  | .fullTrain p tag port => Sys2Proof.Machine.execFullTrain p tag port s
  | .linkResetWrite p tag port => Sys2Proof.Machine.execLinkResetWrite p tag port s
  | .memWrite addr n v => Sys2Proof.Machine.execMemWrite addr n v s
  | .memReadReq tag addr n => Sys2Proof.Machine.execMemReadReq tag addr n s
  | .memReadData tag n poisoned v => Sys2Proof.Machine.execMemReadData tag n poisoned v s
  | .memReadTimeout tag => Sys2Proof.Machine.execMemReadTimeout tag s
  | .mgmtRequest byteCount d0 d1 ws => Sys2Proof.Machine.execMgmtRequest byteCount d0 d1 ws s
  | .sbWriteTransfer port bytes => Sys2Proof.Machine.execSbWriteTransfer port bytes s
  | .sbReadTransfer port => Sys2Proof.Machine.execSbReadTransfer port s
  | .stretchTimeout port => Sys2Proof.Machine.execStretchTimeout port s
  | .sclLowTimeout port => Sys2Proof.Machine.execSclLowTimeout port s
  | .sdaStuckRelease port => Sys2Proof.Machine.execSdaStuckRelease port s
  | .hangRecovery port => Sys2Proof.Machine.execHangRecovery port s
  | .sb1RstN => Sys2Proof.Machine.execSb1RstN s
  | .adcConversion raw value peak => Sys2Proof.Machine.execAdcConversion raw value peak s
  | .bankShorted => Sys2Proof.Machine.execBankShorted s
  | .holdupTest => Sys2Proof.Machine.execHoldupTest s
  | .holdupTestEnd => Sys2Proof.Machine.execHoldupTestEnd s
  | .holdupTestPeriod => Sys2Proof.Machine.execHoldupTestPeriod s
  | .holdupTestStart p tag => Sys2Proof.Machine.execHoldupTestStart p tag s
  | .vinFail => Sys2Proof.Machine.execVinFail s
  | .vigilEndMark => Sys2Proof.Machine.execVigilEndMark s
  | .vigilTimeout => Sys2Proof.Machine.execVigilTimeout s
  | .vinGood => Sys2Proof.Machine.execVinGood s
  | .supplyFall aon => Sys2Proof.Machine.execSupplyFall aon s
  | .modRstNFall => Sys2Proof.Machine.execModRstNFall s
  | .modRstNRise l2 l1 l0 manager => Sys2Proof.Machine.execModRstNRise l2 l1 l0 manager s
  | .firmwareVerified => Sys2Proof.Machine.execFirmwareVerified s
  | .railPowerGood => Sys2Proof.Machine.execRailPowerGood s
  | .railGroupHold => Sys2Proof.Machine.execRailGroupHold s
  | .railSequenceTimeout k => Sys2Proof.Machine.execRailSequenceTimeout k s
  | .railPowerGoodLow k => Sys2Proof.Machine.execRailPowerGoodLow k s
  | .railRetry => Sys2Proof.Machine.execRailRetry s
  | .groupWaitEnd => Sys2Proof.Machine.execGroupWaitEnd s
  | .servingModeEntry => Sys2Proof.Machine.execServingModeEntry s
  | .resetDevice p tag => Sys2Proof.Machine.execResetDevice p tag s
  | .powerStateEntry => Sys2Proof.Machine.execPowerStateEntry s
  | .autoPoise => Sys2Proof.Machine.execAutoPoise s
  | .saveTimer => Sys2Proof.Machine.execSaveTimer s
  | .mappingSave => Sys2Proof.Machine.execMappingSave s
  | .thresholdSurvey c d ones headersOk => Sys2Proof.Machine.execThresholdSurvey c d ones headersOk s
  | .reapplyStoredSet idx => Sys2Proof.Machine.execReapplyStoredSet idx s
  | .calSelect p tag => Sys2Proof.Machine.execCalSelect p tag s
  | .calImport p tag => Sys2Proof.Machine.execCalImport p tag s
  | .discoverTimer => Sys2Proof.Machine.execDiscoverTimer s
  | .discover port h => Sys2Proof.Machine.execDiscover port h s
  | .joinRequest port h => Sys2Proof.Machine.execJoinRequest port h s
  | .grant port h => Sys2Proof.Machine.execGrant port h s
  | .roster port h => Sys2Proof.Machine.execRoster port h s
  | .heartbeatTimer => Sys2Proof.Machine.execHeartbeatTimer s
  | .heartbeat port h => Sys2Proof.Machine.execHeartbeat port h s
  | .status port h => Sys2Proof.Machine.execStatus port h s
  | .memberUnreachable k => Sys2Proof.Machine.execMemberUnreachable k s
  | .managerUnreachable => Sys2Proof.Machine.execManagerUnreachable s
  | .leave port h => Sys2Proof.Machine.execLeave port h s
  | .groupLeave p tag => Sys2Proof.Machine.execGroupLeave p tag s
  | .peerMgmtRequest port h ws => Sys2Proof.Machine.execPeerMgmtRequest port h ws s
  | .peerMgmtResponse port h ws => Sys2Proof.Machine.execPeerMgmtResponse port h ws s
  | .mgmtBroadcast port h ws => Sys2Proof.Machine.execMgmtBroadcast port h ws s
  | .relayGo p tag => Sys2Proof.Machine.execRelayGo p tag s
  | .relayTimeout p => Sys2Proof.Machine.execRelayTimeout p s
  | .equinoxArrive p tag v => Sys2Proof.Machine.execEquinoxArrive p tag v s
  | .startAll p tag v => Sys2Proof.Machine.execStartAll p tag v s
  | .arriveAll port h => Sys2Proof.Machine.execArriveAll port h s
  | .eqxNRise => Sys2Proof.Machine.execEqxNRise s
  | .eqxRearm => Sys2Proof.Machine.execEqxRearm s
  | .eqxNFall => Sys2Proof.Machine.execEqxNFall s
  | .barrierTimeout => Sys2Proof.Machine.execBarrierTimeout s
  | .snapshotHoldLimit => Sys2Proof.Machine.execSnapshotHoldLimit s
  | .snapshotDurable => Sys2Proof.Machine.execSnapshotDurable s
  | .snapshotGather port h => Sys2Proof.Machine.execSnapshotGather port h s
  | .snapshotReport port h => Sys2Proof.Machine.execSnapshotReport port h s
  | .boardResetOrderly p tag => Sys2Proof.Machine.execBoardResetOrderly p tag s
  | .boardResetImmediate p tag => Sys2Proof.Machine.execBoardResetImmediate p tag s
  | .resetPrepare port h => Sys2Proof.Machine.execResetPrepare port h s
  | .drainComplete => Sys2Proof.Machine.execDrainComplete s
  | .drained port h => Sys2Proof.Machine.execDrained port h s
  | .resetDrainLimit => Sys2Proof.Machine.execResetDrainLimit s
  | .reset port h => Sys2Proof.Machine.execReset port h s
  | .managerResetDelay => Sys2Proof.Machine.execManagerResetDelay s
  | .transferStart p tag => Sys2Proof.Machine.execTransferStart p tag s
  | .transferStop p tag => Sys2Proof.Machine.execTransferStop p tag s
  | .transferUnitSend outcomes => Sys2Proof.Machine.execTransferUnitSend outcomes s
  | .transferData port h frame => Sys2Proof.Machine.execTransferData port h frame s
  | .transferAck port h => Sys2Proof.Machine.execTransferAck port h s
  | .allDataRate p tag v => Sys2Proof.Machine.execAllDataRate p tag v s
  | .allDriveCode p tag v => Sys2Proof.Machine.execAllDriveCode p tag v s
  | .allOdtCode p tag v => Sys2Proof.Machine.execAllOdtCode p tag v s
  | .allThrottleLimit p tag v => Sys2Proof.Machine.execAllThrottleLimit p tag v s
  | .updateChunk => Sys2Proof.Machine.execUpdateChunk s
  | .readArea => Sys2Proof.Machine.execReadArea s
  | .updateCommit p tag => Sys2Proof.Machine.execUpdateCommit p tag s
  | .protectStandby p tag => Sys2Proof.Machine.execProtectStandby p tag s
  | .codeFlashRead cls addr count sram => Sys2Proof.Machine.execCodeFlashRead cls addr count sram s
  | .codeFlashProgram cls addr sram ws => Sys2Proof.Machine.execCodeFlashProgram cls addr sram ws s
  | .codeFlashErase cls sector hint => Sys2Proof.Machine.execCodeFlashErase cls sector hint s
  | .codeFlashProtect cls sector count => Sys2Proof.Machine.execCodeFlashProtect cls sector count s
  | .otpRead cls word count => Sys2Proof.Machine.execOtpRead cls word count s
  | .otpProgram cls word v => Sys2Proof.Machine.execOtpProgram cls word v s
  | .codeFlashCompletion outcome => Sys2Proof.Machine.execCodeFlashCompletion outcome s
  | .cfRead p tag => Sys2Proof.Machine.execCfRead p tag s
  | .dumpRequest p tag => Sys2Proof.Machine.execDumpRequest p tag s
  | .dumpRelease p tag => Sys2Proof.Machine.execDumpRelease p tag s
  | .customerKeyBurn p tag => Sys2Proof.Machine.execCustomerKeyBurn p tag s
  | .raiseSecurityVersion p tag v => Sys2Proof.Machine.execRaiseSecurityVersion p tag v s
  | .wardenWatchdog core => Sys2Proof.Machine.execWardenWatchdog core s
  | .wardenFault core parity => Sys2Proof.Machine.execWardenFault core parity s
  | .clear p tag source => Sys2Proof.Machine.execClear p tag source s
  | .pepperEnable p tag v => Sys2Proof.Machine.execPepperEnable p tag v s
  | .pepperClearAll p tag => Sys2Proof.Machine.execPepperClearAll p tag s
  | .forceRealign p tag => Sys2Proof.Machine.execForceRealign p tag s
  | .supplyLoss p tag => Sys2Proof.Machine.execSupplyLoss p tag s
  | .dramTraining ranks => Sys2Proof.Machine.execDramTraining ranks s
  | .serviceAdaptation port lane eyeWidth eyeHeight ber => Sys2Proof.Machine.execServiceAdaptation port lane eyeWidth eyeHeight ber s
  | .holdupChargeRetry => Sys2Proof.Machine.execHoldupChargeRetry s
  | .sb1RstNRise => Sys2Proof.Machine.execSb1RstNRise s
  | .vddAonInRange => Sys2Proof.Machine.execVddAonInRange s

end Sys2Proof.Machine
end

