-- ==== Sys2Proof/Machine/Idle.lean ====
section
/-! DEFINITION. Idle.lean: what happens at a tick of one microsecond while no command waits: what the manual lets happen at a time of the
buffer's choosing, or at a time that no row of the table names (log entry 2). -/

namespace Sys2Proof.Machine

/-- The oldest host store to the general window becomes visible, all its bytes at once (R99). -/
def drainOne (s : State) : State :=
  match s.win.pendingStores with
  | [] => s
  | e :: r => { s with win := { bytes := e.foldl (fun m x => SMap.put 0 m x.1 x.2) s.win.bytes, pendingStores := r } }

/-- One idle microsecond: in S5 the reference oscillator stands, and no time passes in the buffer (R355). -/
def idle (s : State) : State :=
  let s := if s.get K.powerState = 5 then s else { s with now := s.now + 1 }
  let s := vidDue (lowerNext (reloadParked (drainOne (postHeld s))))
  let s := if s.mode = 5 then s else bringupTick (leaveUnheld (tryStep1 s))
  let s := s.when (decide (2 ≤ s.mode ∧ s.mode ≤ 4) || decide (s.mode = 1 ∧ 3 ≤ s.get K.bringupStep)) (flushHeld 1)
  s.when (decide (1 ≤ s.mode ∧ s.mode ≤ 4)) updateHealth

end Sys2Proof.Machine
end

