-- ==== Sys2Proof/Safety.lean ====
section
/-! DEFINITION. Safety.lean: what a run is held to, in the terms that claims use: every step answers a next state, the shared window keeps its
one canonical form, and which transactions are no violation. -/

namespace Sys2Proof.Machine

/-- A step or a command that goes on. -/
def Goes (o : Res) : Prop := ∃ t, o = .next t

/-- The shared window in its canonical form (R74): offsets strictly rising, and no entry equal to what an unlisted offset reads as. -/
def State.windowCanonical (s : State) : Prop := SMap.canonical 0 s.win.bytes = true

/-- The state in which arriving work is served: a power request that waits is cancelled (R358). -/
def State.awake (s : State) : State := { s with pw := { s.pw with request := none } }

/-- A write of one value to an object is served and is no violation (R40, R58, R63): the path answers, the mode and a class of the path allow it,
the object may be written, and the value is in range. -/
def State.mayWrite (s : State) (p : Path) (idx sub v : Nat) : Bool :=
  match objAt idx sub with
  | none => false
  | some (inst, r) =>
    s.answers p && s.modeAllows idx true && decide (r.mask &&& s.classes p ≠ 0)
      && (match s.access idx r with | .rw => true | .wo => true | .rwp => true | _ => false)
      && s.valueOk p idx sub inst r v && togetherOk idx [(sub, v &&& r.keep)] s

/-- A port that is up takes a received flit of a kind: its sync header is whole, its CRC good and not forced to fail, and its Seq is the next
one (R291, R294, R298). -/
def State.takesFlit (s : State) (p : Nat) (ctl : FlitCtl) (body : BitVec 1920) (kind : Nat) : Prop :=
  s.get (K.portLinkState p) = 2 ∧ syncDiffs ctl.sync = 0 ∧ ctlCrcGood ctl body = true ∧ s.flag K.pepperEnable = false ∧ ctlKind ctl = kind

/-- The state once a flit that is taken has been counted and its acknowledgement and credits have been taken (R292, R300, R309). -/
def flitTaken (p : Nat) (ctl : FlitCtl) (s : State) : State :=
  takeControl p ctl ((s.add (K.portSyncSymbolErrors p) 0).inc (K.portFlitsReceived p))

/-- A broadcast with this header is not of a generation before the one that this buffer holds, or this buffer is the manager (R421). -/
def State.broadcastFresh (s : State) (h : PeerHdr) : Bool :=
  s.isManager || !(s.isMember && decide ((s.grp.grantGen + 1048576 - h.generation.toNat) % 1048576 ≠ 0)
    && decide ((s.grp.grantGen + 1048576 - h.generation.toNat) % 1048576 < 524288))

/-- The state in which a broadcast has its effect: the manager has heard its own; a worker has passed it on where hops are left, and knows by it
the way to the manager (R420, R421, R439). -/
def broadcastHeard (port : Fin 3) (h : PeerHdr) (typ subtype : Nat) (ws : List Word) (s : State) : State :=
  if s.isManager then heardFrom h s
  else ((heardFrom h s).when (decide (h.hops.toNat - 1 ≠ 0)) (forwardPacket (if port.val = 1 then 2 else 1) (passOn h typ subtype ws 0))).modGrp
    (fun g => { g with mgrPort := port, mgrHops := max 1 (((heardFrom h s).when (decide (h.hops.toNat - 1 ≠ 0))
      (forwardPacket (if port.val = 1 then 2 else 1) (passOn h typ subtype ws 0))).get K.memberCount - 1 - (h.hops.toNat - 1)) })

/-- A read of one object is served and is no violation (R40, R58, R63). -/
def State.mayRead (s : State) (p : Path) (idx sub : Nat) : Bool :=
  match objAt idx sub with
  | none => false
  | some (_, r) =>
    s.answers p && s.modeAllows idx false && decide (r.mask &&& s.classes p ≠ 0) && decide (s.access idx r ≠ .wo)

end Sys2Proof.Machine
end

