-- ==== Sys2Proof/Certificates/Slice0/Obligations.lean ====
section
/-! DEFINITION. Obligations.lean: the statements for the provers, from the numbered rules of the manual. -/

section

open Sys2Proof Sys2Proof.Machine

/-- With command c at the front of the queue, a step is the effect of c on the state with the queue's rest (the queue is the model's own); with no command
waiting a step is one idle microsecond (the model's choice, log entry 2). (00_scope.md) -/
def Obligations.StepTakesTheFrontCommand : Prop :=
  (∀ (c : Instr) (rest : List Instr) (s : State), s.pending = c :: rest → step s = exec c { s with pending := rest }) ∧
  (∀ s : State, s.pending = [] → step s = .next (idle s))

/-- Every command in every state, and so every step, answers a next state: whatever arrives, the block goes on. (17_events_faults_test.md) -/
def Obligations.EveryCommandGoesOn : Prop :=
  (∀ (c : Instr) (s : State), Goes (exec c s)) ∧ (∀ s : State, Goes (step s))

/-- The next state of every command has the queue that it found, entry to Cold included; so the queue after a step is the queue before it without its
front, and a step on an empty queue leaves it empty (the queue is the model's own). (00_scope.md) -/
def Obligations.StepTakesExactlyOneCommand : Prop :=
  (∀ (c : Instr) (s t : State), exec c s = .next t → t.pending = s.pending) ∧
  (∀ s t : State, step s = .next t → t.pending = s.pending.drop 1)

/-- From every state whose shared window lists rising offsets and no zero byte, every step of every command, and every idle step, gives a state whose
window is listed so: equal windows are equal data. (03_rings.md) -/
def Obligations.StepKeepsWindowCanonical : Prop :=
  ∀ s t : State, s.windowCanonical → step s = .next t → t.windowCanonical

/-- Each of these commands answers a next state from every state, and leaves every byte of the shared window and every store that is not yet visible as it
was: SUBMISSION_DOORBELL, COMPLETION_HEAD_DOORBELL, DESCRIPTOR_FETCH, READ, WRITE, WRITE_ACKNOWLEDGE, MEM_READ_DATA, PAYLOAD_FLIT, DIE_QUEUE_ISSUE,
BUS_GRANT and WALK_STRIPE. (03_rings.md R74, 03_rings.md R99) -/
def Obligations.CommandStoresToTheWindow : Prop :=
  ∀ s : State,
    (∀ (n : Fin 8192) (v : Word), ∃ t, exec (.submissionDoorbell n v) s = .next t ∧ t.win = s.win) ∧
    (∀ (m : Fin 4096) (v : Word), ∃ t, exec (.completionHeadDoorbell m v) s = .next t ∧ t.win = s.win) ∧
    (∃ t, exec .descriptorFetch s = .next t ∧ t.win = s.win) ∧
    (∀ (n : Fin 8192) (k : Fin 65536), ∃ t, exec (.read n k) s = .next t ∧ t.win = s.win) ∧
    (∀ (n : Fin 8192) (k : Fin 65536), ∃ t, exec (.write n k) s = .next t ∧ t.win = s.win) ∧
    (∀ (n : Fin 8192) (k : Fin 65536), ∃ t, exec (.writeAcknowledge n k) s = .next t ∧ t.win = s.win) ∧
    (∀ (tag n : BitVec 13) (b : Bool) (v : BitVec 32768), ∃ t, exec (.memReadData tag n b v) s = .next t ∧ t.win = s.win) ∧
    (∀ (p : Fin 3) (ctl : FlitCtl) (bs : FlitBeats), ∃ t, exec (.payloadFlit p ctl bs) s = .next t ∧ t.win = s.win) ∧
    (∀ (c : Fin 96) (d : Fin 16), ∃ t, exec (.dieQueueIssue c d) s = .next t ∧ t.win = s.win) ∧
    (∀ (c : Fin 96) (f : Framing) (b : Option FabricStage), ∃ t, exec (.busGrant c f b) s = .next t ∧ t.win = s.win) ∧
    (∀ (n : Fin 8) (os : List PageOutcome), ∃ t, exec (.walkStripe n os) s = .next t ∧ t.win = s.win)

/-- While descriptors are fetched, a value for an enabled ring of the host, below the ring's size, that takes back no unfetched descriptor becomes the
ring's Tail; any other value changes nothing but a power request that waits, which arriving work cancels. In Bringup, and while a board reset has
stopped fetching, the doorbell is held. In Cold and in Vigil, where no link carries a doorbell, it does nothing more (the model's choice, log entry
159). (03_rings.md R77, 01_architecture.md R32, 13_power_vigil.md R358, 15_board_group.md R434) -/
def Obligations.SubmissionDoorbell : Prop :=
  ∀ (n : Fin 8192) (v : Word) (s : State),
    (s.fetches = true → n.val < 8160 → s.flag (K.ringEnable n) = true → v.toNat < s.ringSize n →
      s.unfetched n (s.get (K.ringTail n)) ≤ s.unfetched n v.toNat →
      exec (.submissionDoorbell n v) s = .next (s.awake.set (K.ringTail n) v.toNat)) ∧
    (s.fetches = true → s.subDoorbellOk n v.toNat = false → exec (.submissionDoorbell n v) s = .next s.awake) ∧
    (s.mode = 1 ∨ (s.serving = true ∧ s.rings.stopped = true) → exec (.submissionDoorbell n v) s = .next (s.awake.modRings (fun r => { r with held := r.held ++ [(false, n.val, v.toNat)] }))) ∧
    (s.mode = 0 ∨ s.mode = 5 → exec (.submissionDoorbell n v) s = .next s.awake)

/-- While descriptors are fetched an accepted value becomes the ring's Head, and a migration that waits for a slot of the ring may reserve one; the tails,
the phase and the pools stay. A value that is not accepted changes nothing but a power request that waits. (03_rings.md R77, 03_rings.md R103) -/
def Obligations.CompletionHeadDoorbell : Prop :=
  ∀ (m : Fin 4096) (v : Word) (s : State),
    (s.fetches = true → s.headDoorbellOk m v.toNat = true → ∃ t, exec (.completionHeadDoorbell m v) s = .next t ∧
        t.get (K.cringHead m) = v.toNat ∧ t.get (K.cringTail m) = s.get (K.cringTail m) ∧ t.get (K.cringPhase m) = s.get (K.cringPhase m) ∧
        t.rings.cplPool = s.rings.cplPool ∧ t.rings.subPool = s.rings.subPool ∧ t.rings.ops = s.rings.ops ∧ t.win = s.win) ∧
    (s.fetches = true → s.headDoorbellOk m v.toNat = false → exec (.completionHeadDoorbell m v) s = .next s.awake)

/-- A fetch from the ring picked, in a mode that fetches, is made unless Pepper refuses it. Fetching from ring n a descriptor that no Barrier holds and
that passes its checks advances Head modulo the ring's size, reserves one slot of the completion ring, counts one operation in flight, and enters the
operation with its slot, epoch and descriptor; the pools, the window and the queue stay. (03_rings.md R95, 03_rings.md R93) -/
def Obligations.FetchedDescriptor : Prop :=
  (∀ (s u w : State) (n : Nat), s.fetches = true → pickRing s = some (n, u) → pickRefused n u = (false, w) →
    exec .descriptorFetch s = .next (fetchFrom n w)) ∧
  (∀ (n : Nat) (s : State) (d : Descriptor), SMap.getD s.rings.subPool (s.get (K.ringBase n) + s.get (K.ringHead n)) 0 = d → descBarrier d = false →
    (∀ o : Op, o.ring = n → o.desc = d → s.acts o = true) → n < 8192 → s.get (K.ringCompletionRing n) < 4096 →
    (fetchFrom n s).get (K.ringHead n) = (s.get (K.ringHead n) + 1) % s.ringSize n ∧
    (fetchFrom n s).get (K.cringReserved (s.get (K.ringCompletionRing n))) = s.get (K.cringReserved (s.get (K.ringCompletionRing n))) + 1 ∧
    (fetchFrom n s).get (K.ringInFlight n) = s.get (K.ringInFlight n) + 1 ∧
    (∃ o : Op, o.ring = n ∧ o.slot = s.get (K.ringHead n) ∧ o.epoch = s.get (K.ringEpoch n) ∧ o.desc = d ∧ o.phase = .ready ∧
      (fetchFrom n s).rings.ops = s.rings.ops ++ [o]) ∧
    (fetchFrom n s).rings.subPool = s.rings.subPool ∧ (fetchFrom n s).rings.cplPool = s.rings.cplPool ∧ (fetchFrom n s).win = s.win)

/-- A ready NOP completes DONE. A ready FENCE holds its ring; once every earlier descriptor of the ring has posted its completion, earlier host stores
become visible and it completes. A ready FLUSH is pending on the set of its ring; once the WRITEs it awaits have settled, the open row of the set is
closed if it holds units and the FLUSH completes. A Barrier with no earlier descriptor left is issued, or refused if its checks fail. (03_rings.md
R80, 03_rings.md R82, 04_write_path.md R128, 03_rings.md R97, 03_rings.md R101) -/
def Obligations.SimpleOpcodes : Prop :=
  ∀ (ring : Fin 8192) (slot : Fin 65536) (s : State) (o : Op),
    (s.readyOp ring slot 0x00 = some o → exec (.nop ring slot) s = .next (finishOp o 0 0 0 s)) ∧
    (s.readyOp ring slot 0x20 = some o → exec (.fence ring slot) s = .next (s.modOp ring slot (fun o => { o with phase := .issued }))) ∧
    (s.op ring slot = some o → descOpcode o.desc = 0x20 → o.phase = .issued →
      (s.rings.ops.any (fun e => e.ring = o.ring && decide (e.seq < o.seq))) = false →
      exec (.fenceComplete ring slot) s = .next (finishOp o 0 0 0 (drainStores s))) ∧
    (s.readyOp ring slot 0x04 = some o → exec (.flush ring slot) s = .next
      ((s.modOp ring slot (fun o => { o with phase := .issued })).modSet (plSet (s.get (K.ringPlacement o.ring)))
        (fun t => { t with flushes := t.flushes ++ [(o.ring, o.slot)] }))) ∧
    (s.op ring slot = some o → descOpcode o.desc = 0x04 → o.phase = .issued → s.flushAwaits o = false →
      exec (.flushSettled ring slot) s = .next (
        let set := plSet (s.get (K.ringPlacement o.ring))
        let u := if (s.takingRow set).any (fun e => decide (e.1.taken ≠ 0)) = true ∧ s.closeRoom = true
          then closeEarly none set s else s
        finishOp o 0 0 0 (u.modSet set (fun t => { t with flushes := t.flushes.filter (fun f => f ≠ (o.ring, o.slot)) })))) ∧
    (s.op ring slot = some o → o.phase = .barrier → (s.rings.ops.any (fun e => e.ring = o.ring && decide (e.seq < o.seq))) = false →
      exec (.barrierRelease ring slot) s = .next
        (let u := s.modOp ring slot (fun o => { o with phase := .ready })
         if u.acts o then u else refuseOp o u))

/-- In Vigil no completion is posted. Outside it a completion is written, with the ring's Phase, at Base + Tail of the completion pool and nowhere else;
Tail advances modulo the ring's size, Phase toggles exactly when Tail wraps, and Head stays. (03_rings.md R84, 03_rings.md R85, 03_rings.md R86,
03_rings.md R87, 13_power_vigil.md R386) -/
def Obligations.PostedCompletion : Prop :=
  ∀ (m : Nat) (c : Completion) (s : State), (s.mode = 5 → postEntry m c s = s) ∧ (s.mode ≠ 5 → m < 4096 →
    SMap.getD (postEntry m c s).rings.cplPool (s.get (K.cringBase m) + s.get (K.cringTail m)) 0 = withPhase c (s.flag (K.cringPhase m)) ∧
    (∀ a, a ≠ s.get (K.cringBase m) + s.get (K.cringTail m) → SMap.getD (postEntry m c s).rings.cplPool a 0 = SMap.getD s.rings.cplPool a 0) ∧
    (postEntry m c s).get (K.cringTail m) = (s.get (K.cringTail m) + 1) % s.cringSize m ∧
    (postEntry m c s).get (K.cringPhase m)
      = (if s.get (K.cringTail m) + 1 = s.cringSize m then (if s.flag (K.cringPhase m) then 0 else 1) else s.get (K.cringPhase m)) ∧
    (postEntry m c s).get (K.cringHead m) = s.get (K.cringHead m))

/-- An operation that no snapshot and no Pepper delay holds, and whose data writes are all sent, leaves the ring engine, gives back its reserved slot and
its count in flight, and posts its completion, which carries its epoch, ring, slot, command id, status, moved length and detail. One that waits for
data writes stays in the ring engine, and no completion is posted. (03_rings.md R84, 03_rings.md R86, 03_rings.md R88, 03_rings.md R89) -/
def Obligations.FinishedOperation : Prop :=
  ∀ (o : Op) (status moved detail : Nat) (s : State),
    (s.rings.snapHold = false ∨ (descOpcode o.desc ≠ 2 ∧ descOpcode o.desc ≠ 3) → s.postDelayed o.ring = false → s.writesUnsent o.seq = false →
    finishOp o status moved detail s = postEntry (s.get (K.ringCompletionRing o.ring))
      (completionBits 0 o.epoch o.ring o.slot (descCommandId o.desc) status o.ladder o.degraded o.unmapped o.staged moved detail)
      (((s.dropOp o.seq).sub (K.cringReserved (s.get (K.ringCompletionRing o.ring))) 1).sub (K.ringInFlight o.ring) 1)) ∧
    (s.writesUnsent o.seq = true → (finishOp o status moved detail s).rings.cplPool = s.rings.cplPool ∧
      (finishOp o status moved detail s).rings.ops.map (fun x => x.seq) = s.rings.ops.map (fun x => x.seq) ∧
      (finishOp o status moved detail s).objs = s.objs)

/-- NOTIFY_DELAY sends the notice of a ring that has completions without one. EVENT_COMPLETION_POST posts the oldest queued event of a ring with its
coalesced count and clears its Pending. LOSS_NOTICE posts a completion of kind 3 for the oldest durable record without a notice. (03_rings.md R87,
06_redundancy.md R190, 17_events_faults_test.md R475) -/
def Obligations.NoticesOfCompletions : Prop :=
  (∀ (ring : Fin 4096) (s : State), (SMap.find? s.rings.unnoticed ring).isSome = true → s.flag (K.cringNotifyEnable ring) = true →
    exec (.notifyDelay ring) s = .next (sendNotice ring s)) ∧
  (∀ (ring : Fin 4096) (s : State) (r n arg : Nat), List.find? (fun (e : Nat × Nat × Nat) => decide (e.1 = ring.val)) s.ev.queue = some (r, n, arg) →
    s.flag (K.cringEnable ring) = true → 0 < s.cringFree ring → s.mode ≠ 5 →
    exec (.eventCompletionPost ring) s = .next (postEntry ring
      (completionBits 2 0 0 0 0 0 0 false false false 0 (eventDetail n (SMap.getD s.ev.coalesced n 0) arg))
      ((s.modEv (fun e => { e with queue := e.queue.filter (fun x => x.2.1 ≠ n), coalesced := SMap.erase e.coalesced n })).set (K.evPending n) 0))) ∧
  (∀ (s : State) (r : LossRec), List.find? (fun (r : LossRec) => !r.noticed) s.nv.losses = some r → r.durable = true →
    s.flag (K.cringEnable (s.get K.lossNoticeRing)) = true → 0 < s.cringFree (s.get K.lossNoticeRing) → s.mode ≠ 5 →
    exec .lossNotice s = .next (postEntry (s.get K.lossNoticeRing)
      (completionBits 3 0 0 0 0 3 5 false false false (4096 * (r.ranges.map (fun e => e.2)).sum) r.number)
      (s.modNv (fun v => { v with losses := mapIf (fun x => x.number = r.number) (fun x => { x with noticed := true }) v.losses }))))

/-- When a completion ring is enabled, its Phase starts at 1. The buffer inverts Phase each time it wraps from slot S − 1 to slot 0, and at no other post.
The slot written holds an entry with the Phase of the present pass, by which host firmware tells that it is new. (R85) -/
def Obligations.CompletionPhase : Prop :=
  ∀ (m : Nat) (s : State), m < 4096 →
    (s.flag (K.cringEnable m) = false → (cringEnableEffect m 1 s).get (K.cringPhase m) = 1 ∧ (cringEnableEffect m 1 s).get (K.cringTail m) = 0) ∧
    (∀ c : Completion, s.mode ≠ 5 → s.get (K.cringPhase m) ≤ 1 →
      (s.get (K.cringTail m) = s.cringSize m - 1 → (postEntry m c s).get (K.cringTail m) = 0 ∧
        (postEntry m c s).get (K.cringPhase m) = 1 - s.get (K.cringPhase m)) ∧
      (s.get (K.cringTail m) < s.cringSize m - 1 → (postEntry m c s).get (K.cringTail m) = s.get (K.cringTail m) + 1 ∧
        (postEntry m c s).get (K.cringPhase m) = s.get (K.cringPhase m)) ∧
      SMap.getD (postEntry m c s).rings.cplPool (s.get (K.cringBase m) + s.get (K.cringTail m)) 0 = withPhase c (s.flag (K.cringPhase m)))

/-- A ready WRITE that replays a completed one completes at once; one whose tag is busy waits; any other joins admission, as does a waiting one when its
tag is free. Admission of the front of the admission queue takes host slots for its units and reads its data, once host slots and journal room for
them are free and no entry that it needs is being recovered. A WRITE or partial TRIM all of whose data is in host slots is acknowledged, unless blocks
of a unit must first be merged from media: then their reads start. (04_write_path.md R115, 04_write_path.md R116, 04_write_path.md R118,
04_write_path.md R119) -/
def Obligations.WriteCommands : Prop :=
  ∀ (ring : Fin 8192) (slot : Fin 65536) (s : State) (o : Op) (g : Gather) (rest : List (Nat × Nat)),
    (s.readyOp ring slot 0x02 = some o → s.fencedFor o = false → s.isReplay o = true → exec (.write ring slot) s = .next (finishReplay o s)) ∧
    (s.readyOp ring slot 0x02 = some o → s.fencedFor o = false → s.isReplay o = false → s.tagBusy o = true →
      exec (.write ring slot) s = .next (s.modOp ring slot (fun o => { o with phase := .tagWait }))) ∧
    (s.readyOp ring slot 0x02 = some o → s.fencedFor o = false → s.isReplay o = false → s.tagBusy o = false →
      exec (.write ring slot) s = .next (joinAdmission o s)) ∧
    (s.op ring slot = some o → o.phase = .tagWait → s.tagBusy o = false →
      exec (.tagWaitRelease ring slot) s = .next (if s.isReplay o then finishReplay o s else joinAdmission o s)) ∧
    (s.wr.admission = (ring.val, slot.val) :: rest → s.op ring slot = some o → s.admissionBehind o = false →
      (admittedUnits o).length ≤ s.hostFree → (unitsOf (descLba o.desc) (descCount o.desc)).length ≤ s.journalRoom → s.fetches = true → s.wr.admitStop = false → (admittedUnits o).any (fun u => s.entryWaits (s.setOf ring) u.1) = false →
      exec .writeAdmission s = .next (takeUnits ring slot rest o s)) ∧
    (s.gather ring slot = some g → s.op ring slot = some o → g.slots ≠ [] →
      (s.wr.hostReads.any (fun r => r.ring = ring.val && r.slot = slot.val)) = false →
      (g.slots.any (fun e => partialUnit g e.1 && s.shadowWaits g.set e.1)) = false → mergeNeeds g s = [] →
      exec (.writeAcknowledge ring slot) s = .next (acknowledge g o s)) ∧
    (s.gather ring slot = some g → s.op ring slot = some o → g.slots ≠ [] →
      (s.wr.hostReads.any (fun r => r.ring = ring.val && r.slot = slot.val)) = false →
      (g.slots.any (fun e => partialUnit g e.1 && s.shadowWaits g.set e.1)) = false → mergeNeeds g s ≠ [] →
      exec (.writeAcknowledge ring slot) s = .next (startMerges g s))

/-- Data answering a host read, no more than was asked, is gathered at its place; data that answers none, or is more than was asked, is counted as
malformed and discarded; poisoned data, and the timeout of the read, end the operation. A TRIM of whole units, with room in the journal, unmaps them
at once; one that covers a unit in part joins admission. A RAW_PROGRAM reads its data from the host, and a RAW_ERASE queues the planes selected, or
completes with none selected. (10_urvan_link.md R308, 03_rings.md R83, 03_rings.md R81) -/
def Obligations.HostDataAndTrim : Prop :=
  ∀ (ring : Fin 8192) (slot : Fin 65536) (tag n : BitVec 13) (v : BitVec 32768) (s : State) (o : Op) (r : HostRead),
    (List.find? (fun (r : HostRead) => decide (r.tag = tag.toNat)) s.wr.hostReads = some r → n.toNat ≤ r.left →
      exec (.memReadData tag n false v) s = .next (takeHostData r n.toNat v.toNat s)) ∧
    (List.find? (fun (r : HostRead) => decide (r.tag = tag.toNat)) s.wr.hostReads = some r → r.left < n.toNat →
      exec (.memReadData tag n false v) s = .next (s.inc (K.portMalformedPackets 0))) ∧
    (List.find? (fun (r : HostRead) => decide (r.tag = tag.toNat)) s.wr.hostReads = some r →
      exec (.memReadData tag n true v) s = .next (hostReadBad r s) ∧ exec (.memReadTimeout tag) s = .next (hostReadBad r s)) ∧
    (∀ b, List.find? (fun (r : HostRead) => decide (r.tag = tag.toNat)) s.wr.hostReads = none →
      exec (.memReadData tag n b v) s = .next (s.inc (K.portMalformedPackets 0))) ∧
    (s.readyOp ring slot 0x03 = some o → s.fencedFor o = false →
      (unitsOf (descLba o.desc) (descCount o.desc)).any (fun u => s.entryWaits (s.setOf o.ring) u.1) = false →
      (unitsOf (descLba o.desc) (descCount o.desc)).all (fun u => u.2) = true →
      (unitsOf (descLba o.desc) (descCount o.desc)).length ≤ s.journalRoom →
      exec (.trim ring slot) s = .next (finishOp o 0 (s.fullLength o.desc) 0
        (s.over (unitsOf (descLba o.desc) (descCount o.desc)) (fun s u => trimUnit (s.setOf o.ring) u.1 s)))) ∧
    (s.readyOp ring slot 0x03 = some o → s.fencedFor o = false →
      (unitsOf (descLba o.desc) (descCount o.desc)).any (fun u => s.entryWaits (s.setOf o.ring) u.1) = false →
      (unitsOf (descLba o.desc) (descCount o.desc)).all (fun u => u.2) = false →
      exec (.trim ring slot) s = .next (joinAdmission o s)) ∧
    (s.readyOp ring slot 0x11 = some o → s.fencedFor o = false →
      exec (.rawProgram ring slot) s = .next (startHostReads ring slot (descHost o.desc) (s.fullLength o.desc)
        (((s.modWr (fun w => { w with gathers := w.gathers ++
          [{ ring := ring, slot := slot, set := 0, lba := 0, count := 0, tag := 0, trim := false, slots := [], data := [], merged := [],
             poisoned := false }] })).modOp ring slot (fun o => { o with phase := .issued }))))) ∧
    (s.readyOp ring slot 0x12 = some o → s.fencedFor o = false → descDuo o.desc 3 % 16 ≠ 0 →
      exec (.rawErase ring slot) s = .next (pushErase (pmaCh (descDuo o.desc 2)) (pmaDie (descDuo o.desc 2)) (pmaBlock (descDuo o.desc 2))
        (descDuo o.desc 3 % 16) none (some (o.ring, o.slot)) (s.modOp ring slot (fun o => { o with phase := .issued })))) ∧
    (s.readyOp ring slot 0x12 = some o → s.fencedFor o = false → descDuo o.desc 3 % 16 = 0 →
      exec (.rawErase ring slot) s = .next (finishOp o 0 0 0 (s.modOp ring slot (fun o => { o with phase := .issued }))))

/-- After a whole unit is trimmed its mapping entry reads as none, a TRIM record of it has joined the journal, and the shared window and the queue stay.
(03_rings.md R83, 04_write_path.md R123) -/
def Obligations.TrimmedUnit : Prop :=
  ∀ (set lui : Nat) (s : State), (trimUnit set lui s).entry set lui = noLoc ∧
    (∃ e, e ∈ (trimUnit set lui s).wr.journal ∧ e.2.kind = .trim ∧ e.2.set = set ∧ e.2.lui = lui) ∧
    (trimUnit set lui s).win = s.win ∧ (trimUnit set lui s).pending = s.pending

/-- MEMBER_PROGRAM_TAKE: with 16 units queued for the row that takes, room for their shadows, and the die of its next data member free, those units are
taken as that member's pages, and the next row opens where none takes units any more; with fewer queued and a FLUSH pending, a row that may be closed
is closed early. ROW_CLOSE_DELAY closes early the row of a set that has taken a unit or has one queued (log entry 137), with room for the shadows.
JOURNAL_PAGE_TIMER programs the journal page that is open; one whose page holds records, with a channel that can take it, lists the page with its
copies and opens no other. BACKGROUND_SLOT_FREE, with a slot free, places the next returning unit; with none returning it gives the slot to the next
waiting unit; with none waiting it commits the transfers that have arrived. (04_write_path.md R125, 04_write_path.md R127, 04_write_path.md R128,
04_write_path.md R114) -/
def Obligations.RowCommands : Prop :=
  ∀ (set : Fin 8) (s : State),
    (∀ (r : Row) (g : GenRec) (ps : List Nat) (bad : Option (Fin 16)), s.get (K.setState set) ≠ 0 → (s.sset set).queue ≠ [] →
      (ensureRow set s).takingRow set = some (r, g, ps) → (ensureRow set s).shadowsFree = true → 16 ≤ ((ensureRow set s).rowQueue set r).length →
      (ensureRow set s).dieFreeFor (nth g.channels (nth ps r.taken 0) 127) r.die = true →
      exec (.memberProgramTake ⟨set, bad⟩) s
        = .next (openNext set (takeMember r g ps (((ensureRow set s).rowQueue set r).take 16) (bad.map Fin.val) (ensureRow set s)))) ∧
    (∀ (r : Row) (g : GenRec) (ps : List Nat) (bad : Option (Fin 16)), s.get (K.setState set) ≠ 0 → (s.sset set).queue ≠ [] →
      (ensureRow set s).takingRow set = some (r, g, ps) → (ensureRow set s).shadowsFree = true → ((ensureRow set s).rowQueue set r).length < 16 →
      ((ensureRow set s).sset set).flushes ≠ [] → (ensureRow set s).mayClose set = true → (ensureRow set s).closeRoom = true →
      exec (.memberProgramTake ⟨set, bad⟩) s = .next (closeEarly (bad.map Fin.val) set (ensureRow set s))) ∧
    (s.mayClose set = true → s.closeRoom = true → exec (.rowCloseDelay set) s = .next (closeEarly none set s)) ∧
    (s.wr.jOpened.isSome = true → exec .journalPageTimer s = .next (programJournalPage s)) ∧
    (∀ c, c = (((List.range 96).filter s.slcReady).take 2).length → s.wr.jOpened.isSome = true → s.wr.jFirst < s.get K.journalSequence → c ≠ 0 →
      ∃ t, exec .journalPageTimer s = .next t ∧ t.wr.jOpened = none ∧ t.wr.jFirst = s.get K.journalSequence ∧
        t.wr.jPages.getLast? = some { first := s.wr.jFirst, n := s.get K.journalSequence - s.wr.jFirst, left := c, copies := c }) ∧
    (∀ (u : SUnit) (j : Option Nat) (r : List (SUnit × Option Nat)), s.backFree ≠ 0 → s.wr.returning = (u, j) :: r →
      exec .backgroundSlotFree s = .next ((placeReturned u j (s.modWr (fun w => { w with returning := r }))).getD s)) ∧
    (∀ (u : SUnit) (r : List SUnit) (k : Nat) (t : State), s.backFree ≠ 0 → s.wr.returning = [] → s.wr.waitingUnits = u :: r →
      takeBackSlot u { s with wr := { s.wr with waitingUnits := r } } = some (k, t) → exec .backgroundSlotFree s = .next t) ∧
    (s.backFree ≠ 0 → s.wr.returning = [] → s.wr.waitingUnits = [] → exec .backgroundSlotFree s = .next (commitTransfers s))

/-- A ready READ none of whose entries and shadows is being recovered is issued and reads each of its units; it waits while one is being recovered; one
that needs a stage that is fenced ends with Status 1. A ready RAW_READ of a page that is not torn starts one fresh read of the frames that it asks
for, and waits for as many frames, with one more for the header where it asks for that. (05_read_path.md R144, 05_read_path.md R166, 09_dram.md R277) -/
def Obligations.ReadCommands : Prop :=
  ∀ (ring : Fin 8192) (slot : Fin 65536) (s : State) (o : Op),
    (s.readyOp ring slot 0x01 = some o → s.fencedFor o = false →
      (unitsOf (descLba o.desc) (descCount o.desc)).any (fun u => s.entryWaits (s.setOf o.ring) u.1 || s.shadowWaits (s.setOf o.ring) u.1) = false →
      exec (.read ring slot) s = .next ((s.modOp ring slot (fun o => { o with phase := .issued, left := descCount o.desc })).over
        (unitsOf (descLba o.desc) (descCount o.desc)) (fun s u => readUnit o u.1 s))) ∧
    (s.readyOp ring slot 0x01 = some o → s.fencedFor o = false →
      (unitsOf (descLba o.desc) (descCount o.desc)).any (fun u => s.entryWaits (s.setOf o.ring) u.1 || s.shadowWaits (s.setOf o.ring) u.1) = true →
      exec (.read ring slot) s = .next s) ∧
    (s.readyOp ring slot 0x10 = some o → s.fencedFor o = false → SMap.getD s.fl.torn (pmaPlace (descDuo o.desc 2)) false = false →
      exec (.rawRead ring slot) s = .next (freshRead (.op ring slot 0) (descDuo o.desc 2) o.cls
        ((List.range 4).filter (fun f => (descDuo o.desc 3).testBit f)) true
        (s.modOp ring slot (fun x =>
          { x with phase := .issued, detail := descDuo o.desc 2,
                   left := ((List.range 4).filter (fun f => (descDuo o.desc 3).testBit f)).length + (if (descDuo o.desc 3).testBit 4 then 1 else 0) })))) ∧
    (s.readyOp ring slot 0x01 = some o → s.fencedFor o = true → exec (.read ring slot) s = .next (endRead o 1 0 0 s))

/-- The hard decoder of a channel and the soft pool take, of the frames waiting, the one that pickFrame picks, count it in HardDecodes or SoftDecodes,
give the soft decoder its inputs, and end its decode by the outcome of the command. Stripe reconstruction takes the frame picked of those that are
ready, gives back the buffer of one that was read, and rebuilds it with the outcomes of its members' reads. The frame picked is the first of the
lowest class that waits. (05_read_path.md R155, 05_read_path.md R156, 05_read_path.md R164) -/
def Obligations.DecodeCommands : Prop :=
  (∀ (c : Fin 96) (ones : BitVec 16) (pass : Bool) (s : State) (e : FrameRef) (rest : List FrameRef) (r : PageRead),
    pickFrame (s.chan c).hardQ = some (e, rest) → SMap.find? s.fl.reads e.read = some r →
    exec (.hardDecode c ones pass) s = .next (hardDecoded e r ones.toNat pass ((s.modChan c (fun x => { x with hardQ := rest })).inc K.hardDecodes))) ∧
  (∀ (pass : Bool) (s : State) (e : FrameRef) (rest : List FrameRef) (r : PageRead),
    pickFrame s.fl.softQ = some (e, rest) → SMap.find? s.fl.reads e.read = some r →
    exec (.softDecode pass) s = .next (softDecoded e r pass (((s.modFl (fun x => { x with softQ := rest })).inc K.softDecodes).emit
      (.softInput e.read e.frame ([softRegion false false false, softRegion true false false, softRegion true true false,
        softRegion true true true].map ((s.modFl (fun x => { x with softQ := rest })).inc K.softDecodes).llr))))) ∧
  (∀ (os : List PageOutcome) (s : State) (e : Recon) (rest : List Recon), s.nextRecon os = some (e, rest) →
    exec (.reconstructFrame os) s = .next (reconstruct e os ((s.modFl (fun x => { x with recon := rest })).when (!e.degraded) (freeBuffers e.cls 1))))

/-- A frame of a read that serves no RAW_READ and that fails in the soft pool gives back two buffers and waits for reconstruction; its read is over once
no frame of it is left. The objects, the outputs and the operations stay. (05_read_path.md R156, 05_read_path.md R162, 05_read_path.md R164) -/
def Obligations.SoftDecodedFrame : Prop :=
  ∀ (e : FrameRef) (r : PageRead) (s : State), s.rawRead r.owner = false →
    (softDecoded e r false s).fl.recon = s.fl.recon ++
      [{ owner := r.owner, pma := r.pma, frame := e.frame, cls := r.cls, degraded := false,
         forced := r.forced.contains e.frame && decide (s.get K.eccStep = 5) }] ∧
    (softDecoded e r false s).fl.dlBuffers = s.fl.dlBuffers - (if r.cls = 0 then 2 else 0) ∧
    (softDecoded e r false s).fl.buffers = s.fl.buffers - (if r.cls = 0 then 0 else 2) ∧
    (softDecoded e r false s).objs = s.objs ∧ (softDecoded e r false s).out = s.out ∧ (softDecoded e r false s).rings = s.rings ∧
    SMap.find? (softDecoded e r false s).fl.reads e.read
      = (if r.pending.erase e.frame = [] then none else some { r with pending := r.pending.erase e.frame, held := r.held - 3 })

/-- A ready MIGRATE starts the migration to the placement it names; it ends once no operation of the old epoch is left and a slot is reserved. A ready
ABORT descriptor starts an abort of the scope it names: a ring, a channel, the device, or code flash. An abort ends once all that it cut short has
ended. (03_rings.md R103, 03_rings.md R106, 03_rings.md R107, 07_flash_channels.md R213) -/
def Obligations.RingScopeCommands : Prop :=
  ∀ (ring : Fin 8192) (slot : Fin 65536) (s : State),
    (∀ o, s.readyOp ring slot 0x21 = some o → (s.rings.migrations.any (fun g => decide (g.ring = ring.val))) = false →
      exec (.migrate ring slot) s = .next (startMigration ring (some slot.val) (descDuo o.desc 2 / 2 ^ 24 * 2 ^ 24)
        (s.modOp ring slot (fun o => { o with phase := .issued })))) ∧
    (∀ g, List.find? (fun (g : Migration) => decide (g.ring = ring.val)) s.rings.migrations = some g → s.epochRuns g = false → g.reserved = true →
      exec (.migrationDone ring) s = .next (finishMigration g s)) ∧
    (∀ o v, s.readyOp ring slot 0x22 = some o → v = descDuo o.desc 2 →
      (v / 2 ^ 38 = 0 → exec (.abortRingScope ring slot) s = .next (startAbort 0 (v % 8192) (some (ring, slot)) s)) ∧
      (v / 2 ^ 38 = 1 → exec (.abortChannelScope ring slot) s = .next (startAbort 1 (v % 128) (some (ring, slot)) s)) ∧
      (v / 2 ^ 38 = 2 → exec (.abortDeviceScope ring slot) s = .next (startAbort 2 0 (some (ring, slot)) s)) ∧
      (v / 2 ^ 38 = 3 → exec (.abortCodeFlashScope ring slot) s = .next (startAbort 3 0 (some (ring, slot)) s))) ∧
    (∀ (i : Nat) (a : Abort), (abortDrain i s).rings.aborts[i]? = some a → (abortDrain i s).abortDone a = true →
      exec (.abortComplete i) s = .next (endAbort i a (abortDrain i s)))

/-- A temperature readout of a fitted die with no array operation, at full power and with its lines driven, is sent to the die, reported and its throttle
judged. A short ZQ calibration, in a serving mode at full power, is sent to a target none of whose dies has an array operation. A write check of an
idle die of a running channel sends the ONFI training sequence and is timed, and one that fails starts a retrain. A pin-current trip raises the peak
to its current where that is higher and the sensor is not faulty, and reports the lines; one of a data or control line isolates the channel, and one
of chip-enable lines alone turns those lines off and loses their dies. A sample above the peak raises it. Die counts are saved where tables are.
(07_flash_channels.md R217, 07_flash_channels.md R223, 07_flash_channels.md R227, 14_measurement_sideband.md R396, 07_flash_channels.md R216) -/
def Obligations.ChannelUpkeep : Prop :=
  ∀ (c : Fin 96) (d : Fin 16) (s : State),
    (∀ t : BitVec 20, s.fitted c d = true → (s.die c d).inArray = false → (s.chan c).driversOff = false →
      (s.chan c).linesOff.contains (d.val / 4) = false → s.get K.powerState = 0 →
      exec (.dieTemperatureRead c d t) s
        = .next (updateThrottle c (((s.modDie c d (fun x => { x with tempAt := some s.now })).emit
            (.dieCommand c d 0xD4 (match ((s.modDie c d (fun x => { x with tempAt := some s.now })).chan c).profile with
              | some x => x.tempFeature.toNat | none => 0))).set (K.chDieTemperature c d) t.toNat))) ∧
    (∀ k : Fin 4, s.serving = true → s.get K.powerState = 0 → (s.chan c).driversOff = false → (s.chan c).training = none →
      ((List.range 4).map (fun i => 4 * k.val + i)).all (fun d => !(s.die c d).inArray) = true →
      exec (.zqCalibrationShort c k) s = .next
        ((s.over ((List.range 4).map (fun i => 4 * k.val + i))
          (fun s d => s.modDie c d (fun x => { x with zqTemp := s.get (K.chDieTemperature c d) }))).emit (.dieCommand c (4 * k.val) 0xD9 0))) ∧
    (∀ ok : Bool, s.fitted c d = true → (s.die c d).cur = none → s.get (K.chState c) = 2 → s.get K.powerState = 0 →
      exec (.writeCheck c d ok) s = .next
        (let u := (s.modChan c (fun x => { x with writeCheckAt := s.now })).emit (.onfiTraining c d 2)
         if ok then u else startTraining c u)) ∧
    (∀ i : BitVec 20, SMap.getD s.mon.faultyCh c false = false → s20 (s.get (K.chPinCurrentPeak c)) < s20 i.toNat →
      exec (.pinCurrentPeakSample c i) s = .next (s.set (K.chPinCurrentPeak c) i.toNat)) ∧
    (∀ (l : BitVec 17) (i : BitVec 20) (u w : State), (s.chan c).driversOff = false → l ≠ 0 →
      u = (if SMap.getD s.mon.faultyCh c false = false ∧ s20 (s.get (K.chPinCurrentPeak c)) < s20 i.toNat
        then s.set (K.chPinCurrentPeak c) i.toNat else s) →
      w = chEvent c 2 (l.toNat + 2 ^ 17) (u.set (K.chShortMask c) (u.get (K.chShortMask c) ||| (l.toNat % 1024))) →
      (l.toNat % 1024 ≠ 0 ∨ l.toNat / 16384 ≠ 0 → exec (.pinCurrentTrip c l i) s = .next (isolate c 1 w)) ∧
      (l.toNat % 1024 = 0 → l.toNat / 16384 = 0 → exec (.pinCurrentTrip c l i) s = .next
        (w.over (List.range 4) (fun s k => s.when (l.toNat.testBit (10 + k)) (fun s => lineLost c k 6
          (s.modChan c (fun x => { x with linesOff := if x.linesOff.contains k then x.linesOff else x.linesOff ++ [k] }))))))) ∧
    (s.savesTables = true → exec .dieCountSave s = .next (cfSave .dieCounts s))

/-- A die that may take one takes its next program or erase where that is forced to go next, no read waits, or the tables that reads need are not back;
else, with those tables back, its next reads. PROGRAM_HOLDOFF forces the next program or erase of a die that has one. The bus, where it is not
withheld, goes to the transfer picked, read or data-in. A status poll of a running array operation, on a powered die whose lines are driven, sends
Read Status Enhanced; it ends the operation, passed or failed, unless Pepper stretches its time; a busy die stays busy, and a busy timeout, also of a
die that does not answer, is handled as one. (05_read_path.md R149, 07_flash_channels.md R207, 07_flash_channels.md R210) -/
def Obligations.DieAndBusCommands : Prop :=
  ∀ (c : Fin 96) (d : Fin 16) (s : State),
    (∀ j, s.dieTakes c d = true → s.nextJob c d = some j → (s.die c d).forced = true ∨ s.leadRead c d = none ∨ s.tablesBack = false →
      exec (.dieQueueIssue c d) s = .next
        (issueJob c d j (s.modDie c d (fun x => { x with progs := x.progs.eraseP (fun e => decide (e.1 = j)) })))) ∧
    (∀ l, s.dieTakes c d = true → s.tablesBack = true → (s.die c d).forced = false ∨ s.nextJob c d = none →
      s.leadRead c d = some l → exec (.dieQueueIssue c d) s = .next (issueReads c d (s.mergeSet c d l) s)) ∧
    ((s.die c d).progs ≠ [] → exec (.programHoldoff c d) s = .next (s.modDie c d (fun x => { x with forced := true }))) ∧
    (∀ f b x a, (s.chan c).driversOff = false → s.busWithheld c = false → s.pickXfer c = some (x, a) →
      exec (.busGrant c f b) s = .next
        (let u := s.modChan c (fun ch => { ch with xfers := ch.xfers.erase x, lastAged := a })
         match x.read with
         | some id => grantRead c x id f b u
         | none => grantDataIn c x b u)) ∧
    (∀ (j : DieJob) (u : State) (ok : Bool), (s.die c d).cur = some j → (s.die c d).inArray = true → (s.chan c).driversOff = false →
      (s.chan c).linesOff.contains (d.val / 4) = false → s.unpowered c = false → stretched c d j (s.emit (.dieCommand c d 0x78 0)) = (false, u) →
      exec (.statusPoll c d (if ok then .pass else .fail)) s = .next (programEnded (opEnded c d j ok
        (let v := u.modDie c d (fun x => { x with inArray := false, stretch := none })
         v.when (v.get (K.chDieState c d) = 2) (fun v => v.set (K.chDieState c d) 1))))) ∧
    ((s.die c d).cur.isSome = true → (s.die c d).inArray = true → (s.chan c).driversOff = false →
      (s.chan c).linesOff.contains (d.val / 4) = false → s.unpowered c = false →
      exec (.statusPoll c d .busy) s = .next (s.emit (.dieCommand c d 0x78 0))) ∧
    (∀ (j : DieJob) (open_ : Bool), (s.die c d).cur = some j → (s.die c d).inArray = true → (s.chan c).driversOff = false →
      exec (.statusPoll c d (.timeout open_)) s = .next (busyTimeout c d j open_
        (if (s.chan c).linesOff.contains (d.val / 4) = true ∨ s.unpowered c = true then s else s.emit (.dieCommand c d 0x78 0))))

/-- A command to a rank is sent, and one whose parity the rank reports wrong is counted and sent again. A refresh of a rank that serves and is not in
self-refresh is sent with those postponed, unless a request is pending for the rank and fewer than four are postponed: then it is postponed. The
activate tables clear. An idle rank that serves enters self-refresh where SelfRefreshIdle is not 0. An MR4 read sets the refresh rate; DQS tracking
keeps the drift, and a drift past 8 steps is an event once; ZQ calibration is sent. A bank-row copied without error advances the progress, the first
also queues the record of the retirement, and once all are copied and the record is saved the rank is retired. A helper run ends with HelperState 2,
its count of bursts, and HelperFirstFail all ones where no burst missed. A patrol read with a good burst moves the patrol on and counts a whole pass.
A burst without an error is good, and one whose errors lie within one component is corrected. A request picked whose burst is good leaves its queue
and is served; a picked command with a parity mismatch is counted and stays. A region entry recovered, of neither program shadows nor the loss index,
is written to its place, and what was held for it commits. (09_dram.md R261, 09_dram.md R262, 09_dram.md R264, 09_dram.md R269, 09_dram.md R270,
09_dram.md R271, 09_dram.md R273, 09_dram.md R274, 09_dram.md R277, 09_dram.md R278, 09_dram.md R279, 11_calibration.md R336) -/
def Obligations.DramCommands : Prop :=
  ∀ (sub : Fin 8) (q : RankCommand) (s : State),
    (∀ op a, (q.mismatch = false → rankCommand sub q op a s = s.emit (.dramCommand sub q.rank op a)) ∧
      (q.mismatch = true → rankCommand sub q op a s = (dramChecked sub q.rank a .commandParity (s.emit (.dramCommand sub q.rank op a))).emit
        (.dramCommand sub q.rank op a))) ∧
    (s.rankServes sub q.rank = true → (s.drank sub q.rank).selfRefresh = false →
      ((s.dsub sub).queue.any (fun r => decide (s.rankFor sub r.da = q.rank) && decide (r.cls ≠ 5)) = true → 4 ≤ (s.drank sub q.rank).postponed) →
      exec (.refresh sub q) s = .next (rankCommand sub q 3 0 ((s.modDrank sub q.rank (fun x => { x with postponed := 0 })).over
        (List.range (s.drank sub q.rank).postponed) (fun s _ => s.emit (.dramCommand sub q.rank 3 0))))) ∧
    (s.rankServes sub q.rank = true → (s.drank sub q.rank).selfRefresh = false → (s.drank sub q.rank).postponed < 4 →
      (s.dsub sub).queue.any (fun r => decide (s.rankFor sub r.da = q.rank) && decide (r.cls ≠ 5)) = true →
      exec (.refresh sub q) s = .next (s.modDrank sub q.rank (fun x => { x with postponed := x.postponed + 1 }))) ∧
    exec .activateTableClear s = .next (s.modDram (fun x => { x with ranks := x.ranks.map (fun e => (e.1, { e.2 with activates := [] })) })) ∧
    (s.get K.selfRefreshIdle ≠ 0 → s.rankServes sub q.rank = true → (q.rank = 2 → s.get (K.dramSpareHalfState sub) ≠ 1) → (s.dsub sub).held = [] →
      (s.dsub sub).queue.any (fun r => s.rankFor sub r.da = q.rank) = false → (s.drank sub q.rank).selfRefresh = false →
      exec (.selfRefreshEntry sub q) s = .next (rankCommand sub q 5 0 (s.modDrank sub q.rank (fun x => { x with selfRefresh := true })))) ∧
    (∀ b : Bool, s.rankServes sub q.rank = true → exec (.mr4Read sub q b) s
        = .next (rankCommand sub q 7 4 (s.modDrank sub q.rank (fun x => { x with doubled := b })))) ∧
    (∀ (n : BitVec 20) (u : State), s.rankServes sub q.rank = true →
      u = (rankCommand sub q 7 46 (s.modDrank sub q.rank (fun x => { x with drift := (s20 n.toNat).natAbs }))).emit (.dramCommand sub q.rank 7 47) →
      exec (.dqsTracking sub q n) s = .next (if 8 < (s20 n.toNat).natAbs ∧ (s.drank sub q.rank).drift ≤ 8
        then occur 1196 (rankArg sub q.rank + 32 * min (s20 n.toNat).natAbs 255) u else u)) ∧
    (s.rankServes sub q.rank = true → exec (.dramZqCalibration sub q) s = .next (rankCommand sub q 8 0 s)) ∧
    (∀ (r m : Nat) (u : State), s.migratingRank sub = some r → s.mode ≠ 5 → (s.dsub sub).copyRow = m → m + 1 < 2097152 →
      u = ((copyBankRow sub r m s).modDsub sub (fun x => { x with copyRow := m + 1 })).set (K.dramMigrationProgress sub) ((m + 1) * 10000 / 2097152) →
      exec (.rankCopy sub [] []) s = .next (if m = 0 then cfSave (.rank sub r) u else u)) ∧
    (∀ r, s.migratingRank sub = some r → s.mode ≠ 5 → (s.dsub sub).copyRow = 2097152 → s.retirementSaved sub r = true →
      exec (.rankCopy sub [] []) s = .next (rankRetired sub r s)) ∧
    (∀ (h : Nat × Nat) (first : Option HelperMiss) (rest : List HelperMiss), s.dram.helper = some h →
      ∃ t, exec (.helperRunEnd first rest) s = .next t ∧ t.get K.helperState = 2 ∧ t.get K.helperBurstsDone = s.get K.helperBursts ∧
        t.dram.helper = none ∧ (first = none → rest = [] → t.get K.helperFirstFail = 0xFFFFFFFFFF)) ∧
    (∀ c u, s.mode ≠ 5 → s.dram.trained = true → (s.dsub (daSub (64 * s.dram.patrol))).queue = [] → (s.dsub (daSub (64 * s.dram.patrol))).held = [] →
      s.dram.recoveries.contains (64 * s.dram.patrol) = false → burstCheck c = .good →
      u = issueDram (daSub (64 * s.dram.patrol)) { cls := 5, write := false, rmw := false, da := 64 * s.dram.patrol, src := .plain } s →
      exec (.patrolScrub c) s = .next (let w := u.modDram (fun x => { x with patrol := u.patrolNext s.dram.patrol })
        if u.patrolNext s.dram.patrol = 0 then w.inc K.patrolPasses else w)) ∧
    burstCheck (.symbols []) = .good ∧ (∀ (errs : List SymbolError) (k : Fin 10), badComponents errs = [k] → burstCheck (.symbols errs) = .corrected) ∧
    (∀ r, (enterHeld sub s).dramNext sub = some r →
      exec (.dramPick sub .commandParity) s = .next (dramChecked sub ((enterHeld sub s).rankFor sub r.da) r.da .commandParity (enterHeld sub s))) ∧
    (∀ r c, (enterHeld sub s).dramNext sub = some r → burstCheck c = .good →
      exec (.dramPick sub c) s = .next (fetched r.src (issueDram sub r ((enterHeld sub s).modDsub sub (fun x =>
        { x with queue := x.queue.erase r, last := daTurn r.da, writing := r.write, run := if x.writing = r.write then x.run + 1 else 1,
                 panicRun := if x.queue.all (fun e => e.cls ≠ 1) || (decide (r.cls = 2) && !r.write) then 0 else x.panicRun + 1 }))))) ∧
    (∀ (i a : Nat), s.mode ≠ 5 → s.dram.recoveries[i]? = some a → s.daRegion a ≠ 3 → s.daRegion a ≠ 5 →
      exec (.regionRecoveryDone i) s = .next (commitTransfers (commitHeld (columnCommand (daSub a) (s.rankFor (daSub a) a) 2 a
        ((s.modDram (fun x => { x with recoveries := s.dram.recoveries.eraseIdx i })).set K.recoveriesPending (s.dram.recoveries.eraseIdx i).length)))))

/-- With Pepper off and the link running, a flit whose sync header is exact and whose CRC holds is received: a payload flit in order, outside Vigil,
passes its Seq, has its beats taken, each with its parity checked, and is acknowledged where 16 flits are unreported; an Idle flit in order is counted
and reports what it carries. A Param flit of rising training, of a legal Role and Width and with credits enough, gives the partner's credits. A missed
header realigns a port that runs; lock ends the realign, counts the sync symbols that differed and lets what waits go out; no lock in time starts a
retrain. An ack that is due is sent; a replay timeout replays what is unacknowledged. A full training is judged by its result; a fast one that passes
brings the link up, and one that does not starts a link reset; the timer of a failed port starts a full training in modes 1 to 4. An adaptation
reports a lane's figures, and with good figures nothing more. (10_urvan_link.md R293, 10_urvan_link.md R295, 10_urvan_link.md R296, 10_urvan_link.md
R298, 10_urvan_link.md R299, 10_urvan_link.md R300, 10_urvan_link.md R301, 10_urvan_link.md R315, 11_calibration.md R336) -/
def Obligations.LinkCommands : Prop :=
  ∀ (p : Fin 3) (ctl : FlitCtl) (s : State),
    (∀ (bs : FlitBeats) u, s.takesFlit p ctl (beatsPayload bs.slots) 1 → ctlSeq ctl = ((flitTaken p ctl s).port p).rxSeq → (flitTaken p ctl s).mode ≠ 5 →
      u = ((flitTaken p ctl s).modPort p (fun pt =>
        { pt with rxSeq := (ctlSeq ctl + 1) % 4096, nakAt := none, unreported := pt.unreported + 1 })).awake.over (bs.slots.zip (List.range 6))
          (fun s b => (takeBeat p b.1 s).when (bs.parityBad.any (fun k => decide (k.val = b.2))) (beatParity p)) →
      exec (.payloadFlit p ctl bs) s = .next (postHeld (pump p (u.when (decide (16 ≤ (u.port p).unreported)) (sendAck p))))) ∧
    (∀ body, s.takesFlit p ctl body 0 → ctlSeq ctl = ((flitTaken p ctl s).port p).rxSeq →
      exec (.idleFlit p ⟨ctl, body⟩) s = .next (postHeld (pump p (flitTaken p ctl s)))) ∧
    (∀ cp cn reset, s.get (K.portLinkState p) = 1 → syncDiffs ctl.sync ≤ 1 → ctlCrcGood ctl (paramPayload cp cn 0 reset 16) = true →
      creditsSmall p cp.toNat cn.toNat = false → exec (.paramFlit p ctl cp cn 0 reset 16) s = .next
      ((((((s.add (K.portSyncSymbolErrors p) (syncDiffs ctl.sync)).inc (K.portFlitsReceived p)).set (K.portPartnerCreditP p) cp.toNat).set
        (K.portPartnerCreditN p) cn.toNat)).modPort p (fun pt => { pt with paramSeen := true }))) ∧
    (s.get (K.portLinkState p) = 2 → exec (.missedHeader p) s = .next (linkLosesTest p (((s.set (K.portLinkState p) 3).inc (K.portRealigns p)).modPort p
      (fun pt => { pt with hunting := some s.now })))) ∧
    (∀ e : Fin 5, s.get (K.portLinkState p) = 3 → exec (.flitLock ⟨p, e⟩) s = .next (postHeld (pump p
      (((s.add (K.portSyncSymbolErrors p) e).set (K.portLinkState p) 2).modPort p (fun pt => { pt with hunting := none }))))) ∧
    (s.get (K.portLinkState p) = 3 → exec (.lockTimeout p) s = .next (startRetrain p 2 s)) ∧
    ((s.port p).unreported ≠ 0 → s.portRuns p = true → exec (.ackDue p) s = .next (sendAck p s)) ∧
    (s.portRuns p = true → exec (.replayTimeout p) s = .next (replayAll p s)) ∧
    (∀ r, s.mode ≠ 5 → (s.port p).recovery = 2 → (s.port p).fullTraining = true → exec (.portTraining p r) s = .next (fullTraining p r s)) ∧
    (∀ r, s.mode ≠ 5 → (s.port p).recovery = 1 → quickPasses p r = true → exec (.portTraining p r) s = .next (linkUp p (sendParam p false s))) ∧
    (∀ r, s.mode ≠ 5 → (s.port p).recovery = 1 → quickPasses p r = false → exec (.portTraining p r) s = .next (startLinkReset p 8 true false s)) ∧
    ((s.port p).retry = true → s.get (K.portLinkState p) = 0 → 1 ≤ s.mode → s.mode ≤ 4 → exec (.linkTrainRetry p) s
      = .next (((calStart (120 + p) s).set (K.portLinkState p) 1).modPort p
          (fun pt => { pt with recovery := 2, fullTraining := true, retry := false }))) ∧
    (∀ (lane : Fin 16) (w h b : Word), s.get (K.portLinkState p) = 2 → lane.val < portLanes p → 164 ≤ w.toNat → 10 ≤ h.toNat → 1200 ≤ b.toNat →
      exec (.serviceAdaptation p lane w h b) s = .next (portFigures p
        (((s.set (K.portLaneEyeWidth p lane) w.toNat).set (K.portLaneEyeHeight p lane) h.toNat).set (K.portLaneResidualBer p lane) b.toNat)))

/-- In Cold and in Vigil a packet handed to a port is dropped. Elsewhere, on a port that does not send, with nothing to forward, it joins those that wait,
behind them unless it is read data of a higher class than read data that waits, and nothing is sent; on any port only that port's queues, the outputs
and its FlitsSent may change. (10_urvan_link.md R297, 10_urvan_link.md R310, 10_urvan_link.md R309, 10_urvan_link.md R314) -/
def Obligations.SentPacket : Prop :=
  ∀ (p : Nat) (k : Packet) (s : State),
    (s.mode = 0 ∨ s.mode = 5 → sendPacket p k s = s) ∧
    (s.mode ≠ 0 → s.mode ≠ 5 → s.portRuns p = false → (s.port p).through = [] →
      sendPacket p k s = s.modPort p (fun pt => { pt with waiting := joinWaiting k pt.waiting }) ∧
      ((∀ o c b a n v, k ≠ .memWrite o c b a n v) → joinWaiting k (s.port p).waiting = (s.port p).waiting ++ [k])) ∧
    (∀ j, j ≠ K.portFlitsSent p → (sendPacket p k s).get j = s.get j) ∧
    (∀ q, q ≠ p → (sendPacket p k s).port q = s.port q) ∧
    (sendPacket p k s).rings = s.rings ∧ (sendPacket p k s).win = s.win ∧ (sendPacket p k s).fl = s.fl ∧ (sendPacket p k s).wr = s.wr

/-- A watchdog trip that Pepper did not force is an occurrence of its class and raises VDD_CORE as VidStaysInRange states; the end of the wait takes a
move that waits for its code, else a raise that waits. A millisecond without a trip, 10 µs after the last change and with none waiting, lowers the
code by one step in a serving mode in S0 to S2. (01_architecture.md R14, 01_architecture.md R15, 17_events_faults_test.md R484) -/
def Obligations.WatchdogAndVid : Prop :=
  ∀ s : State,
    (∀ (cls : Fin 8) (stage : Fin 4096),
      exec (.handshakeWatchdog cls stage false) s
        = .next (vidRaise cls ((occur (1152 + cls) stage s).modEv (fun e => { e with tripAt := some (occur (1152 + cls) stage s).now })))) ∧
    (∀ code, s.ev.vidTarget = some code → exec .vidStepWaitEnd s = .next (vidSet code s)) ∧
    (s.ev.vidTarget = none → s.ev.vidPending = true → s.get K.vidCode < 9 → exec .vidStepWaitEnd s = .next (vidSet (s.get K.vidCode + 1) (s.inc K.vidRaises))) ∧
    (s.serving = true → s.get K.powerState ≤ 2 → s.get K.vidCode ≠ 0 → (∀ t, s.ev.tripAt = some t → t + 1000 ≤ s.now) →
      (∀ t, s.ev.vidAt = some t → t + 10 ≤ s.now) → s.ev.vidPending = false → s.ev.vidTarget = none →
      exec .vidLower s = .next (vidSet (s.get K.vidCode - 1) (s.inc K.vidLowers)))

/-- A raise from a code of at most 9 leaves a code of at most 9: at code 9 it raises VidLimit and keeps the code; below it the code grows by one at once,
unless it changed within 10 µs, when the raise waits and the code stays. (01_architecture.md R14, 13_power_vigil.md R362) -/
def Obligations.VidStaysInRange : Prop :=
  ∀ (cls : Nat) (s : State), s.get K.vidCode ≤ 9 →
    (vidRaise cls s).get K.vidCode ≤ 9 ∧
    (s.get K.vidCode = 9 → (vidRaise cls s).get K.vidCode = 9 ∧ (vidRaise cls s).get (K.evCount 1169) = s.get (K.evCount 1169) + 1) ∧
    (s.get K.vidCode < 9 → (∀ t, s.ev.vidAt = some t → t + 10 ≤ s.now) → (vidRaise cls s).get K.vidCode = s.get K.vidCode + 1)

/-- Outside Cold and Vigil a stage that wedges, not within 60 s of its last clean-up, is an event, takes a dump, stands among the wedged, and its scope is
aborted; one that wedges within 60 s of its last clean-up is fenced instead; either may end a power state that the mode no longer holds. A stage that
passes its self test once its abort has ended returns to service, and one that fails is fenced. Outside Cold a fault of a warden core is an event of
its kind, takes a dump, and the core restarts, or all four at a second fault within 10 s. (17_events_faults_test.md R481, 17_events_faults_test.md
R482, 17_events_faults_test.md R483) -/
def Obligations.WedgedStages : Prop :=
  ∀ s : State,
    (∀ (cls : Fin 8) (stage : Fin 4096) (b : Bool), s.mode ≠ 0 → s.mode ≠ 5 → (cls.val, stage.val) ∉ s.ev.wedged → (cls.val, stage.val) ∉ s.ev.fenced →
      (s.ev.cleaned.any (fun e => decide (e.1 = cls.val) && decide (e.2.1 = stage.val) && decide (s.now < e.2.2 + 60000000))) = false →
      exec (.stageWedged cls stage b) s = .next (leaveUnheld (wedgeAbort cls stage (deriveMode ((faultDump (occur (1160 + cls) stage s)).modEv
        (fun e => { e with wedged := e.wedged ++ [(cls.val, stage.val)] })))))) ∧
    (∀ (cls : Fin 8) (stage : Fin 4096) (b : Bool), s.mode ≠ 0 → s.mode ≠ 5 → (cls.val, stage.val) ∉ s.ev.wedged → (cls.val, stage.val) ∉ s.ev.fenced →
      (s.ev.cleaned.any (fun e => decide (e.1 = cls.val) && decide (e.2.1 = stage.val) && decide (s.now < e.2.2 + 60000000))) = true →
      exec (.stageWedged cls stage b) s = .next (leaveUnheld (wedgeAbort cls stage (deriveMode ((faultDump (occur (1160 + cls) (stage + 4096) s)).modEv
        (fun e => { e with fenced := e.fenced ++ [(cls.val, stage.val)] })))))) ∧
    (∀ (cls : Fin 8) (stage : Fin 4096), (cls.val, stage.val) ∈ s.ev.wedged → s.wedgeAborted cls stage = true →
      exec (.stageSelfTest cls stage true) s = .next (deriveMode ((s.modEv (fun e => { e with wedged := e.wedged.erase (cls.val, stage.val) })).modEv
        (fun e => { e with cleaned := e.cleaned.filter (fun x => x.1 ≠ cls.val || x.2.1 ≠ stage.val) ++ [(cls.val, stage.val, s.now)] }))) ∧
      exec (.stageSelfTest cls stage false) s = .next (deriveMode (occur (1160 + cls) (stage + 4096)
        ((s.modEv (fun e => { e with wedged := e.wedged.erase (cls.val, stage.val) })).modEv (fun e => { e with fenced := e.fenced ++ [(cls.val, stage.val)] }))))) ∧
    (∀ (core : Fin 4) (cores : Nat), s.mode ≠ 0 →
      cores = (match s.ev.wardenFaultAt with | some t => if s.now < t + 10000000 then 15 else 2 ^ core.val | none => 2 ^ core.val) →
      exec (.wardenWatchdog core) s = .next (((faultDump (occur 1170 (core + 4 * 1) s)).emit (.coreRestart cores)).modEv
        (fun e => { e with wardenFaultAt := some (faultDump (occur 1170 (core + 4 * 1) s)).now })) ∧
      exec (.wardenFault core true) s = .next (((faultDump (occur 1170 (core + 4 * 3) s)).emit (.coreRestart cores)).modEv
        (fun e => { e with wardenFaultAt := some (faultDump (occur 1170 (core + 4 * 3) s)).now })) ∧
      exec (.wardenFault core false) s = .next (((faultDump (occur 1170 (core + 4 * 2) s)).emit (.coreRestart cores)).modEv
        (fun e => { e with wardenFaultAt := some (faultDump (occur 1170 (core + 4 * 2) s)).now })))

/-- An occurrence of any source but LogThrottled counts one, latches the source, and keeps its argument and the time since Cold; it changes no object
outside the event sources', and neither the pools, the window nor the outputs. (17_events_faults_test.md R472, 17_events_faults_test.md R475,
17_events_faults_test.md R477) -/
def Obligations.EventOccurrence : Prop :=
  ∀ (n arg : Nat) (s : State), n < 1536 → n ≠ 1172 →
    (occur n arg s).get (K.evCount n) = s.get (K.evCount n) + 1 ∧
    (occur n arg s).flag (K.evLatched n) = true ∧
    (occur n arg s).get (K.evLastArgument n) = arg ∧
    (occur n arg s).get (K.evLastUptime n) = s.uptime % 2 ^ 40 ∧
    (∀ j, j < K.evCount 0 - 255 → (occur n arg s).get j = s.get j) ∧
    (occur n arg s).rings = s.rings ∧ (occur n arg s).win = s.win ∧ (occur n arg s).out = s.out ∧ (occur n arg s).wr = s.wr

/-- While the clock runs it advances by a minute, with a minute in each die's temperature bin, and the health figures follow. The clock is saved in
Bringup and the serving modes, the Harvest table, the scrub position and the health record where tables are saved (the serving modes, and Bringup once
they are restored). Where Harvest runs, no power entry pauses it, and the set has no victim, none is selected with at least 64 erased row blocks on
every die, and with fewer the one picked is, the Reclaims ahead of need counted; Harvest copies the victim's next stripe once its reads find room, and
erases a victim that may be erased; a wear check that is due marks the row block worn most; scrub reads its next stripe, and starts again once no set
has one left. (08_media_management.md R236, 08_media_management.md R239, 08_media_management.md R241, 08_media_management.md R243,
08_media_management.md R246, 08_media_management.md R247, 08_media_management.md R251) -/
def Obligations.MediaCommands : Prop :=
  ∀ (set : Fin 8) (s : State),
    (s.clockRuns = true → exec .calendsAdvance s = .next
      (updateHealth ((s.inc K.calendsNow).over (s.inc K.calendsNow).allDies (fun s k =>
          s.modFl (fun x => { x with hist := SMap.modify x.hist (8 * k + tempBin (s.dieTemp (k / 16) (k % 16))) 0 (fun n => n + 1) }))))) ∧
    (s.serving = true ∨ s.mode = 1 → exec .calendsSave s = .next (cfSave .calends s)) ∧
    (s.savesTables = true → exec .harvestTableSave s = .next (cfSave .harvest s) ∧
      exec .scrubPositionSave s = .next (cfSave .scrub s) ∧ exec .healthSave s = .next (cfSave .health s)) ∧
    (s.harvests set = true → s.paused = false → (s.sset set).victim = none → 64 ≤ s.erasedLowest set →
      exec (.selectVictim set) s = .next s) ∧
    (∀ rb g ahead, s.harvests set = true → s.paused = false → (s.sset set).victim = none → s.erasedLowest set < 64 →
      s.pickVictim set = some (rb, g, ahead) → exec (.selectVictim set) s = .next
        ((((overMembers rb g (fun h => if h.state = 4 then h else { h with state := 3 })
          (s.modRowBlock set rb.die rb.block (fun r => { r with victim := true }))).modSet set
          (fun t => { t with victim := some (rb.die, rb.block, 0), victimSeq := 0 })).set (K.setCurrentVictim set) (rb.die * 4096 + rb.block)).when ahead (fun s => s.inc K.reclaimsAhead))) ∧
    (∀ d b i rb g wl page os, (s.sset set).victim = some (d, b, i) → s.harvests set = true → s.paused = false → s.rowBlock set d b = some rb →
      s.genRec set rb.gen = some g → (s.stripesOf rb)[i]? = some (wl, page) → s.blockValid rb g ≠ 0 →
      s.stripeWaits { rb := rb, gen := g, wl := wl, page := page } (s.stripeReads { rb := rb, gen := g, wl := wl, page := page } os
        ++ s.headerReads { rb := rb, gen := g, wl := wl, page := page }) = false →
      exec (.harvestCopy set os) s = .next (relocateStripe .harvest { rb := rb, gen := g, wl := wl, page := page } os
        (s.modSet set (fun t => { t with victim := some (d, b, i + 1) })))) ∧
    (∀ rb g, s.harvests set = true → s.paused = false → s.victimOf set = some (rb, g) → s.victimReady set rb g = true →
      exec (.victimErase set) s = .next (eraseRowBlock rb g s)) ∧
    (∀ g rb, s.curGen set = some g → s.wearDue set = true → s.wornBlock set = some rb →
      exec (.wearCheck set) s = .next ((s.modSet set (fun t => { t with wearAt := some s.now })).modRowBlock set rb.die rb.block
        (fun r => { r with wearAt := some (r.wearAt.getD s.now) }))) ∧
    (∀ row rb g wl os x, s.get K.scrubEnable ≠ 0 → s.harvests set = true → s.paused = false → s.nextScrub set = some (row, rb, g, wl) →
      x = { rb := rb, gen := g, wl := wl, page := if row = (s.sset set).scrub / 16 then (s.sset set).scrub % 16 else 0 } → s.stripeWaits x (s.scrubReads x) = false →
      exec (.scrubRead set os) s = .next (showScrub (scrubStripe set row x os s))) ∧
    (∀ os, s.get K.scrubEnable ≠ 0 → s.harvests set = true → s.paused = false → (∀ k, k < 8 → s.nextScrub k = none) →
      exec (.scrubRead set os) s = .next ((s.over (List.range 8) (fun s k => s.modSet k (fun t => { t with scrub := 0 }))).set K.scrubProgress 0))

/-- A defined set takes the losses that are pending. A loss scan with room for all of its records declares them, and the walk that follows is chosen; with
less room it declares as many as there is room for and goes on from the next. A walk that runs, in a serving mode in S0, moves its next stripe once
the programs of its row have ended, there is room, and its reads find buffers and channels. A generation that waits for a record begins once one is
free; a walk that is blocked goes on once there is room for it, or a substitution gives it. The boundary of a walk with no row left, no move under way
and its records durable advances past its last row, and the walk ends; without a walk the advance releases what one has left. (06_redundancy.md R180,
06_redundancy.md R182, 06_redundancy.md R184, 06_redundancy.md R191, 06_redundancy.md R193) -/
def Obligations.RedundancyCommands : Prop :=
  ∀ (set : Fin 8) (s : State),
    ((s.sset set).lossPending ≠ [] → s.get (K.setState set) ≠ 0 →
      exec (.memberLoss set) s = .next (leaveUnheld (takeLosses set (s.sset set).lossPending s))) ∧
    (s.get (K.setState set) = 4 → (s.scanRecords set).length ≤ s.lossRoom →
      exec (.lossScanEnd set) s = .next (chooseWalk set (declareLoss ((s.scanRecords set).map (fun e => e.2)) s))) ∧
    (∀ e, s.get (K.setState set) = 4 → (s.scanRecords set)[s.lossRoom]? = some e →
      exec (.lossScanEnd set) s = .next ((declareLoss (((s.scanRecords set).take s.lossRoom).map (fun e => e.2)) s).modSet set
        (fun x => { x with scanAt := e.1 }))) ∧
    (∀ w row rb g wl os x, (s.sset set).walk = some w → s.get (K.setState set) = 2 ∨ s.get (K.setState set) = 3 → s.serving = true → s.get K.powerState = 0 →
      s.nextWalkRow set w = some (row, rb, g, wl) → s.rowInProgram set row = false → s.roomForWalk set = true →
      x = { rb := rb, gen := g, wl := wl, page := if row = w.next / 16 then w.next % 16 else 0 } → s.stripeWaits x (s.stripeReads x os) = false →
      exec (.walkStripe set os) s = .next (relocateStripe .walk x os
          (s.modSet set (fun t => { t with walk := t.walk.map (fun w => { w with next := 16 * row + x.page + 1 }) })))) ∧
    (∀ l follow, (s.sset set).owed = some (l, follow) → s.gensFull set = false →
      exec (.walkResume set) s = .next (beginGeneration set l follow (freeGens set s))) ∧
    (∀ w, (s.sset set).owed = none → (s.sset set).walk = some w → s.get (K.setState set) = 5 →
      s.roomForWalk set = true ∨ (s.curGen set).any (fun g => (s.canSubstitute set g).isSome) = true →
      exec (.walkResume set) s = .next (setActivity set (if w.kind = 1 then 2 else 3) (s.set (K.setBlockReason set) 0))) ∧
    ((s.sset set).walk = none → exec (.boundaryAdvance set) s = .next (releaseWalked set s)) ∧
    (∀ w w' u, (s.sset set).walk = some w → w.moving = [] → w.needSeq ≤ s.get K.journalDurable →
      w' = { w with boundary := max w.boundary w.next,
                    rowsLeft := ((s.walkRows set w).filter (fun r => decide (max w.boundary w.next < 16 * r.1 + 16))).length } →
      u = showWalk set w' (s.modSet set (fun t => { t with walk := some w' })) → (u.nextWalkRow set w').isNone = true →
      w.needSeq ≤ u.get K.journalDurable →
      exec (.boundaryAdvance set) s = .next (releaseWalked set (endWalk set w' u)))

/-- A power request held in S0 is met once nothing blocks it, one for S5 only with a valid wake image: without one the image is written. AutoPoise enters
S1 with nothing held or blocked. In S1 to S4 the save timer saves the die counters and the clock. A request for S1 or S2 in a serving mode in S0 is
held. A Power flit received in order does what its code says: on the Urvan port S1, S2 and the deepest state are requested and an acknowledgement
changes nothing more; on a peer port code 7 tells that the neighbour is in Vigil and code 3 that it sleeps. The wake pattern wakes a sleeping buffer,
or in S0 the port. (10_urvan_link.md R313, 13_power_vigil.md R356, 13_power_vigil.md R358, 13_power_vigil.md R359, 13_power_vigil.md R360,
15_board_group.md R442) -/
def Obligations.PowerCommands : Prop :=
  ∀ (p : Fin 3) (ctl : FlitCtl) (s : State),
    (∀ k, s.pw.request = some k → s.get K.powerState = 0 → s.powerBlock = 0 → (k = 5 → s.get K.wakeImageValid ≠ 0) → exec .powerStateEntry s = .next (enterPower k s)) ∧
    (s.pw.request = some 5 → s.get K.powerState = 0 → s.powerBlock = 0 → s.get K.wakeImageValid = 0 → s.imagePending = false →
      exec .powerStateEntry s = .next (writeWakeImage s)) ∧
    (s.get K.autoPoiseIdle ≠ 0 → s.get K.powerState = 0 → s.pw.request = none → s.powerBlock = 0 → exec .autoPoise s = .next (enterPower 1 s)) ∧
    (1 ≤ s.get K.powerState → s.get K.powerState ≤ 4 →
      exec .saveTimer s = .next ((cfSave .calends (cfSave .dieCounts s)).set K.wakeCause 4)) ∧
    (∀ k, k = 1 ∨ k = 2 → s.serving = true → s.get K.powerState = 0 → requestPower k s = { s with pw := { s.pw with request := some k } }) ∧
    (s.takesFlit 0 ctl (powerPayload 1) 3 → ctlSeq ctl = ((flitTaken 0 ctl s).port 0).rxSeq →
      exec (.powerEnterS1 0 ctl) s = .next (postHeld (pump 0 (requestPower 1 (flitTaken 0 ctl s))))) ∧
    (s.takesFlit 0 ctl (powerPayload 2) 3 → ctlSeq ctl = ((flitTaken 0 ctl s).port 0).rxSeq →
      exec (.powerEnterS2 0 ctl) s = .next (postHeld (pump 0 (requestPower 2 (flitTaken 0 ctl s))))) ∧
    (s.takesFlit 0 ctl (powerPayload 3) 3 → ctlSeq ctl = ((flitTaken 0 ctl s).port 0).rxSeq →
      exec (.powerEnterDeep 0 ctl) s = .next (postHeld (pump 0 (requestPower ((flitTaken 0 ctl s).get K.deepestState) (flitTaken 0 ctl s))))) ∧
    (s.takesFlit p ctl (powerPayload 4) 3 → ctlSeq ctl = ((flitTaken p ctl s).port p).rxSeq →
      exec (.powerAcknowledge p ctl) s = .next (postHeld (pump p (flitTaken p ctl s)))) ∧
    (p ≠ 0 → s.takesFlit p ctl (powerPayload 7) 3 → ctlSeq ctl = ((flitTaken p ctl s).port p).rxSeq →
      exec (.powerVigil p ctl) s = .next (postHeld (pump p (peerPowerFlit p 7 (flitTaken p ctl s))))) ∧
    exec (.powerEnterS1 0 ctl) s = .next (rxFlit 0 ctl (powerPayload 1) 3 (requestPower 1) s) ∧
    exec (.powerEnterS2 0 ctl) s = .next (rxFlit 0 ctl (powerPayload 2) 3 (requestPower 2) s) ∧
    exec (.powerEnterDeep 0 ctl) s = .next (rxFlit 0 ctl (powerPayload 3) 3 (fun s => requestPower (s.get K.deepestState) s) s) ∧
    (p ≠ 0 → exec (.powerEnterDeep p ctl) s = .next (rxFlit p ctl (powerPayload 3) 3 (peerPowerFlit p 3) s)) ∧
    exec (.powerAcknowledge p ctl) s = .next (rxFlit p ctl (powerPayload 4) 3 id s) ∧
    (p ≠ 0 → exec (.powerVigil p ctl) s = .next (rxFlit p ctl (powerPayload 7) 3 (peerPowerFlit p 7) s)) ∧
    (s.mode ≠ 0 → s.mode ≠ 5 → 6 ≤ s.get (K.portLinkState p) → s.get K.powerState ≠ 0 →
      exec (.wakePattern p) s = .next (exitPower (if p = 0 then 1 else 3) p s)) ∧
    (s.mode ≠ 0 → s.mode ≠ 5 → 6 ≤ s.get (K.portLinkState p) → s.get K.powerState = 0 →
      exec (.wakePattern p) s = .next (portAwake p s))

/-- A conversion is that of the scan's next input; after input 47, out of Cold, the scan is counted and the bank judged; in Cold, start-up's first step is
tried. A bank that is charging and stays below 1 V is shorted and its charger is turned off, to be tried again in Bringup and the serving modes. A
capacitance test starts in Bringup while charging and at its period in a serving mode, where it may, and ends with the bank's voltage, once a good
conversion of it stands. (14_measurement_sideband.md R388, 13_power_vigil.md R369, 13_power_vigil.md R370) -/
def Obligations.MeasurementCommands : Prop :=
  ∀ s : State,
    (∀ raw value peak : BitVec 20, s.adcInputs ≠ 0 → s.mon.next % s.adcInputs ≠ 47 →
      (convert (s.mon.next % s.adcInputs) (s20 raw.toNat) (s20 value.toNat) (s20 peak.toNat)
        (s.modMon (fun m => { m with next := (s.mon.next % s.adcInputs + 1) % s.adcInputs }))).mode ≠ 0 →
      exec (.adcConversion raw value peak) s = .next (convert (s.mon.next % s.adcInputs) (s20 raw.toNat) (s20 value.toNat) (s20 peak.toNat)
        (s.modMon (fun m => { m with next := (s.mon.next % s.adcInputs + 1) % s.adcInputs })))) ∧
    (∀ (raw value peak : BitVec 20) (u : State), s.adcInputs ≠ 0 →
      u = convert (s.mon.next % s.adcInputs) (s20 raw.toNat) (s20 value.toNat) (s20 peak.toNat)
        (s.modMon (fun m => { m with next := (s.mon.next % s.adcInputs + 1) % s.adcInputs })) →
      (u.mode = 0 → exec (.adcConversion raw value peak) s = .next (tryStep1 u)) ∧
      (u.mode ≠ 0 → s.mon.next % s.adcInputs = 47 → exec (.adcConversion raw value peak) s = .next (bankScan (u.inc K.scanCount)))) ∧
    (s.pw.charger = true → s.bankMv < 1000 → exec .bankShorted s
      = .next (reportBank (s.modPw (fun p => { p with shorted := true, charger := false })))) ∧
    (s.pw.shorted = true → s.pw.charger = false → 1 ≤ s.mode → s.mode ≤ 4 → exec .holdupChargeRetry s = .next (startCharging s)) ∧
    (s.mode = 1 → s.pw.charger = true → exec .holdupTest s = .next (startTest s)) ∧
    (s.serving = true → exec .holdupTestPeriod s = .next (startTest s)) ∧
    (∀ v0, s.pw.test = true → s.mon.v0 = some v0 → s.get (K.adcSample 25) % 4 = 0 → exec .holdupTestEnd s = .next (finishTest v0 s.bankMv s))

/-- With VDD_AON in range the rise of MOD_RST_N senses the straps and tries step 1, as does VIN good that was awaited; step 1 enters step 2 once the boot
ROM runs and the die has cooled. VDD_AON in range starts the VDD_CORE code at 9. In step 2 the image of the slot to boot boots, and BringupFault is 1
while there is none. While the rails rise, a group that is good is reported and holds, the hold's end passes to the next group, and after the fourth
the trainings begin; a rail that is not good in time, or goes low, is a fault of the start, and the retry starts the rails again. In Bringup a
channel's first training and that of DRAM advance start-up; the group wait ends with the restore, in a group of one where there is none, and the
serving mode is entered once the bank is ready. (12_bringup_modes.md R343, 12_bringup_modes.md R345, 13_power_vigil.md R365, 13_power_vigil.md R366,
15_board_group.md R416, 16_warden_codeflash.md R460) -/
def Obligations.BringupCommands : Prop :=
  ∀ s : State,
    (∀ (l2 l1 l0 : Fin 3) (m : Bool), s.pw.resetLow = true → s.pw.aonValid = true → exec (.modRstNRise l2 l1 l0 m) s = .next (tryStep1 (s.modPw
      (fun p => { p with resetLow := false, supplyLow := false, straps := (l2.val, l1.val, l0.val), manager := m, riseAt := s.now })))) ∧
    (s.pw.aonValid = false → exec .vddAonInRange s = .next ((s.set K.vidCode 9).modPw (fun p => { p with aonValid := true, coreEn := true }))) ∧
    (s.mode = 0 → s.pw.vinWait = true → exec .vinGood s = .next (tryStep1 (s.modPw (fun p => { p with vinWait := false })))) ∧
    (s.mode = 1 → s.get K.bringupStep = 2 → exec .firmwareVerified s
      = .next (match s.bootSlot with | some slot => bootImage slot s | none => s.report K.bringupFault 1)) ∧
    (∀ slot, s.mode = 1 → s.get K.bringupStep = 2 → s.bootSlot = some slot → exec .firmwareVerified s = .next (bootImage slot s)) ∧
    (∀ u : State, u.mode = 0 → u.bootRuns = true → u.cooled = true → (tryStep1 u).get K.bringupStep = 2) ∧
    (s.railsRunning = true → s.pw.hold = false → exec .railPowerGood s = .next ((s.set K.railPowerGood (s.get K.railPowerGood |||
      (groupPairs s.pw.groups).foldl (fun a k => a + 2 ^ k) 0)).modPw (fun p => { p with hold := true }))) ∧
    (s.railsRunning = true → s.pw.hold = true → s.pw.groups ≠ 4 → exec .railGroupHold s
      = .next (s.modPw (fun p => { p with groups := p.groups + 1, hold := false }))) ∧
    (s.railsRunning = true → s.pw.hold = true → s.pw.groups = 4 → exec .railGroupHold s
      = .next (startInterfaces (((s.set K.bringupStep 7).report K.bringupFault 0).modPw (fun p => { p with hold := false, railsDone := true })))) ∧
    (∀ k : Fin 12, s.railsRunning = true → s.pw.hold = false → (groupPairs s.pw.groups).contains k.val = true →
      exec (.railSequenceTimeout k) s = .next (railStartFault k s)) ∧
    (∀ k : Fin 12, (s.get K.railPowerGood).testBit k = true → (railGone k s).railsRunning = true → exec (.railPowerGoodLow k) s = .next (railStartFault k (railGone k s))) ∧
    (s.mode = 1 → s.pw.railRetry = true → exec .railRetry s = .next (startRails s)) ∧
    (∀ (c : Fin 96) (r : ChannelResult), s.mode = 1 → s.pw.railsDone = true → (s.chan c).trained = false → s.pw.restored = false →
      exec (.channelTraining c r) s = .next (trainingAdvance (trainChannel c r s))) ∧
    (∀ rs u, s.mode = 1 → s.pw.railsDone = true → s.pw.dramDone = false → trainDram rs s = (false, u) →
      exec (.dramTraining rs) s = .next (trainingAdvance (((u.report K.bringupFault 0).modDram (fun d => { d with trained := true })).modPw
        (fun p => { p with dramDone := true })))) ∧
    (∀ u, s.mode = 1 → s.get K.bringupStep = 10 → s.pw.restored = false →
      u = (restore (if s.get K.groupState = 0 then s.set K.groupState 1 else s)).set K.bringupStep 11 →
      exec .groupWaitEnd s = .next (u.report K.bringupFault (if u.bankReady then 0 else 3))) ∧
    (s.mode = 1 → s.get K.bringupStep = 11 → s.bankReady = true → exec .servingModeEntry s = .next (enterServing s))

/-- A fall of MOD_RST_N, at which both sideband ports release their bus and the rails are off, and a supply that falls enter Cold with their causes from
Bringup and the serving modes; in Cold a fall of MOD_RST_N enters Cold anew, and in Vigil it ends the sequence unclean with cause 2. The manager's own
delay enters Cold with cause 5. A fall of VIN enters Vigil from a serving mode and Cold from Bringup. In Vigil the End mark, once step 9 is met with
no stage wedged and the supply up, ends the sequence clean, and the timeout ends it unclean. (12_bringup_modes.md R350, 13_power_vigil.md R372,
13_power_vigil.md R374, 15_board_group.md R435) -/
def Obligations.ColdCommands : Prop :=
  ∀ s : State,
    (s.pw.resetLow = false → s.mode ≠ 0 → s.mode ≠ 5 →
      exec .modRstNFall s = .next ((railsOff (enterCold 2 false ((s.emit (.busRelease 0)).emit (.busRelease 1)))).modPw
        (fun p => { p with resetLow := true, vinWait := false }))) ∧
    (s.pw.resetLow = false → s.mode = 0 →
      exec .modRstNFall s = .next ((railsOff (coldAgain 2 false ((s.emit (.busRelease 0)).emit (.busRelease 1)))).modPw
        (fun p => { p with resetLow := true, vinWait := false }))) ∧
    (s.pw.resetLow = false → s.mode = 5 →
      exec .modRstNFall s = .next ((railsOff ((vigilOver false ((s.emit (.busRelease 0)).emit (.busRelease 1))).modPw (fun p => { p with cause := 2 }))).modPw
        (fun p => { p with resetLow := true, vinWait := false }))) ∧
    (∀ aon : Bool, s.mode ≠ 0 → s.mode ≠ 5 → exec (.supplyFall aon) s = .next (((enterCold 7 false s).when aon railsOff).modPw
      (fun p => { p with supplyLow := true, aonValid := p.aonValid && !aon, coreEn := p.coreEn && !aon }))) ∧
    (s.serving = true → exec .vinFail s = .next (enterVigil 1 false s)) ∧
    (s.mode = 1 → exec .vinFail s = .next (enterCold 7 false s)) ∧
    (s.get K.resetState = 2 → exec .managerResetDelay s = .next (enterCold 5 false s)) ∧
    (s.mode = 5 → exec .vigilTimeout s = .next (vigilOver false s)) ∧
    (∀ v e, s.pw.vigil = some v → s.nv.vigilEntry = some e → s.mode = 5 → s.vigilStepMet v 9 = true → s.ev.wedged = [] → s.pw.supplyLow = false →
      exec .vigilEndMark s = .next (vigilOver true ((cfPut (e.addr + 13) (cfEncode 0) s).modNv
        (fun n => { n with vigilEntry := some { e with marks := e.marks ++ [5] } }))))

/-- On entry to Cold every object that code flash does not give back, but RailPowerGood, what the loss and tear records give, and the sources of the
change of mode, has its default, and the last retained write that code flash holds stands in its object; the rings, the staging, the dies' queues, the
groups' and the paths' state and the shared window are those at reset; the media, the one-time-programmable row and the outputs so far stay, and the
clock of microseconds goes on. The queue of commands stays too (the model's own). (12_bringup_modes.md R350, 13_power_vigil.md R384) -/
def Obligations.ColdState : Prop :=
  ∀ (cause : Nat) (wait : Bool) (s : State) (kept : List Nat),
    kept = [K.lossRecordsIssued, K.lossPending, K.tornPages, K.retainedAccepted, K.retainedDurable, K.railPowerGood] ++
      (List.range 8).flatMap (fun sub => [K.dramRankState0 sub, K.dramRankState1 sub, K.dramSpareHalfState sub]) →
    (∀ k, (∀ e ∈ (enterCold cause wait s).nv.saved, e.1 ≠ k) → (∀ e ∈ (enterCold cause wait s).retainedImage.2.2.1, e.key ≠ k) →
      k ∉ kept → k / 256 ≠ 0xD000 + 1176 → (enterCold cause wait s).get k = objDefault k) ∧
    (∀ e, (enterCold cause wait s).retainedImage.2.2.1.getLast? = some e → e.key ∉ kept → e.key / 256 ≠ 0xD000 + 1176 →
      (enterCold cause wait s).get e.key = e.value) ∧
    (enterCold cause wait s).get K.retainedDurable = (enterCold cause wait s).retainedImage.2.2.2 ∧
    (enterCold cause wait s).rings = State.reset.rings ∧ (enterCold cause wait s).wr = State.reset.wr ∧
    (enterCold cause wait s).fl.dies = [] ∧ (enterCold cause wait s).win = State.reset.win ∧ (enterCold cause wait s).grp = State.reset.grp ∧
    (enterCold cause wait s).paths = [] ∧ (enterCold cause wait s).ports = [] ∧ (enterCold cause wait s).out = s.out ∧
    (enterCold cause wait s).nv.otp = (cfCut s).nv.otp ∧ (enterCold cause wait s).now = s.now ∧ (enterCold cause wait s).coldAt = s.now ∧
    (enterCold cause wait s).pending = s.pending

/-- At reset every object reads its default: the mode is Cold, EchoConstant is 0xA5C35, DeviceCode is 0x0D960, SiliconRevision is 0xB0 and each channel's
DataRate is 3,600; nothing has been sent and no command waits; the shared window and the pools of both rings are in canonical form. (02_almanac.md
R44, 12_bringup_modes.md R343, 03_rings.md R74) -/
def Obligations.ResetState : Prop :=
  (∀ k, State.reset.get k = objDefault k) ∧ State.reset.mode = 0 ∧ State.reset.get K.echoConstant = 0xA5C35 ∧ State.reset.get K.deviceCode = 0x0D960 ∧
    State.reset.get K.siliconRevision = 0xB0 ∧ (∀ c, c < 96 → State.reset.get (K.chDataRate c) = 3600) ∧ State.reset.out = [] ∧ State.reset.pending = [] ∧
    State.reset.windowCanonical ∧ SMap.canonical 0 State.reset.rings.subPool = true ∧ SMap.canonical 0 State.reset.rings.cplPool = true

/-- Past step 3 the manager sends Discover on the peer ports that are up, and a Heartbeat to the members that do not sleep while there is one. A present
member that is silent is gone, and a worker of a formed group without its manager reads GroupState 4. A rise of EQX_N completes a barrier that is
pending, or lets a buffer that joins arm the next; the rearm arms the next; a fall wakes the buffer. A barrier that takes too long is an event and
BarrierState 4, a snapshot that holds too long is given up, and a cut whose records are durable is complete. A worker that has drained tells the
manager, and the manager notes its own drain; a reset that does not drain in time is given up with its stragglers. A relay to one device that is not
answered ends with RelayState 3, and one to all ends with RelayState 4. A transfer in progress reads and sends its next unit. (15_board_group.md R418,
15_board_group.md R422, 15_board_group.md R424, 15_board_group.md R430, 15_board_group.md R431, 15_board_group.md R432, 15_board_group.md R433,
15_board_group.md R434, 15_board_group.md R440, 15_board_group.md R441) -/
def Obligations.GroupCommands : Prop :=
  ∀ s : State,
    (s.isManager = true → s.pastStep3 = true → exec .discoverTimer s = .next
      (s.over ([1, 2].filter (fun p => s.get (K.portLinkState p) = 2)) (fun s p => sendPeer p 0x13 0 0 0 15 (s.get K.barrierNumber) 0 true 0x01 s))) ∧
    (s.isManager = true → s.pastStep3 = true → (s.rosterMembers.any (fun k => k ≠ 0 && s.rosterState k ≠ 3)) = true →
      exec .heartbeatTimer s = .next (broadcastTo (fun k => decide (s.rosterState k ≠ 3)) (controlPacket 0x05 0 s) s)) ∧
    (∀ k : Fin 16, s.isManager = true → k.val ≠ 0 → s.rosterState k = 2 → exec (.memberUnreachable k) s = .next (memberGone k 5 s)) ∧
    (s.isManager = false → s.get K.groupState = 2 → s.mode ≠ 0 → s.mode ≠ 5 → exec .managerUnreachable s = .next (s.set K.groupState 4)) ∧
    (s.mode ≠ 0 → s.mode ≠ 5 → s.grp.joining = false → 2 ≤ s.get K.barrierState → s.grp.rearm = false → exec .eqxNRise s
      = .next (completeBarrier ((s.set K.eqxLine 1).get K.barrierNumber) (nextBarrier ((s.set K.eqxLine 1).set K.lastBarrierTime ((s.now - s.grp.arrivedAt) % 2 ^ 40))))) ∧
    (s.grp.rearm = true → s.isMember = true → s.mode ≠ 5 → exec .eqxRearm s = .next (armBarrier s)) ∧
    (s.mode ≠ 0 → s.mode ≠ 5 → exec .eqxNFall s = .next (exitPower 3 3 (s.set K.eqxLine 0))) ∧
    (s.mode ≠ 0 → s.mode ≠ 5 → s.grp.joining = true → exec .eqxNRise s = .next (nextBarrier (s.set K.eqxLine 1))) ∧
    (s.get K.barrierState = 2 ∨ s.get K.barrierState = 3 → s.grp.rearm = false → s.mode ≠ 5 → exec .barrierTimeout s
      = .next ((occur 1226 (s.get K.barrierNumber % 524288) (abandonSnapshot s)).set K.barrierState 4)) ∧
    (s.get K.barrierState = 3 → s.mode ≠ 5 → exec .snapshotHoldLimit s = .next ((abandonSnapshot s).set K.barrierState 2)) ∧
    (s.get K.snapshotState = 1 → s.get K.snapshotSequence ≤ s.get K.journalDurable → exec .snapshotDurable s = .next (s.set K.snapshotState 2)) ∧
    (s.grp.preparing = true → s.grp.reported = false → s.isDrained = true → s.isManager = false → exec .drainComplete s
      = .next (sendControl 0x09 0 0 0 (s.modGrp (fun g => { g with reported := true })))) ∧
    (s.grp.preparing = true → s.grp.reported = false → s.isDrained = true → s.isManager = true → exec .drainComplete s
      = .next (checkDrained ((s.modGrp (fun g => { g with reported := true })).modGrp (fun g => { g with drained := g.drained ++ [0] })))) ∧
    (s.get K.resetState = 1 → exec .resetDrainLimit s = .next (
      let u := (s.set K.resetState 3).set K.resetStragglers (maskOf (s.rosterMembers.filter (fun k => !s.grp.drained.contains k)))
      resumeReset (broadcastControl 0x04 (maskOf u.rosterMembers) u))) ∧
    (∀ p, p ≠ .peer → p ≠ .stranger → ∀ t dev, SMap.find? s.grp.relays (pathCode p) = some (t, dev) → dev ≠ 0x1F →
      exec (.relayTimeout p) s = .next (endRelay (pathCode p) 3 s)) ∧
    (∀ p t, p ≠ .peer → p ≠ .stranger → SMap.find? s.grp.relays (pathCode p) = some (t, 0x1F) →
      ∃ u, exec (.relayTimeout p) s = .next (endRelay (pathCode p) 4 u)) ∧
    (∀ i out os, s.grp.xfer = some (i, out) → i < s.get K.transferUnits → s.fetches = true →
      exec (.transferUnitSend os) s = .next (
        let r := transferRead (s.get K.transferSourceSet) (s.get K.transferSourceFirst + i) os s
        (sendUnit i r.1 r.2).modGrp (fun g => { g with xfer := some (i + 1, out ++ [r.2.get K.transferDestFirst + i]) })))

/-- In S0, outside Cold and Vigil, with the manager not lost: a packet that is no broadcast and names this buffer, or the manager which this buffer is, is
taken, the sender has been heard, and its effect follows; a transaction is taken with the right byte count. A broadcast of the generation that is
held, or a later one, is passed on and taken by a worker, and taken by the manager. (15_board_group.md R418, 15_board_group.md R420, 15_board_group.md
R421, 15_board_group.md R422, 15_board_group.md R424, 15_board_group.md R425, 15_board_group.md R429, 15_board_group.md R433, 15_board_group.md R434,
15_board_group.md R436, 15_board_group.md R439) -/
def Obligations.PeerPacketsTaken : Prop :=
  ∀ (port : Fin 3) (h : PeerHdr) (s : State), port ≠ 0 → s.mode ≠ 0 → s.mode ≠ 5 → s.get K.powerState = 0 → s.get K.groupState ≠ 4 →
    (h.broadcast = false → (if h.dest = 0 then s.isManager else decide (s.get K.deviceNumber = h.dest.toNat) && s.isMember) = true →
      (∀ ws, (transactionOf h.byteCount.toNat ws).isSome = true → exec (.peerMgmtRequest port h ws) s = .next (takePeerMgmtRequest port h ws (heardFrom h s))) ∧
      (∀ f, exec (.transferData port h f) s = .next (takeTransferData port h f (heardFrom h s))) ∧
      exec (.transferAck port h) s = .next (takeTransferAck h (heardFrom h s))) ∧
    (h.broadcast = false → h.dest = 0 → s.isManager = true →
      exec (.joinRequest port h) s = .next (takeJoinRequest port h (heardFrom h s)) ∧
      exec (.status port h) s = .next (takeStatus h (heardFrom h s)) ∧
      exec (.leave port h) s = .next (takeLeave h (heardFrom h s)) ∧
      (∀ ws, exec (.peerMgmtResponse port h ws) s = .next (takePeerMgmtResponse port h ws (heardFrom h s))) ∧
      exec (.snapshotReport port h) s = .next (takeSnapshotReport h (heardFrom h s)) ∧
      exec (.drained port h) s = .next (takeDrained h (heardFrom h s))) ∧
    (h.broadcast = true → s.broadcastFresh h = true →
      exec (.discover port h) s = .next (takeDiscover port h (broadcastHeard port h 0x13 0x01 [] s)) ∧
      exec (.roster port h) s = .next (takeRoster h (broadcastHeard port h 0x13 0x04 [] s)) ∧
      exec (.heartbeat port h) s = .next (takeHeartbeat (broadcastHeard port h 0x13 0x05 [] s)) ∧
      (∀ ws, (transactionOf h.byteCount.toNat ws).isSome = true →
        exec (.mgmtBroadcast port h ws) s = .next (takeMgmtBroadcast port h ws (exitPower 3 port (broadcastHeard port h 0x12 0 ws s)))) ∧
      exec (.arriveAll port h) s = .next (takeArriveAll h (broadcastHeard port h 0x13 0x0B [] s)) ∧
      exec (.snapshotGather port h) s = .next (takeSnapshotGather h (broadcastHeard port h 0x13 0x0C [] s)) ∧
      exec (.resetPrepare port h) s = .next (takeResetPrepare (broadcastHeard port h 0x13 0x08 [] s)) ∧
      exec (.reset port h) s = .next (takeReset (broadcastHeard port h 0x13 0x0A [] s)))

/-- Where a packet is taken (PeerPacketsTaken), its Subtype has its effect. At the manager: its own Discover tells the size of the ring; a JoinRequest
that gets a number, from the east in a formed group, is granted it and the roster is told; a Status updates the roster; a Leave removes its sender; a
response ends its relay, a broadcast that comes round ends its own, and a snapshot report is entered; a Drained is noted. At a worker: a Discover is
answered by one that seeks a place; a Roster is taken over; a Heartbeat is answered; a relayed request and a write broadcast are served; ArriveAll
arrives it; its cut, where it is valid, is reported; ResetPrepare stops it; Reset enters Cold. A frame of a transfer that leaves its unit incomplete
is kept, and an acknowledgement that leaves others outstanding is counted. A Grant with hops left is forwarded, and one that has arrived in Bringup is
taken. (15_board_group.md R418, 15_board_group.md R421, 15_board_group.md R422, 15_board_group.md R424, 15_board_group.md R425, 15_board_group.md
R429, 15_board_group.md R433, 15_board_group.md R434, 15_board_group.md R435, 15_board_group.md R436, 15_board_group.md R439) -/
def Obligations.PeerPacketEffects : Prop :=
  ∀ (port : Fin 3) (h : PeerHdr) (s : State), port ≠ 0 → s.mode ≠ 0 → s.mode ≠ 5 → s.get K.powerState = 0 → s.get K.groupState ≠ 4 →
    (∀ u, h.broadcast = false → (if h.dest = 0 then s.isManager else decide (s.get K.deviceNumber = h.dest.toNat) && s.isMember) = true → u = heardFrom h s →
      (∀ n e w v, h.dest = 0 → u.isManager = true → u.pastStep3 = true → port = 1 →
        u.chooseNumber (h.argument.toNat / 2 ^ 28) (h.argument.toNat / 2 ^ 20 % 16) (h.argument.toNat.testBit 27) port (16 - h.hops.toNat) = some n →
        e = 16 - h.hops.toNat → w = (match u.grp.ringSize with | some k => k - e | none => 0) →
        v = (u.set (K.rosterEntry n) (2 * 2 ^ 37 + e % 16 * 2 ^ 33 + w % 16 * 2 ^ 29 + h.argument.toNat / 2 ^ 24 % 8 * 2 ^ 26)).modGrp
          (fun g => { g with heard := SMap.insert g.heard n u.now }) → v.get K.groupState = 2 →
        exec (.joinRequest port h) s = .next (
          let x := sendPeer port 0x13 0 0 n e (n * 2 ^ 28 + (v.inc20 K.rosterGeneration).get K.barrierNumber) 0 false 0x03 (v.inc20 K.rosterGeneration)
          groupChanged (maskOf x.rosterMembers) (broadcastControl 0x04 (maskOf x.rosterMembers) (x.set K.memberCount x.rosterMembers.length)))) ∧
      (∀ k v, h.dest = 0 → u.isManager = true → k = h.source.toNat → u.rosterState k ≠ 0 → h.argument.toNat.testBit 20 = false →
        v = setRoster k 23 3 (h.argument.toNat / 2 ^ 21 % 8) (setRoster k 26 3 (h.argument.toNat / 2 ^ 24 % 8) u) → v.rosterState k = 2 →
        exec (.status port h) s = .next v) ∧
      (h.dest = 0 → u.isManager = true → h.source ≠ 0 → u.rosterState h.source.toNat ≠ 0 → exec (.leave port h) s = .next (memberGone h.source.toNat 0 u)) ∧
      (∀ ws op r vs, transactionOf h.byteCount.toNat ws = some (op, r, vs) → u.answers (sourcePath h) = true →
        exec (.peerMgmtRequest port h ws) s = .next (serveWith (replyPeer h op r) (sourcePath h) op r vs u)) ∧
      (∀ ws code, h.dest = 0 → u.isManager = true → u.relayOf h.tag.toNat h.source.toNat = some code →
        exec (.peerMgmtResponse port h ws) s = .next (endRelay code 2 (u.setBlob (K.relayResponse + (code + 1) * pathStride) ws))) ∧
      (h.dest = 0 → u.isManager = true → h.argument.toNat.testBit 20 = true → h.argument.toNat % 1048576 = u.get K.snapshotNumber →
        exec (.snapshotReport port h) s = .next ((u.set (K.snapshotTable h.source.toNat) h.duo1.toNat).set K.snapshotGathered
          (u.get K.snapshotGathered ||| 2 ^ h.source.toNat))) ∧
      (h.dest = 0 → u.isManager = true → u.get K.resetState = 1 →
        exec (.drained port h) s = .next (checkDrained (u.modGrp (fun g => { g with drained := g.drained ++ [h.source.toNat] })))) ∧
      (∀ f (y : XferUnit) set lui, set = h.duo1.toNat / 2 ^ 37 → lui = h.duo1.toNat % 2 ^ 35 →
        List.find? (fun (x : XferUnit) => decide (x.source = h.source.toNat) && decide (x.set = set) && decide (x.lui = lui)) u.grp.arriving = none →
        u.get (K.setState set) ≠ 0 → lui < u.get (K.setLogicalUnits set) → u.get K.groupState ≠ 3 → h.status = 0 →
        y = { source := h.source.toNat, port := port.val, set := set, lui := lui, entry := u.entry set lui, empty := false,
              frames := SMap.insert [] (h.duo1.toNat / 2 ^ 35 % 4) (arrivedFrame lui (h.duo1.toNat / 2 ^ 35 % 4) 0 f) } → y.complete = false →
        exec (.transferData port h f) s = .next (u.modGrp (fun g => { g with arriving := g.arriving ++ [y] }))) ∧
      (∀ i out lui, u.grp.xfer = some (i, out) → lui = h.duo1.toNat % 2 ^ 35 → out.contains lui = true → h.status = 0 → out.erase lui ≠ [] →
        exec (.transferAck port h) s = .next ((u.inc K.transferUnitsDone).modGrp (fun g => { g with xfer := some (i, out.erase lui) })))) ∧
    (∀ u, h.broadcast = true → s.broadcastFresh h = true → u = broadcastHeard port h 0x13 0x01 [] s →
      (u.isManager = true → exec (.discover port h) s = .next (u.modGrp (fun g => { g with ringSize := some (16 - h.hops.toNat) }))) ∧
      (u.isManager = false → u.seeksPlace = true → exec (.discover port h) s = .next (sendPeer port 0x13 0 0 0 15 (u.get K.deviceNumber * 2 ^ 28
        + (if u.serving then 2 ^ 27 else 0) + u.mode * 2 ^ 24 + u.get K.lastDeviceNumber * 2 ^ 20) 0 false 0x02 (u.modGrp (fun g => { g with asked := true }))))) ∧
    (∀ u m, h.broadcast = true → s.broadcastFresh h = true → u = broadcastHeard port h 0x13 0x04 [] s → u.get K.groupState ≠ 4 →
      u.isManager = false → u.isMember = true → m = h.argument.toNat % 65536 → (u.get K.groupState = 3 → m.testBit (u.get K.deviceNumber) = true) →
      exec (.roster port h) s = .next (groupChanged m (resumeReset (dropMembers m ((u.set K.rosterGeneration h.generation.toNat).set K.memberCount
        ((List.range 16).filter (fun k => m.testBit k)).length))))) ∧
    (∀ u, h.broadcast = true → s.broadcastFresh h = true → u = broadcastHeard port h 0x13 0x05 [] s → u.get K.groupState ≠ 4 →
      u.isManager = false → u.isMember = true → exec (.heartbeat port h) s
        = .next (sendControl 0x06 0 (u.mode * 2 ^ 24 + u.get K.powerState * 2 ^ 21 + (if u.grp.reported then 2 ^ 20 else 0)) 0 u)) ∧
    (∀ u ws op r vs, h.broadcast = true → s.broadcastFresh h = true → transactionOf h.byteCount.toNat ws = some (op, r, vs) →
      u = exitPower 3 port (broadcastHeard port h 0x12 0 ws s) →
      (u.isManager = false → op = 1 ∨ op = 2 → u.answers (sourcePath h) = true →
        exec (.mgmtBroadcast port h ws) s = .next (serveWith (fun _ s => s) (sourcePath h) op r vs u)) ∧
      (∀ code, u.isManager = true → u.relayOf h.tag.toNat 0x1F = some code → exec (.mgmtBroadcast port h ws) s = .next (endRelay code 4
        (u.set (K.relayReached + (code + 1) * pathStride) (maskOf (u.rosterMembers.filter (fun k => k ≠ 0))))))) ∧
    (∀ u v, h.broadcast = true → s.broadcastFresh h = true → u = broadcastHeard port h 0x13 0x0B [] s →
      v = (if h.argument.toNat.testBit 31 then 549755813888 else 0) + h.argument.toNat % 1048576 → u.arriveOk v = true →
      exec (.arriveAll port h) s = .next (arriveEffect v u)) ∧
    (∀ u n, h.broadcast = true → s.broadcastFresh h = true → u = broadcastHeard port h 0x13 0x0C [] s →
      u.isManager = false → n = h.argument.toNat % 1048576 → u.get K.snapshotNumber = n → u.get K.snapshotState = 1 ∨ u.get K.snapshotState = 2 →
      exec (.snapshotGather port h) s = .next (sendControl 0x0D 0 (n + 1048576) (u.get K.snapshotSequence) u)) ∧
    (∀ u, h.broadcast = true → s.broadcastFresh h = true → u = broadcastHeard port h 0x13 0x08 [] s → u.isManager = false →
      exec (.resetPrepare port h) s = .next (prepareReset u)) ∧
    (∀ u, h.broadcast = true → s.broadcastFresh h = true → u = broadcastHeard port h 0x13 0x0A [] s → u.isManager = false →
      exec (.reset port h) s = .next (enterCold 5 false u)) ∧
    (h.broadcast = false → 2 ≤ h.hops.toNat → exec (.grant port h) s = .next (forwardPacket (if port = 1 then 2 else 1) (passOn h 0x13 0x03 [] 0) s)) ∧
    (h.broadcast = false → h.hops.toNat ≤ 1 → s.seeksPlace = true → s.grp.asked = true → s.mode = 1 →
      exec (.grant port h) s = .next (takeGrant (h.argument.toNat / 2 ^ 28) (h.argument.toNat % 1048576) h.generation.toNat s))

/-- While a port's own logic runs, a stretch, low-clock or stuck-data condition counts itself and resets the port with its cause, and a STOP ends a hang.
SB1_RST_N low resets SB1 and holds it released until it rises. In S0 a write transfer with the right length byte and PEC is a request that is served,
and one with a wrong PEC is not acknowledged and counted; a read transfer clocks out the pending response, or L = 0. (14_measurement_sideband.md R402,
14_measurement_sideband.md R403, 14_measurement_sideband.md R404, 14_measurement_sideband.md R405, 14_measurement_sideband.md R408,
14_measurement_sideband.md R409) -/
def Obligations.SidebandPorts : Prop :=
  ∀ (port : Fin 2) (s : State),
    (s.sbAlive port = true → exec (.stretchTimeout port) s = .next (portReset port 1 (s.inc (K.sbStretchTimeouts port)))) ∧
    (s.sbAlive port = true → exec (.sclLowTimeout port) s = .next (portReset port 2 (s.inc (K.sbSclLowTimeouts port)))) ∧
    (s.sbAlive port = true → exec (.sdaStuckRelease port) s = .next (portReset port 3 (s.inc (K.sbSdaStuckReleases port)))) ∧
    (s.sbAlive port = true → exec (.hangRecovery port) s = .next (sbStop port (portReset port 5 s))) ∧
    (s.sbAlive 1 = true → exec .sb1RstN s = .next ((portReset 1 4 s).modSb 1 (fun x => { x with released := true }))) ∧
    exec .sb1RstNRise s = .next (s.modSb 1 (fun x => { x with released := false })) ∧
    (∀ body op r ws, s.sbAlive port = true → s.get K.powerState = 0 → body.length < 256 → requestOf body = some (op, r, ws) →
      exec (.sbWriteTransfer port (BitVec.ofNat 8 body.length :: body ++ [pec (s.addressByte port 0 :: BitVec.ofNat 8 body.length :: body)])) s
        = .next (sbStop port (serve (sbPath port) op r ws (s.modSb port (fun x => { x with response := none }))))) ∧
    (∀ body e, s.sbAlive port = true → s.get K.powerState = 0 → e ≠ pec (s.addressByte port 0 :: BitVec.ofNat 8 body.length :: body) →
      exec (.sbWriteTransfer port (BitVec.ofNat 8 body.length :: body ++ [e])) s
        = .next (sbStop port ((s.inc (K.sbPecFailures port)).emit (.sbNack port)))) ∧
    (∀ body, s.sbAlive port = true → s.get K.powerState = 0 → (s.sbPort port).response.getD [] = body →
      exec (.sbReadTransfer port) s = .next (sbStop port ((s.emit (.sbBytes port (BitVec.ofNat 8 body.length :: body
        ++ [pec (s.addressByte port 1 :: BitVec.ofNat 8 body.length :: body)]))).modSb port (fun x => { x with response := none }))))

/-- While the Urvan link carries packets, a write of 1 to 4,096 bytes acts on the shared window where the host may reach it, and on whole submission slots
of the host's share; to anything else it changes nothing but a power request that waits. A read of 1 to 4,096 bytes is answered with its bytes in one
packet. (10_urvan_link.md R306, 10_urvan_link.md R307, 03_rings.md R74, 03_rings.md R75, 03_rings.md R76) -/
def Obligations.HostAccess : Prop :=
  ∀ (addr : Duo) (n : BitVec 13) (s : State), s.hostReaches = true → n ≠ 0 → n.toNat ≤ 4096 →
    (∀ v : BitVec 32768, addr.toNat < windowSize → s.awake.windowOk addr.toNat n.toNat = true →
      exec (.memWrite addr n v) s = .next (windowWrite addr.toNat n.toNat (v.toNat % 2 ^ (8 * n.toNat)) s.awake)) ∧
    (∀ v : BitVec 32768, addr.toNat < windowSize → s.awake.windowOk addr.toNat n.toNat = false → exec (.memWrite addr n v) s = .next s.awake) ∧
    (∀ v : BitVec 32768, subPoolBase ≤ addr.toNat → addr.toNat < subPoolBase + 40 * 262144 →
      exec (.memWrite addr n v) s = .next (poolWrite (addr.toNat - subPoolBase) n.toNat (v.toNat % 2 ^ (8 * n.toNat)) s.awake)) ∧
    (∀ tag : BitVec 13, exec (.memReadReq tag addr n) s = .next (sendPacket 0 (.memReadData tag.toNat addr.toNat n.toNat
      (BitVec.ofNat 32768 (bytesNat (s.hostRead addr.toNat n.toNat)))) s.awake))

/-- A byte that the host stores in the ordered window reads as stored at once, but for what the mailbox has as rsvd, which reads zero; the bytes of a word
stored in the general window read as stored to the host itself while they are visible to no other; no other byte changes; and the store that becomes
visible last stands, all its bytes together. (16_warden_codeflash.md R447, 03_rings.md R74, 03_rings.md R99, 03_rings.md R100) -/
def Obligations.WindowStores : Prop :=
  ∀ (off : Nat) (b : Byte) (s : State),
    (0x10000 ≤ off → (∀ l ∈ s.win.pendingStores, ∀ e ∈ l, e.1 ≠ off) → (storeByte off b s).windowByte off = b &&& orderedMask off) ∧
    (0x10040 ≤ off → orderedMask off = 0xFF) ∧ (0x10014 ≤ off → off < 0x10020 → orderedMask off = 0) ∧
    (∀ a, a ≠ off → 0x10000 ≤ a → (storeByte off b s).windowByte a = s.windowByte a) ∧
    (∀ (l : List (Nat × Byte)) (a : Nat), SMap.getD (storeWord l s).win.bytes a 0 = SMap.getD s.win.bytes a 0) ∧
    (∀ (l : List (Nat × Byte)) (a : Nat) (x : Byte), l.Pairwise (fun e f => e.1 ≠ f.1) → (a, x) ∈ l → 0x10000 ≤ a →
      (storeWord l s).windowByte a = x ∧ SMap.getD (drainStores (storeWord l s)).win.bytes a 0 = x) ∧
    (∀ (l : List (Nat × Byte)) (a : Nat), (∀ e ∈ l, e.1 ≠ a) → 0x10000 ≤ a → (storeWord l s).windowByte a = s.windowByte a)

/-- A survey of a die that is due and can be read, whose first two pages pass their header check and whose estimates agree within two steps, reads those
two pages and sets the die's offset; the survey goes on with the dies that are left. The settings that an interface took from its stored set are taken
anew from it once its temperature has moved by ReapplyStep (those of a port while it retrains); those measured afresh stay. In a serving mode, with no
save under way and one due, the save of the next segment starts; a save under way, with its last page's programs ended and a channel that takes it,
programs its next page. (11_calibration.md R324, 11_calibration.md R331, 12_bringup_modes.md R347, 12_bringup_modes.md R348) -/
def Obligations.CalibrationCommands : Prop :=
  ∀ s : State,
    (∀ (c : Fin 96) (d : Fin 16) (ones : List (List (BitVec 16))) (v : Int) (u : State), s.surveyReady c d = true → 2 ≤ (s.surveyPages c d).length →
      (nth (ones.map s.surveyEstimate) 0 0 - nth (ones.map s.surveyEstimate) 1 0).natAbs ≤ 2 → ((s.surveyPages c d).take 2).all s.surveyHeader = true →
      surveyOffset ((ones.map s.surveyEstimate).take 2) = some v →
      u = ((s.over ((s.surveyPages c d).take 2) (fun s p => surveyRead p s)).add (K.chPageReads c) 2).modCal (fun x => { x with due := x.due.erase (dieKey c d) }) →
      u.cal.due ≠ [] → exec (.thresholdSurvey c d ones true) s = .next ((u.inc K.surveyedDies).set (K.chThresholdOffset c d) (to20 v))) ∧
    (∀ (i : Fin 123) p (ps : List Int), s.get (calSourceKey i) = 2 → 16 * s.get K.reapplyStep ≤ (s.calTemp i - SMap.getD s.cal.appliedT i 0).natAbs →
      (120 ≤ i.val → (s.port (i.val - 120)).recovery = 1) → s.storedSet i = some p → SMap.getD s.cal.kept i [] ≠ [] →
      ps = (List.range (SMap.getD s.cal.applied i []).length).map (fun k => if (SMap.getD s.cal.kept i []).contains k then nth p.params k 0
        else nth (SMap.getD s.cal.applied i []) k 0) →
      exec (.reapplyStoredSet i) s = .next (if 96 ≤ i.val ∧ i.val < 120 then applyRank ((i.val - 96) / 3) ((i.val - 96) % 3) ps (SMap.getD s.cal.kept i []) s
        else calApply i ps (SMap.getD s.cal.kept i []) s)) ∧
    (∀ k, s.serving = true → s.wr.save = none → s.saveDue = true → s.nextSegment = some k →
      exec .mappingSave s = .next (issueSavePage (startSave k s))) ∧
    (∀ v, s.serving = true → s.wr.save = some v → v.left = 0 → v.page < savePages → s.saveChannels v.page ≠ [] →
      exec .mappingSave s = .next ((s.modWr (fun w => { w with save := some { v with page := v.page + 1, left := (s.saveChannels v.page).length } })).over
        (s.saveChannels v.page) (fun s c => programSavePage v c s)))

/-- While warden firmware runs, each code-flash command queues its descriptor. The operation in progress ends by the outcome that its completion gives, a
stop only where it was asked to stop. A waiting mailbox request for a chunk copies its units into the staged image, and one for an area, with no
operation in progress, copies sectors into the window, each acknowledged, the area with the words that failed their check; one that is out of range is
acknowledged with nothing done. (16_warden_codeflash.md R448, 16_warden_codeflash.md R451, 16_warden_codeflash.md R452, 16_warden_codeflash.md R461,
16_warden_codeflash.md R463, 16_warden_codeflash.md R464, 16_warden_codeflash.md R468) -/
def Obligations.CodeFlashCommands : Prop :=
  ∀ s : State,
    (s.wardenRuns = true → ∀ (cls : Fin 4) (addr : BitVec 23) (count : BitVec 12) (sram : BitVec 28) (ws : List Word) (sector : Fin 4096) (x : Word)
      (word : BitVec 11),
      exec (.codeFlashRead cls addr count sram) s = .next (cfPush 1 cls addr.toNat count.toNat sram.toNat [] .raw s) ∧
      exec (.codeFlashProgram cls addr sram ws) s = .next (cfPush 2 cls addr.toNat ws.length sram.toNat ws .raw s) ∧
      exec (.codeFlashErase cls sector x) s = .next (cfPush 3 cls (2048 * sector.val) 1 x.toNat [] .raw s) ∧
      exec (.codeFlashProtect cls sector count) s = .next (cfPush 4 cls (2048 * sector.val) count.toNat 0 [] .raw s) ∧
      exec (.otpRead cls word count) s = .next (cfPush 5 cls word.toNat count.toNat 0 [] .raw s) ∧
      exec (.otpProgram cls word x) s = .next (cfPush 6 cls word.toNat 1 0 [x] .raw s)) ∧
    (∀ d o, s.cf.cur = some d → (∀ a b, o = .stopped a b → s.cf.stopping = true) → exec (.codeFlashCompletion o) s = .next (cfEnded d o s)) ∧
    (s.mailboxWaits 1 = true → s.mailbox 0x10004 = 1 → s.mailboxIn (s.mailbox 0x1000C) (s.mailbox 0x10010) = true →
      s.mailbox 0x10008 + s.mailbox 0x10010 ≤ 640 → exec .updateChunk s
        = .next (mailboxAck (s.mailbox 0x10000) 0 (s.mailbox 0x10010) (takeChunk (s.mailbox 0x10008) (s.mailbox 0x1000C) (s.mailbox 0x10010) s))) ∧
    (s.mailboxWaits 1 = true → s.mailboxIn (s.mailbox 0x1000C) (s.mailbox 0x10010) = false ∨ 640 < s.mailbox 0x10008 + s.mailbox 0x10010 →
      exec .updateChunk s = .next (mailboxAck (s.mailbox 0x10000) 0 0 s)) ∧
    (s.mailboxWaits 2 = true → s.cf.cur = none →
      s.mailboxIn (s.mailbox 0x1000C) (s.mailbox 0x10010) = false ∨ 4096 < s.mailbox 0x10008 + s.mailbox 0x10010 →
      exec .readArea s = .next (mailboxAck (s.mailbox 0x10000) 0 0 s)) ∧
    (s.mailboxWaits 2 = true → s.cf.cur = none → s.mailbox 0x10004 = 2 → s.mailboxIn (s.mailbox 0x1000C) (s.mailbox 0x10010) = true →
      s.mailbox 0x10008 + s.mailbox 0x10010 ≤ 4096 → exec .readArea s
        = .next (let bad := badWords (s.areaWords (s.mailbox 0x10008) (s.mailbox 0x10010))
                 mailboxAck (s.mailbox 0x10000) (if bad = 0 then 0 else 1) (s.mailbox 0x10010)
                   ((putArea (s.mailbox 0x10008) (s.mailbox 0x1000C) (s.mailbox 0x10010) s).add K.checkFailsMet bad)))

/-- When a stretch by the target reaches 25 ms, the port releases SCL and SDA and resets, and StretchTimeouts counts it: while the port's own logic runs,
the bus is released, PortResets and StretchTimeouts count one each, and the cause of the reset is the stretch. (R403) -/
def Obligations.StretchTimeoutResetsThePort : Prop :=
  ∀ (port : Fin 2) (s : State), s.sbAlive port = true → ∃ t, exec (.stretchTimeout port) s = .next t ∧
    t.get (K.sbStretchTimeouts port) = s.get (K.sbStretchTimeouts port) + 1 ∧ t.get (K.sbPortResets port) = s.get (K.sbPortResets port) + 1 ∧
    t.get (K.sbLastResetCause port) = 1 ∧ t.out = s.out ++ [.busRelease port] ∧ (t.pathState (sbPath port)).test = false ∧
    t.rings = s.rings ∧ t.win = s.win

/-- A write of 1 to Clear sets Latched to 0; an occurrence after it sets Latched to 1 again; one before it is cleared with it, but its Count stands. Clear
changes neither Count nor a pending completion. (R474) -/
def Obligations.ClearOfAnEventSource : Prop :=
  ∀ (n : Fin 1536) (s : State),
    (clearEffect n s).get (K.evLatched n) = 0 ∧ (clearEffect n s).get (K.evCount n) = s.get (K.evCount n) ∧
    (clearEffect n s).get (K.evPending n) = s.get (K.evPending n) ∧ (clearEffect n s).ev = s.ev ∧
    (∀ arg, (occur n arg (clearEffect n s)).flag (K.evLatched n) = true) ∧
    (∀ arg, n.val ≠ 1172 → (clearEffect n (occur n arg s)).get (K.evLatched n) = 0 ∧
      (clearEffect n (occur n arg s)).get (K.evCount n) = s.get (K.evCount n) + 1) ∧
    (∀ (p : Path) (tag : BitVec 8), s.awake.mayWrite p (0xD000 + n.val) 7 1 = true →
      exec (.clear p tag n) s = .next (respond p 1 (oneHeader tag (0xD000 + n.val) 7 1) [] (clearEffect n s.awake)))

/-- A watchdog trip caused by a Pepper delay is counted and raises HandshakeWatchdog, but it does not move VDD_CORE. A wedge caused by a Pepper delay runs
the full clean-up of R482 and R483, as any other wedge does. (R484) -/
def Obligations.PepperTripsAndWedges : Prop :=
  ∀ (cls : Fin 8) (stage : Fin 4096) (s : State),
    (s.flag K.pepperEnable = true → ∃ t, exec (.handshakeWatchdog cls stage true) s = .next t ∧
      t.get (K.evCount (1152 + cls)) = s.get (K.evCount (1152 + cls)) + 1 ∧ t.flag (K.evLatched (1152 + cls)) = true ∧
      t.get K.vidCode = s.get K.vidCode ∧ t.get K.vidRaises = s.get K.vidRaises ∧ t.ev.vidPending = s.ev.vidPending ∧ t.rings = s.rings) ∧
    exec (.stageWedged cls stage true) s = exec (.stageWedged cls stage false) s

/-- A write to each of these command objects that is no violation is answered with its header alone, after its effect, or before it where the effect would
end the path: restoring defaults, TEST unlock and TEST lock, and the end of a TEST verification. (02_almanac.md R41, 02_almanac.md R43, 02_almanac.md
R44) -/
def Obligations.AlmanacManagementObjects : Prop :=
  ∀ (p : Path) (tag : BitVec 8) (s : State),
    (∀ (v : Word), s.awake.mayWrite p 0x1011 1 v.toNat = true → 
      exec (.restoreDefaults p tag v) s = .next (respond p 1 (oneHeader tag 0x1011 1 3) [] (restoreDefaults p s.awake))) ∧
    (s.awake.mayWrite p 0x1E00 4 1 = true → 
      exec (.testUnlock p tag) s = .next (respond p 1 (oneHeader tag 0x1E00 4 1) [] (testUnlockEffect p s.awake))) ∧
    (s.awake.mayWrite p 0x1E00 6 1 = true → 
      exec (.testLock p tag) s = .next (respond p 1 (oneHeader tag 0x1E00 6 1) [] (loseTest p s.awake))) ∧
    (s.get (pathKey p 0x1E00 5) = 1 → p ≠ .peer → p ≠ .stranger → exec (.testVerifyDone p) s = .next (
      let u := drawNonce p (s.modPath p (fun ps => { ps with nonce := [] }))
      if s.unlockVerifies p then
        occur 1232 (pathCode p) ((u.set (pathKey p 0x1E00 5) 2).modPath p (fun ps => { ps with test := true, failedAt := none }))
      else (u.set (pathKey p 0x1E00 5) 0).modPath p (fun ps => { ps with failedAt := some u.now })))

/-- A write to each of these command objects that is no violation is answered with its header alone, after its effect, or before it where the effect would
end the path: enabling rings and aborting one. (03_rings.md R111, 03_rings.md R106) -/
def Obligations.RingObjects : Prop :=
  ∀ (p : Path) (tag : BitVec 8) (s : State),
    (∀ (ring : Fin 8192) (v : Bool), s.awake.mayWrite p (0xA000 + ring.val) 1 (if v then 1 else 0) = true → 
      exec (.submissionRingEnable p tag ring v) s = .next (respond p 1 (oneHeader tag (0xA000 + ring.val) 1 1) [] (ringEnableEffect ring (if v then 1 else 0) s.awake))) ∧
    (∀ (ring : Fin 4096) (v : Bool), s.awake.mayWrite p (0xC000 + ring.val) 1 (if v then 1 else 0) = true → 
      exec (.completionRingEnable p tag ring v) s = .next (respond p 1 (oneHeader tag (0xC000 + ring.val) 1 1) [] (cringEnableEffect ring (if v then 1 else 0) s.awake))) ∧
    (∀ (ring : Fin 8192), s.awake.mayWrite p (0xA000 + ring.val) 14 1 = true → 
      exec (.abortRing p tag ring) s = .next (respond p 1 (oneHeader tag (0xA000 + ring.val) 14 1) [] (abortRingEffect ring s.awake)))

/-- A write to each of these command objects that is no violation is answered with its header alone, after its effect, or before it where the effect would
end the path: commands to channels, sets and DRAM. (07_flash_channels.md R222, 07_flash_channels.md R230, 08_media_management.md R236,
06_redundancy.md R190, 06_redundancy.md R192, 06_redundancy.md R195, 06_redundancy.md R197, 09_dram.md R259, 09_dram.md R272, 09_dram.md R280) -/
def Obligations.ChannelAndMediaObjects : Prop :=
  ∀ (p : Path) (tag : BitVec 8) (s : State),
    (∀ (c : Fin 96), s.awake.mayWrite p (0x6003 + 0x40 * c.val) 5 1 = true → 
      exec (.recalibrate p tag c) s = .next (respond p 1 (oneHeader tag (0x6003 + 0x40 * c.val) 5 1) [] (recalibrateEffect c s.awake))) ∧
    (∀ (c : Fin 96), s.awake.mayWrite p (0x6001 + 0x40 * c.val) 4 1 = true → 
      exec (.adminIsolate p tag c) s = .next (respond p 1 (oneHeader tag (0x6001 + 0x40 * c.val) 4 1) [] (adminIsolateEffect c (s.awake.set (pathKey p (0x6001 + 0x40 * c.val) 4) 1)))) ∧
    (∀ (v : Duo), s.awake.mayWrite p 0x7801 1 v.toNat = true → 
      exec (.calendsNow p tag v) s = .next (respond p 1 (oneHeader tag 0x7801 1 5) [] (updateHealth (calendsNowEffect v.toNat (s.awake.set (pathKey p 0x7801 1) v.toNat))))) ∧
    (∀ (set : Fin 8), s.awake.mayWrite p (0x5010 + set.val) 18 1 = true → 
      exec (.rebuildStart p tag set) s = .next (respond p 1 (oneHeader tag (0x5010 + set.val) 18 1) [] (rebuildStartEffect set s.awake))) ∧
    (s.awake.mayWrite p 0x5030 3 1 = true → 
      exec (.planCommit p tag) s = .next (respond p 1 (oneHeader tag 0x5030 3 1) [] (planCommitEffect s.awake))) ∧
    (s.awake.mayWrite p 0x5030 6 1 = true → 
      exec (.retireCommit p tag) s = .next (respond p 1 (oneHeader tag 0x5030 6 1) [] (retireCommitEffect s.awake))) ∧
    (∀ (v : Duo), s.awake.mayWrite p 0x5000 5 v.toNat = true → 
      exec (.lossAck p tag v) s = .next (respond p 1 (oneHeader tag 0x5000 5 5) [] (lossAckEffect v.toNat s.awake))) ∧
    (∀ (set : Fin 8) (v : Duo), s.awake.mayWrite p (0x5010 + set.val) 7 v.toNat = true → 
      exec (.logicalUnits p tag set v) s = .next (respond p 1 (oneHeader tag (0x5010 + set.val) 7 5) [] (logicalUnitsEffect set v.toNat (s.awake.set (pathKey p (0x5010 + set.val) 7) v.toNat)))) ∧
    (∀ (sub : Fin 8) (v : Fin 2), s.awake.mayWrite p (0x4010 + sub.val) 9 v.val = true → 
      exec (.retireRank p tag sub v) s = .next (respond p 1 (oneHeader tag (0x4010 + sub.val) 9 2) [] (retireRankEffect sub v.val s.awake))) ∧
    (s.awake.mayWrite p 0x4020 10 1 = true → 
      exec (.helperStart p tag) s = .next (respond p 1 (oneHeader tag 0x4020 10 1) [] (helperStartEffect s.awake)))

/-- A write to each of these command objects that is no violation is answered with its header alone, after its effect, or before it where the effect would
end the path: commands to ports, the bank and the device, whose effect follows the response where it would end the path. (10_urvan_link.md R301,
10_urvan_link.md R317, 13_power_vigil.md R369, 12_bringup_modes.md R350, 17_events_faults_test.md R487) -/
def Obligations.LinkAndPowerObjects : Prop :=
  ∀ (p : Path) (tag : BitVec 8) (s : State),
    (∀ (port : Fin 3), s.awake.mayWrite p (0x8800 + 0x40 * port.val) 8 1 = true → 
      exec (.retrain p tag port) s = .next (retrainEffect port (respond p 1 (oneHeader tag (0x8800 + 0x40 * port.val) 8 1) [] s.awake))) ∧
    (∀ (port : Fin 3), s.awake.mayWrite p (0x8800 + 0x40 * port.val) 9 1 = true → 
      exec (.fullTrain p tag port) s = .next (fullTrainEffect port (respond p 1 (oneHeader tag (0x8800 + 0x40 * port.val) 9 1) [] s.awake))) ∧
    (∀ (port : Fin 3), s.awake.mayWrite p (0x8800 + 0x40 * port.val) 10 1 = true → 
      exec (.linkResetWrite p tag port) s = .next (linkResetEffect port (respond p 1 (oneHeader tag (0x8800 + 0x40 * port.val) 10 1) [] s.awake))) ∧
    (s.awake.mayWrite p 0x2030 9 1 = true → 
      exec (.holdupTestStart p tag) s = .next (respond p 1 (oneHeader tag 0x2030 9 1) [] (holdupTestStartEffect s.awake))) ∧
    (s.awake.mayWrite p 0x2000 6 0x0C01D = true → 
      exec (.resetDevice p tag) s = .next (enterCold 6 false (respond p 1 (oneHeader tag 0x2000 6 3) [] s.awake))) ∧
    (s.awake.mayWrite p 0xE080 3 1 = true → 
      exec (.supplyLoss p tag) s = .next (supplyLossEffect (respond p 1 (oneHeader tag 0xE080 3 1) [] s.awake)))

/-- A write to each of these command objects that is no violation is answered with its header alone, after its effect, or before it where the effect would
end the path: commands to calibration and the board group. (11_calibration.md R334, 11_calibration.md R335, 15_board_group.md R424, 15_board_group.md
R426, 15_board_group.md R429, 15_board_group.md R434, 15_board_group.md R435, 15_board_group.md R436, 15_board_group.md R439, 15_board_group.md R444) -/
def Obligations.CalibrationAndGroupObjects : Prop :=
  ∀ (p : Path) (tag : BitVec 8) (s : State),
    (s.awake.mayWrite p 0x9001 4 1 = true → 
      exec (.calSelect p tag) s = .next (respond p 1 (oneHeader tag 0x9001 4 1) [] (calSelectEffect s.awake))) ∧
    (s.awake.mayWrite p 0x9001 7 1 = true → 
      exec (.calImport p tag) s = .next (respond p 1 (oneHeader tag 0x9001 7 1) [] (calImportEffect s.awake))) ∧
    (s.awake.mayWrite p 0xF000 7 0x1EA5E = true → 
      exec (.groupLeave p tag) s = .next (respond p 1 (oneHeader tag 0xF000 7 3) [] (groupLeaveEffect s.awake))) ∧
    (s.awake.mayWrite p 0xF020 3 1 = true → 
      exec (.relayGo p tag) s = .next (respond p 1 (oneHeader tag 0xF020 3 1) [] (relayGoEffect p s.awake))) ∧
    (∀ (v : Duo), s.awake.mayWrite p 0xF010 3 v.toNat = true → 
      exec (.equinoxArrive p tag v) s = .next (respond p 1 (oneHeader tag 0xF010 3 5) [] (arriveEffect (v.toNat &&& 549756862463) s.awake))) ∧
    (∀ (v : Duo), s.awake.mayWrite p 0xF010 12 v.toNat = true → 
      exec (.startAll p tag v) s = .next (respond p 1 (oneHeader tag 0xF010 12 5) [] (startAllEffect (v.toNat &&& 549756862463) s.awake))) ∧
    (s.awake.mayWrite p 0xF030 1 0x0B0D0 = true → 
      exec (.boardResetOrderly p tag) s = .next (respond p 1 (oneHeader tag 0xF030 1 3) [] (orderlyResetEffect s.awake))) ∧
    (s.awake.mayWrite p 0xF030 1 0x0B0FF = true → 
      exec (.boardResetImmediate p tag) s = .next (respond p 1 (oneHeader tag 0xF030 1 3) [] (immediateResetEffect s.awake))) ∧
    (s.awake.mayWrite p 0xF040 8 1 = true → 
      exec (.transferStart p tag) s = .next (respond p 1 (oneHeader tag 0xF040 8 1) [] (transferStartEffect s.awake))) ∧
    (s.awake.mayWrite p 0xF040 12 1 = true → 
      exec (.transferStop p tag) s = .next (respond p 1 (oneHeader tag 0xF040 12 1) [] (transferStopEffect s.awake))) ∧
    (∀ (v : Word), s.awake.mayWrite p 0xF3C2 1 v.toNat = true → 
      exec (.allDataRate p tag v) s = .next (respond p 1 (oneHeader tag 0xF3C2 1 3) [] (broadcastWrite 0xF3C2 1 v.toNat s.awake))) ∧
    (∀ (v : Word), s.awake.mayWrite p 0xF3C2 2 v.toNat = true → 
      exec (.allDriveCode p tag v) s = .next (respond p 1 (oneHeader tag 0xF3C2 2 2) [] (broadcastWrite 0xF3C2 2 v.toNat s.awake))) ∧
    (∀ (v : Word), s.awake.mayWrite p 0xF3C2 3 v.toNat = true → 
      exec (.allOdtCode p tag v) s = .next (respond p 1 (oneHeader tag 0xF3C2 3 2) [] (broadcastWrite 0xF3C2 3 v.toNat s.awake))) ∧
    (∀ (v : Word), s.awake.mayWrite p 0xF3D1 1 v.toNat = true → 
      exec (.allThrottleLimit p tag v) s = .next (respond p 1 (oneHeader tag 0xF3D1 1 4) [] (broadcastWrite 0xF3D1 1 v.toNat s.awake)))

/-- A write to each of these command objects that is no violation is answered with its header alone, after its effect, or before it where the effect would
end the path: commands to code flash, events and Pepper. A commit of an update and a burn of the customer key are answered alike, and have their
effect only while they are in range. (16_warden_codeflash.md R461, 16_warden_codeflash.md R462, 16_warden_codeflash.md R467, 16_warden_codeflash.md
R469, 16_warden_codeflash.md R471, 17_events_faults_test.md R474, 17_events_faults_test.md R485, 17_events_faults_test.md R487) -/
def Obligations.FlashAndFaultObjects : Prop :=
  ∀ (p : Path) (tag : BitVec 8) (s : State),
    (s.awake.mayWrite p 0x8000 7 0 = true → s.awake.updateOk = true → 
      exec (.updateCommit p tag) s = .next (respond p 1 (oneHeader tag 0x8000 7 1) [] (updateCommitEffect s.awake))) ∧
    (s.awake.mayWrite p 0x8000 7 0 = true → s.awake.updateOk = false → 
      exec (.updateCommit p tag) s = .next (respond p 1 (oneHeader tag 0x8000 7 1) [] (s.awake))) ∧
    (s.awake.mayWrite p 0x8000 10 1 = true → 
      exec (.protectStandby p tag) s = .next (respond p 1 (oneHeader tag 0x8000 10 1) [] (protectStandbyEffect s.awake))) ∧
    (s.awake.mayWrite p 0x8002 3 1 = true → 
      exec (.cfRead p tag) s = .next (respond p 1 (oneHeader tag 0x8002 3 1) [] (cfReadEffect s.awake))) ∧
    (s.awake.mayWrite p 0x8002 7 1 = true → 
      exec (.dumpRequest p tag) s = .next (respond p 1 (oneHeader tag 0x8002 7 1) [] (dumpRequestEffect s.awake))) ∧
    (s.awake.mayWrite p 0x8002 10 1 = true → 
      exec (.dumpRelease p tag) s = .next (respond p 1 (oneHeader tag 0x8002 10 1) [] (dumpReleaseEffect s.awake))) ∧
    (s.awake.mayWrite p 0x8003 7 0 = true → s.awake.keyBurnOk = true → 
      exec (.customerKeyBurn p tag) s = .next (respond p 1 (oneHeader tag 0x8003 7 1) [] (keyBurnEffect s.awake))) ∧
    (s.awake.mayWrite p 0x8003 7 0 = true → s.awake.keyBurnOk = false → 
      exec (.customerKeyBurn p tag) s = .next (respond p 1 (oneHeader tag 0x8003 7 1) [] (s.awake))) ∧
    (∀ (v : BitVec 8), s.awake.mayWrite p 0x8003 9 v.toNat = true → 
      exec (.raiseSecurityVersion p tag v) s = .next (respond p 1 (oneHeader tag 0x8003 9 2) [] (raiseEffect v.toNat s.awake))) ∧
    (∀ (source : Fin 1536), s.awake.mayWrite p (0xD000 + source.val) 7 1 = true → 
      exec (.clear p tag source) s = .next (respond p 1 (oneHeader tag (0xD000 + source.val) 7 1) [] (s.awake.set (K.evLatched source) 0))) ∧
    (∀ (v : Bool), s.awake.mayWrite p 0xE000 1 (if v then 1 else 0) = true → 
      exec (.pepperEnable p tag v) s = .next (respond p 1 (oneHeader tag 0xE000 1 1) [] (pepperEnableEffect v s.awake))) ∧
    (s.awake.mayWrite p 0xE000 3 1 = true → 
      exec (.pepperClearAll p tag) s = .next (respond p 1 (oneHeader tag 0xE000 3 1) [] (pepperClearAllEffect s.awake))) ∧
    (s.awake.mayWrite p 0xE050 5 1 = true → 
      exec (.forceRealign p tag) s = .next (respond p 1 (oneHeader tag 0xE050 5 1) [] (forceRealignEffect s.awake)))

/-- A read of a peak that is no violation is answered with it, and the peak starts again from the present occupancy, or from 0; a read of Sample is
answered with it and clears OvrSeen. (02_almanac.md R62, 04_write_path.md R143, 05_read_path.md R172, 14_measurement_sideband.md R393) -/
def Obligations.ReadsThatReset : Prop :=
  ∀ (p : Path) (tag : BitVec 8) (s : State),
    (∀ (c : Fin 96), s.awake.mayRead p (0x6014 + 0x40 * c.val) 3 = true →
      exec (.queryReadReset p tag c) s = .next (respond p 0 (oneHeader tag (0x6014 + 0x40 * c.val) 3 4) (valueWords .s20 (key (0x6014 + 0x40 * c.val) 3) (s.awake.get (K.chPinCurrentPeak c))) (s.awake.set (K.chPinCurrentPeak c) 0))) ∧
    (s.awake.mayRead p 0x5800 3 = true →
      exec (.hostSlotsPeakRead p tag) s = .next (respond p 0 (oneHeader tag 0x5800 3 3) (valueWords .w20 (key 0x5800 3) (s.awake.get K.hostSlotsPeak)) (s.awake.set K.hostSlotsPeak s.awake.wr.hostSlots.length))) ∧
    (s.awake.mayRead p 0x5900 11 = true →
      exec (.softQueuePeakRead p tag) s = .next (respond p 0 (oneHeader tag 0x5900 11 3) (valueWords .w20 (key 0x5900 11) (s.awake.get K.softQueuePeak)) (s.awake.set K.softQueuePeak s.awake.fl.softQ.length))) ∧
    (s.awake.mayRead p 0x5900 12 = true →
      exec (.reorderPeakRead p tag) s = .next (respond p 0 (oneHeader tag 0x5900 12 3) (valueWords .w20 (key 0x5900 12) (s.awake.get K.reorderPeak)) (s.awake.set K.reorderPeak (s.awake.fl.dlBuffers + s.awake.fl.buffers)))) ∧
    (∀ (i : Fin 48), s.awake.mayRead p (0x3100 + i.val) 1 = true →
      exec (.sampleRead p tag i) s = .next (respond p 0 (oneHeader tag (0x3100 + i.val) 1 5) (valueWords .w40 (key (0x3100 + i.val) 1) (s.awake.sampleDuo i)) (s.awake.set (K.adcSample i) (if (s.awake.get (K.adcSample i)).testBit 3 then s.awake.get (K.adcSample i) - 8 else s.awake.get (K.adcSample i)))))

/-- On a path that answers, a read is answered with the header and its words: that of EchoConstant, say, with its constant; a write and an ordered write
are carried out and answered with the header alone, as one of PlanSet sets it, an ordered write of the Urvan path after every store before it is
visible; an rsvd operation is answered with its header. On a path that does not answer nothing happens. Each cancels a power request that waits. A
packet of the link with the right byte count is a transaction; with a wrong one it is counted as malformed and discarded. (02_almanac.md R49,
02_almanac.md R55, 02_almanac.md R58, 02_almanac.md R64, 02_almanac.md R65) -/
def Obligations.AlmanacTransactions : Prop :=
  ∀ (p : Path) (r : ReqHeader) (ws : List Word) (s : State),
    (s.answers p = true → exec (.almanacRead p r) s = .next (respond p 0 r (almanacRead p r s.awake).1 (almanacRead p r s.awake).2)) ∧
    (s.answers p = true → ws.length = valueCount r → exec (.almanacWrite p r ws) s
      = .next (afterWrite r.index.toNat (almanacWrite p r ws s.awake).1 (respond p 1 r [] (almanacWrite p r ws s.awake).2))) ∧
    (s.answers p = true → ws.length = valueCount r → exec (.orderedWrite p r ws) s
      = .next (let u := if p = .urvan then drainStores s.awake else s.awake
               afterWrite r.index.toNat (almanacWrite p r ws u).1 (respond p 2 r [] (almanacWrite p r ws u).2))) ∧
    (s.answers p = true → exec (.rsvdOp p r) s = .next (respond p 3 r [] s.awake)) ∧
    (∀ tag : BitVec 8, s.awake.mayRead p 0x1002 1 = true → exec (.almanacRead p (oneHeader tag 0x1002 1 3)) s
      = .next (respond p 0 (oneHeader tag 0x1002 1 3) (valueWords .w20 K.echoConstant (s.get K.echoConstant)) s.awake)) ∧
    (∀ (tag : BitVec 8) (v : Fin 8), s.awake.mayWrite p 0x5030 1 v = true → exec (.almanacWrite p (oneHeader tag 0x5030 1 2) [BitVec.ofNat 20 v]) s
      = .next (respond p 1 (oneHeader tag 0x5030 1 2) [] (s.awake.set (pathKey p 0x5030 1) v))) ∧
    (∀ (tag : BitVec 8) (v : Fin 8), p = .urvan → (drainStores s.awake).mayWrite p 0x5030 1 v = true →
      exec (.orderedWrite p (oneHeader tag 0x5030 1 2) [BitVec.ofNat 20 v]) s
        = .next (respond p 2 (oneHeader tag 0x5030 1 2) [] ((drainStores s.awake).set (pathKey p 0x5030 1) v))) ∧
    (s.answers p = false → exec (.almanacRead p r) s = .next s ∧ exec (.almanacWrite p r ws) s = .next s ∧
      exec (.orderedWrite p r ws) s = .next s ∧ exec (.rsvdOp p r) s = .next s) ∧
    (∀ (n : BitVec 13) (d0 d1 : Duo), s.mode ≠ 0 → s.mode ≠ 5 → s.get (K.portLinkState 0) = 2 → (headerOf d0 d1).1 = 0 →
      (n.toNat = transactionBytes 4 → exec (.mgmtRequest n d0 d1 []) s = .next (serve .urvan 0 (headerOf d0 d1).2 [] s)) ∧
      (n.toNat ≠ transactionBytes 4 → exec (.mgmtRequest n d0 d1 ws) s = .next (s.inc (K.portMalformedPackets 0))))

/-- A transaction that the mode, the classes of its path, an object's access, its type or its subindices do not allow is a violation: a write changes
nothing, and a read is answered with as many zero words as it asks for and changes nothing (the words of an rsvd Type are the model's choice, log
entry 60). (02_almanac.md R63, 02_almanac.md R64) -/
def Obligations.ViolationChangesNothing : Prop :=
  ∀ (p : Path) (r : ReqHeader) (ws : List Word) (s : State),
    (s.named p true r = none → almanacWrite p r ws s = ([], s)) ∧
    (s.named p false r = none → almanacRead p r s = (List.replicate (valueCount r) 0, s)) ∧
    ((r.count = 0 ∨ 256 < r.count.toNat) → s.named p true r = none ∧ s.named p false r = none) ∧
    (p = .stranger → (s.pathState p).test = false → s.named p true r = none)

/-- In Vigil no write is admitted and the link and the peer ring answer nothing; in Cold the link and the peer ring answer nothing, and a write is
admitted to the TEST objects alone. (02_almanac.md R58, 12_bringup_modes.md R350) -/
def Obligations.RestrictedAlmanac : Prop :=
  ∀ (s : State) (p : Path) (r : ReqHeader),
    (s.mode = 5 → s.named p true r = none) ∧ (s.mode = 5 → onSideband p = false → s.answers p = false) ∧
    (s.mode = 0 → onSideband p = false → s.answers p = false) ∧ (s.mode = 0 → r.index.toNat ≠ 0x1E00 → s.named p true r = none)

/-- After TestLock, or a reset of its path, a path holds no TEST, its TestState is 0, and TestUnlocked is counted exactly if it held TEST. (02_almanac.md
R41) -/
def Obligations.TestLost : Prop :=
  ∀ (p : Path) (s : State), ((loseTest p s).pathState p).test = false ∧
    (loseTest p s).get (pathKey p 0x1E00 5) = 0 ∧
    (loseTest p s).get (K.evCount 1232) = s.get (K.evCount 1232) + (if (s.pathState p).test then 1 else 0)

end
end

