-- ==== Sys2Proof/Laws/Store.lean ====
section
/-! SUPPORT. Laws/Store.lean: reading a keyed store after a write or an erasure, and the canonical forms that the operations keep. -/

namespace Sys2Proof

variable {α : Type}

@[simp] theorem SMap.find?_nil (k : Nat) : SMap.find? ([] : SMap α) k = none := rfl

@[simp] theorem SMap.find?_insert_self (m : SMap α) (k : Nat) (v : α) : SMap.find? (SMap.insert m k v) k = some v := by
  induction m with
  | nil => simp [SMap.insert, SMap.find?]
  | cons e r ih =>
    obtain ⟨j, w⟩ := e
    simp only [SMap.insert]
    split
    · simp [SMap.find?]
    · split
      · simp [SMap.find?]
      · rename_i h2
        simp [SMap.find?, Ne.symm h2, ih]

@[simp] theorem SMap.find?_insert_ne (m : SMap α) {k i : Nat} (v : α) (h : i ≠ k) :
    SMap.find? (SMap.insert m k v) i = SMap.find? m i := by
  induction m with
  | nil => simp [SMap.insert, SMap.find?, Ne.symm h]
  | cons e r ih =>
    obtain ⟨j, w⟩ := e
    simp only [SMap.insert]
    split
    · simp [SMap.find?, Ne.symm h]
    · split
      · rename_i h2
        simp [SMap.find?, ← h2, Ne.symm h]
      · simp [SMap.find?, ih]

@[simp] theorem SMap.find?_erase_self (m : SMap α) (k : Nat) : SMap.find? (SMap.erase m k) k = none := by
  induction m with
  | nil => rfl
  | cons e r ih =>
    obtain ⟨j, w⟩ := e
    by_cases h : j = k
    · subst h; simpa [SMap.erase] using ih
    · have : SMap.erase ((j, w) :: r) k = (j, w) :: SMap.erase r k := by simp [SMap.erase, h]
      rw [this]; simp [SMap.find?, h, ih]

@[simp] theorem SMap.find?_erase_ne (m : SMap α) {k i : Nat} (h : i ≠ k) : SMap.find? (SMap.erase m k) i = SMap.find? m i := by
  induction m with
  | nil => rfl
  | cons e r ih =>
    obtain ⟨j, w⟩ := e
    by_cases hj : j = k
    · subst hj
      have : SMap.erase ((j, w) :: r) j = SMap.erase r j := by simp [SMap.erase]
      rw [this, ih]; simp [SMap.find?, Ne.symm h]
    · have : SMap.erase ((j, w) :: r) k = (j, w) :: SMap.erase r k := by simp [SMap.erase, hj]
      rw [this]; simp [SMap.find?, ih]

/-- A store read through its default after a write. -/
theorem SMap.getD_put_self [DecidableEq α] (d : α) (m : SMap α) (k : Nat) (v : α) : SMap.getD (SMap.put d m k v) k d = v := by
  unfold SMap.put SMap.getD
  split
  · rename_i h; simp [h]
  · simp

theorem SMap.getD_put_ne [DecidableEq α] (d : α) (m : SMap α) {k i : Nat} (v : α) (h : i ≠ k) :
    SMap.getD (SMap.put d m k v) i d = SMap.getD m i d := by
  unfold SMap.put SMap.getD
  split <;> simp [h]

/-! ## Canonical form -/

/-- Keys strictly rising, as a chain of the keys. -/
theorem SMap.wf_iff (m : SMap α) : SMap.wf m = true ↔ (m.map (fun e => e.1)).Pairwise (· < ·) := by
  induction m with
  | nil => simp [SMap.wf]
  | cons e r ih =>
    cases r with
    | nil => simp [SMap.wf]
    | cons e' r' =>
      obtain ⟨j, v⟩ := e
      obtain ⟨k, w⟩ := e'
      simp only [SMap.wf, Bool.and_eq_true, decide_eq_true_eq, ih, List.map_cons, List.pairwise_cons]
      constructor
      · rintro ⟨h1, h2, h3⟩
        refine ⟨?_, h2, h3⟩
        intro a ha
        rcases List.mem_cons.1 ha with rfl | ha
        · exact h1
        · exact Nat.lt_trans h1 (h2 a ha)
      · rintro ⟨h1, h2, h3⟩
        exact ⟨h1 k (by simp), h2, h3⟩

/-- Keys of a store after a write are among the old ones and the key written. -/
theorem SMap.mem_keys_insert (m : SMap α) (k : Nat) (v : α) (i : Nat) (h : i ∈ (SMap.insert m k v).map (fun e => e.1)) :
    i = k ∨ i ∈ m.map (fun e => e.1) := by
  induction m with
  | nil => simpa [SMap.insert] using h
  | cons e r ih =>
    obtain ⟨j, w⟩ := e
    simp only [SMap.insert] at h
    split at h
    · simpa using h
    · split at h
      · simp only [List.map_cons, List.mem_cons] at h ⊢
        rcases h with h | h
        · exact .inl h
        · exact .inr (.inr h)
      · simp only [List.map_cons, List.mem_cons] at h ⊢
        rcases h with h | h
        · exact .inr (.inl h)
        · rcases ih h with h | h
          · exact .inl h
          · exact .inr (.inr h)

theorem SMap.wf_insert (m : SMap α) (k : Nat) (v : α) (h : SMap.wf m = true) : SMap.wf (SMap.insert m k v) = true := by
  rw [SMap.wf_iff] at *
  induction m with
  | nil => simp [SMap.insert]
  | cons e r ih =>
    obtain ⟨j, w⟩ := e
    simp only [List.map_cons, List.pairwise_cons] at h
    simp only [SMap.insert]
    split
    · rename_i hk
      simp only [List.map_cons, List.pairwise_cons, List.mem_cons]
      refine ⟨?_, h.1, h.2⟩
      rintro a (rfl | ha)
      · exact hk
      · exact Nat.lt_trans hk (h.1 a ha)
    · split
      · rename_i h1 h2
        subst h2
        simp only [List.map_cons, List.pairwise_cons]
        exact h
      · rename_i h1 h2
        simp only [List.map_cons, List.pairwise_cons]
        refine ⟨?_, ih h.2⟩
        intro a ha
        rcases SMap.mem_keys_insert r k v a ha with rfl | ha
        · omega
        · exact h.1 a ha

theorem SMap.wf_erase (m : SMap α) (k : Nat) (h : SMap.wf m = true) : SMap.wf (SMap.erase m k) = true := by
  rw [SMap.wf_iff] at *
  exact h.sublist (List.Sublist.map _ List.filter_sublist)

/-- Entries after a write: the new one and old ones. -/
theorem SMap.mem_insert (m : SMap α) (k : Nat) (v : α) (e : Nat × α) (h : e ∈ SMap.insert m k v) : e = (k, v) ∨ e ∈ m := by
  induction m with
  | nil => simpa [SMap.insert] using h
  | cons e' r ih =>
    obtain ⟨j, w⟩ := e'
    simp only [SMap.insert] at h
    split at h
    · simpa using h
    · split at h
      · rcases List.mem_cons.1 h with h | h
        · exact .inl h
        · exact .inr (List.mem_cons_of_mem _ h)
      · rcases List.mem_cons.1 h with h | h
        · exact .inr (h ▸ List.mem_cons_self)
        · rcases ih h with h | h
          · exact .inl h
          · exact .inr (List.mem_cons_of_mem _ h)

/-- A write to a store whose unlisted keys read as `d` keeps its canonical form. -/
theorem SMap.canonical_put [DecidableEq α] (d : α) (m : SMap α) (k : Nat) (v : α) (h : SMap.canonical d m = true) :
    SMap.canonical d (SMap.put d m k v) = true := by
  simp only [SMap.canonical, Bool.and_eq_true, List.all_eq_true, decide_eq_true_eq] at *
  unfold SMap.put
  split
  · exact ⟨SMap.wf_erase m k h.1, fun e he => h.2 e ((List.mem_filter.1 he).1)⟩
  · rename_i hv
    refine ⟨SMap.wf_insert m k v h.1, fun e he => ?_⟩
    rcases SMap.mem_insert m k v e he with rfl | he
    · exact hv
    · exact h.2 e he

end Sys2Proof
end

