-- ==== Sys2Proof/Laws/State.lean ====
section
/-! SUPPORT. Laws/State.lean: what each update of the state leaves in each field, and what an object reads as after an update. -/

namespace Sys2Proof.Machine

/-! ### set -/

@[simp] theorem State.set_objs (s : State) (k v : Nat) : (s.set k v).objs = SMap.insert s.objs k v := rfl
@[simp] theorem State.set_blobs (s : State) (k v : Nat) : (s.set k v).blobs = s.blobs := rfl
@[simp] theorem State.set_pending (s : State) (k v : Nat) : (s.set k v).pending = s.pending := rfl
@[simp] theorem State.set_out (s : State) (k v : Nat) : (s.set k v).out = s.out := rfl
@[simp] theorem State.set_now (s : State) (k v : Nat) : (s.set k v).now = s.now := rfl
@[simp] theorem State.set_coldAt (s : State) (k v : Nat) : (s.set k v).coldAt = s.coldAt := rfl
@[simp] theorem State.set_freeIdx (s : State) (k v : Nat) : (s.set k v).freeIdx = s.freeIdx := rfl
@[simp] theorem State.set_paths (s : State) (k v : Nat) : (s.set k v).paths = s.paths := rfl
@[simp] theorem State.set_ports (s : State) (k v : Nat) : (s.set k v).ports = s.ports := rfl
@[simp] theorem State.set_cf (s : State) (k v : Nat) : (s.set k v).cf = s.cf := rfl
@[simp] theorem State.set_rings (s : State) (k v : Nat) : (s.set k v).rings = s.rings := rfl
@[simp] theorem State.set_win (s : State) (k v : Nat) : (s.set k v).win = s.win := rfl
@[simp] theorem State.set_ev (s : State) (k v : Nat) : (s.set k v).ev = s.ev := rfl
@[simp] theorem State.set_wr (s : State) (k v : Nat) : (s.set k v).wr = s.wr := rfl
@[simp] theorem State.set_fl (s : State) (k v : Nat) : (s.set k v).fl = s.fl := rfl
@[simp] theorem State.set_dram (s : State) (k v : Nat) : (s.set k v).dram = s.dram := rfl
@[simp] theorem State.set_cal (s : State) (k v : Nat) : (s.set k v).cal = s.cal := rfl
@[simp] theorem State.set_pw (s : State) (k v : Nat) : (s.set k v).pw = s.pw := rfl
@[simp] theorem State.set_mon (s : State) (k v : Nat) : (s.set k v).mon = s.mon := rfl
@[simp] theorem State.set_sb (s : State) (k v : Nat) : (s.set k v).sb = s.sb := rfl
@[simp] theorem State.set_grp (s : State) (k v : Nat) : (s.set k v).grp = s.grp := rfl
@[simp] theorem State.set_nv (s : State) (k v : Nat) : (s.set k v).nv = s.nv := rfl
@[simp] theorem State.set_blob (s : State) (k v : Nat) (j : Nat) : (s.set k v).blob j = s.blob j := rfl

/-! ### setBlob -/

@[simp] theorem State.setBlob_objs (s : State) (k : Nat) (ws : List Word) : (s.setBlob k ws).objs = s.objs := rfl
@[simp] theorem State.setBlob_blobs (s : State) (k : Nat) (ws : List Word) : (s.setBlob k ws).blobs = SMap.insert s.blobs k ws := rfl
@[simp] theorem State.setBlob_pending (s : State) (k : Nat) (ws : List Word) : (s.setBlob k ws).pending = s.pending := rfl
@[simp] theorem State.setBlob_out (s : State) (k : Nat) (ws : List Word) : (s.setBlob k ws).out = s.out := rfl
@[simp] theorem State.setBlob_now (s : State) (k : Nat) (ws : List Word) : (s.setBlob k ws).now = s.now := rfl
@[simp] theorem State.setBlob_coldAt (s : State) (k : Nat) (ws : List Word) : (s.setBlob k ws).coldAt = s.coldAt := rfl
@[simp] theorem State.setBlob_freeIdx (s : State) (k : Nat) (ws : List Word) : (s.setBlob k ws).freeIdx = s.freeIdx := rfl
@[simp] theorem State.setBlob_paths (s : State) (k : Nat) (ws : List Word) : (s.setBlob k ws).paths = s.paths := rfl
@[simp] theorem State.setBlob_ports (s : State) (k : Nat) (ws : List Word) : (s.setBlob k ws).ports = s.ports := rfl
@[simp] theorem State.setBlob_cf (s : State) (k : Nat) (ws : List Word) : (s.setBlob k ws).cf = s.cf := rfl
@[simp] theorem State.setBlob_rings (s : State) (k : Nat) (ws : List Word) : (s.setBlob k ws).rings = s.rings := rfl
@[simp] theorem State.setBlob_win (s : State) (k : Nat) (ws : List Word) : (s.setBlob k ws).win = s.win := rfl
@[simp] theorem State.setBlob_ev (s : State) (k : Nat) (ws : List Word) : (s.setBlob k ws).ev = s.ev := rfl
@[simp] theorem State.setBlob_wr (s : State) (k : Nat) (ws : List Word) : (s.setBlob k ws).wr = s.wr := rfl
@[simp] theorem State.setBlob_fl (s : State) (k : Nat) (ws : List Word) : (s.setBlob k ws).fl = s.fl := rfl
@[simp] theorem State.setBlob_dram (s : State) (k : Nat) (ws : List Word) : (s.setBlob k ws).dram = s.dram := rfl
@[simp] theorem State.setBlob_cal (s : State) (k : Nat) (ws : List Word) : (s.setBlob k ws).cal = s.cal := rfl
@[simp] theorem State.setBlob_pw (s : State) (k : Nat) (ws : List Word) : (s.setBlob k ws).pw = s.pw := rfl
@[simp] theorem State.setBlob_mon (s : State) (k : Nat) (ws : List Word) : (s.setBlob k ws).mon = s.mon := rfl
@[simp] theorem State.setBlob_sb (s : State) (k : Nat) (ws : List Word) : (s.setBlob k ws).sb = s.sb := rfl
@[simp] theorem State.setBlob_grp (s : State) (k : Nat) (ws : List Word) : (s.setBlob k ws).grp = s.grp := rfl
@[simp] theorem State.setBlob_nv (s : State) (k : Nat) (ws : List Word) : (s.setBlob k ws).nv = s.nv := rfl
@[simp] theorem State.setBlob_get (s : State) (k : Nat) (ws : List Word) (j : Nat) : (s.setBlob k ws).get j = s.get j := rfl

/-! ### emit -/

@[simp] theorem State.emit_objs (s : State) (o : Out) : (s.emit o).objs = s.objs := rfl
@[simp] theorem State.emit_blobs (s : State) (o : Out) : (s.emit o).blobs = s.blobs := rfl
@[simp] theorem State.emit_pending (s : State) (o : Out) : (s.emit o).pending = s.pending := rfl
@[simp] theorem State.emit_out (s : State) (o : Out) : (s.emit o).out = s.out ++ [o] := rfl
@[simp] theorem State.emit_now (s : State) (o : Out) : (s.emit o).now = s.now := rfl
@[simp] theorem State.emit_coldAt (s : State) (o : Out) : (s.emit o).coldAt = s.coldAt := rfl
@[simp] theorem State.emit_freeIdx (s : State) (o : Out) : (s.emit o).freeIdx = s.freeIdx := rfl
@[simp] theorem State.emit_paths (s : State) (o : Out) : (s.emit o).paths = s.paths := rfl
@[simp] theorem State.emit_ports (s : State) (o : Out) : (s.emit o).ports = s.ports := rfl
@[simp] theorem State.emit_cf (s : State) (o : Out) : (s.emit o).cf = s.cf := rfl
@[simp] theorem State.emit_rings (s : State) (o : Out) : (s.emit o).rings = s.rings := rfl
@[simp] theorem State.emit_win (s : State) (o : Out) : (s.emit o).win = s.win := rfl
@[simp] theorem State.emit_ev (s : State) (o : Out) : (s.emit o).ev = s.ev := rfl
@[simp] theorem State.emit_wr (s : State) (o : Out) : (s.emit o).wr = s.wr := rfl
@[simp] theorem State.emit_fl (s : State) (o : Out) : (s.emit o).fl = s.fl := rfl
@[simp] theorem State.emit_dram (s : State) (o : Out) : (s.emit o).dram = s.dram := rfl
@[simp] theorem State.emit_cal (s : State) (o : Out) : (s.emit o).cal = s.cal := rfl
@[simp] theorem State.emit_pw (s : State) (o : Out) : (s.emit o).pw = s.pw := rfl
@[simp] theorem State.emit_mon (s : State) (o : Out) : (s.emit o).mon = s.mon := rfl
@[simp] theorem State.emit_sb (s : State) (o : Out) : (s.emit o).sb = s.sb := rfl
@[simp] theorem State.emit_grp (s : State) (o : Out) : (s.emit o).grp = s.grp := rfl
@[simp] theorem State.emit_nv (s : State) (o : Out) : (s.emit o).nv = s.nv := rfl
@[simp] theorem State.emit_get (s : State) (o : Out) (j : Nat) : (s.emit o).get j = s.get j := rfl
@[simp] theorem State.emit_blob (s : State) (o : Out) (j : Nat) : (s.emit o).blob j = s.blob j := rfl

/-! ### modPort -/

@[simp] theorem State.modPort_objs (s : State) (p : Nat) (f : Port → Port) : (s.modPort p f).objs = s.objs := rfl
@[simp] theorem State.modPort_blobs (s : State) (p : Nat) (f : Port → Port) : (s.modPort p f).blobs = s.blobs := rfl
@[simp] theorem State.modPort_pending (s : State) (p : Nat) (f : Port → Port) : (s.modPort p f).pending = s.pending := rfl
@[simp] theorem State.modPort_out (s : State) (p : Nat) (f : Port → Port) : (s.modPort p f).out = s.out := rfl
@[simp] theorem State.modPort_now (s : State) (p : Nat) (f : Port → Port) : (s.modPort p f).now = s.now := rfl
@[simp] theorem State.modPort_coldAt (s : State) (p : Nat) (f : Port → Port) : (s.modPort p f).coldAt = s.coldAt := rfl
@[simp] theorem State.modPort_freeIdx (s : State) (p : Nat) (f : Port → Port) : (s.modPort p f).freeIdx = s.freeIdx := rfl
@[simp] theorem State.modPort_paths (s : State) (p : Nat) (f : Port → Port) : (s.modPort p f).paths = s.paths := rfl
@[simp] theorem State.modPort_ports (s : State) (p : Nat) (f : Port → Port) : (s.modPort p f).ports = SMap.insert s.ports p (f (s.port p)) := rfl
@[simp] theorem State.modPort_cf (s : State) (p : Nat) (f : Port → Port) : (s.modPort p f).cf = s.cf := rfl
@[simp] theorem State.modPort_rings (s : State) (p : Nat) (f : Port → Port) : (s.modPort p f).rings = s.rings := rfl
@[simp] theorem State.modPort_win (s : State) (p : Nat) (f : Port → Port) : (s.modPort p f).win = s.win := rfl
@[simp] theorem State.modPort_ev (s : State) (p : Nat) (f : Port → Port) : (s.modPort p f).ev = s.ev := rfl
@[simp] theorem State.modPort_wr (s : State) (p : Nat) (f : Port → Port) : (s.modPort p f).wr = s.wr := rfl
@[simp] theorem State.modPort_fl (s : State) (p : Nat) (f : Port → Port) : (s.modPort p f).fl = s.fl := rfl
@[simp] theorem State.modPort_dram (s : State) (p : Nat) (f : Port → Port) : (s.modPort p f).dram = s.dram := rfl
@[simp] theorem State.modPort_cal (s : State) (p : Nat) (f : Port → Port) : (s.modPort p f).cal = s.cal := rfl
@[simp] theorem State.modPort_pw (s : State) (p : Nat) (f : Port → Port) : (s.modPort p f).pw = s.pw := rfl
@[simp] theorem State.modPort_mon (s : State) (p : Nat) (f : Port → Port) : (s.modPort p f).mon = s.mon := rfl
@[simp] theorem State.modPort_sb (s : State) (p : Nat) (f : Port → Port) : (s.modPort p f).sb = s.sb := rfl
@[simp] theorem State.modPort_grp (s : State) (p : Nat) (f : Port → Port) : (s.modPort p f).grp = s.grp := rfl
@[simp] theorem State.modPort_nv (s : State) (p : Nat) (f : Port → Port) : (s.modPort p f).nv = s.nv := rfl
@[simp] theorem State.modPort_get (s : State) (p : Nat) (f : Port → Port) (j : Nat) : (s.modPort p f).get j = s.get j := rfl
@[simp] theorem State.modPort_blob (s : State) (p : Nat) (f : Port → Port) (j : Nat) : (s.modPort p f).blob j = s.blob j := rfl

/-! ### modPath -/

@[simp] theorem State.modPath_objs (s : State) (p : Path) (f : PathState → PathState) : (s.modPath p f).objs = s.objs := rfl
@[simp] theorem State.modPath_blobs (s : State) (p : Path) (f : PathState → PathState) : (s.modPath p f).blobs = s.blobs := rfl
@[simp] theorem State.modPath_pending (s : State) (p : Path) (f : PathState → PathState) : (s.modPath p f).pending = s.pending := rfl
@[simp] theorem State.modPath_out (s : State) (p : Path) (f : PathState → PathState) : (s.modPath p f).out = s.out := rfl
@[simp] theorem State.modPath_now (s : State) (p : Path) (f : PathState → PathState) : (s.modPath p f).now = s.now := rfl
@[simp] theorem State.modPath_coldAt (s : State) (p : Path) (f : PathState → PathState) : (s.modPath p f).coldAt = s.coldAt := rfl
@[simp] theorem State.modPath_freeIdx (s : State) (p : Path) (f : PathState → PathState) : (s.modPath p f).freeIdx = s.freeIdx := rfl
@[simp] theorem State.modPath_paths (s : State) (p : Path) (f : PathState → PathState) : (s.modPath p f).paths = SMap.insert s.paths (pathCode p) (f (s.pathState p)) := rfl
@[simp] theorem State.modPath_ports (s : State) (p : Path) (f : PathState → PathState) : (s.modPath p f).ports = s.ports := rfl
@[simp] theorem State.modPath_cf (s : State) (p : Path) (f : PathState → PathState) : (s.modPath p f).cf = s.cf := rfl
@[simp] theorem State.modPath_rings (s : State) (p : Path) (f : PathState → PathState) : (s.modPath p f).rings = s.rings := rfl
@[simp] theorem State.modPath_win (s : State) (p : Path) (f : PathState → PathState) : (s.modPath p f).win = s.win := rfl
@[simp] theorem State.modPath_ev (s : State) (p : Path) (f : PathState → PathState) : (s.modPath p f).ev = s.ev := rfl
@[simp] theorem State.modPath_wr (s : State) (p : Path) (f : PathState → PathState) : (s.modPath p f).wr = s.wr := rfl
@[simp] theorem State.modPath_fl (s : State) (p : Path) (f : PathState → PathState) : (s.modPath p f).fl = s.fl := rfl
@[simp] theorem State.modPath_dram (s : State) (p : Path) (f : PathState → PathState) : (s.modPath p f).dram = s.dram := rfl
@[simp] theorem State.modPath_cal (s : State) (p : Path) (f : PathState → PathState) : (s.modPath p f).cal = s.cal := rfl
@[simp] theorem State.modPath_pw (s : State) (p : Path) (f : PathState → PathState) : (s.modPath p f).pw = s.pw := rfl
@[simp] theorem State.modPath_mon (s : State) (p : Path) (f : PathState → PathState) : (s.modPath p f).mon = s.mon := rfl
@[simp] theorem State.modPath_sb (s : State) (p : Path) (f : PathState → PathState) : (s.modPath p f).sb = s.sb := rfl
@[simp] theorem State.modPath_grp (s : State) (p : Path) (f : PathState → PathState) : (s.modPath p f).grp = s.grp := rfl
@[simp] theorem State.modPath_nv (s : State) (p : Path) (f : PathState → PathState) : (s.modPath p f).nv = s.nv := rfl
@[simp] theorem State.modPath_get (s : State) (p : Path) (f : PathState → PathState) (j : Nat) : (s.modPath p f).get j = s.get j := rfl
@[simp] theorem State.modPath_blob (s : State) (p : Path) (f : PathState → PathState) (j : Nat) : (s.modPath p f).blob j = s.blob j := rfl

/-! ### modSb -/

@[simp] theorem State.modSb_objs (s : State) (p : Nat) (f : SbPort → SbPort) : (s.modSb p f).objs = s.objs := rfl
@[simp] theorem State.modSb_blobs (s : State) (p : Nat) (f : SbPort → SbPort) : (s.modSb p f).blobs = s.blobs := rfl
@[simp] theorem State.modSb_pending (s : State) (p : Nat) (f : SbPort → SbPort) : (s.modSb p f).pending = s.pending := rfl
@[simp] theorem State.modSb_out (s : State) (p : Nat) (f : SbPort → SbPort) : (s.modSb p f).out = s.out := rfl
@[simp] theorem State.modSb_now (s : State) (p : Nat) (f : SbPort → SbPort) : (s.modSb p f).now = s.now := rfl
@[simp] theorem State.modSb_coldAt (s : State) (p : Nat) (f : SbPort → SbPort) : (s.modSb p f).coldAt = s.coldAt := rfl
@[simp] theorem State.modSb_freeIdx (s : State) (p : Nat) (f : SbPort → SbPort) : (s.modSb p f).freeIdx = s.freeIdx := rfl
@[simp] theorem State.modSb_paths (s : State) (p : Nat) (f : SbPort → SbPort) : (s.modSb p f).paths = s.paths := rfl
@[simp] theorem State.modSb_ports (s : State) (p : Nat) (f : SbPort → SbPort) : (s.modSb p f).ports = s.ports := rfl
@[simp] theorem State.modSb_cf (s : State) (p : Nat) (f : SbPort → SbPort) : (s.modSb p f).cf = s.cf := rfl
@[simp] theorem State.modSb_rings (s : State) (p : Nat) (f : SbPort → SbPort) : (s.modSb p f).rings = s.rings := rfl
@[simp] theorem State.modSb_win (s : State) (p : Nat) (f : SbPort → SbPort) : (s.modSb p f).win = s.win := rfl
@[simp] theorem State.modSb_ev (s : State) (p : Nat) (f : SbPort → SbPort) : (s.modSb p f).ev = s.ev := rfl
@[simp] theorem State.modSb_wr (s : State) (p : Nat) (f : SbPort → SbPort) : (s.modSb p f).wr = s.wr := rfl
@[simp] theorem State.modSb_fl (s : State) (p : Nat) (f : SbPort → SbPort) : (s.modSb p f).fl = s.fl := rfl
@[simp] theorem State.modSb_dram (s : State) (p : Nat) (f : SbPort → SbPort) : (s.modSb p f).dram = s.dram := rfl
@[simp] theorem State.modSb_cal (s : State) (p : Nat) (f : SbPort → SbPort) : (s.modSb p f).cal = s.cal := rfl
@[simp] theorem State.modSb_pw (s : State) (p : Nat) (f : SbPort → SbPort) : (s.modSb p f).pw = s.pw := rfl
@[simp] theorem State.modSb_mon (s : State) (p : Nat) (f : SbPort → SbPort) : (s.modSb p f).mon = s.mon := rfl
@[simp] theorem State.modSb_sb (s : State) (p : Nat) (f : SbPort → SbPort) : (s.modSb p f).sb = SMap.modify s.sb p {} f := rfl
@[simp] theorem State.modSb_grp (s : State) (p : Nat) (f : SbPort → SbPort) : (s.modSb p f).grp = s.grp := rfl
@[simp] theorem State.modSb_nv (s : State) (p : Nat) (f : SbPort → SbPort) : (s.modSb p f).nv = s.nv := rfl
@[simp] theorem State.modSb_get (s : State) (p : Nat) (f : SbPort → SbPort) (j : Nat) : (s.modSb p f).get j = s.get j := rfl
@[simp] theorem State.modSb_blob (s : State) (p : Nat) (f : SbPort → SbPort) (j : Nat) : (s.modSb p f).blob j = s.blob j := rfl

/-! ### modWr -/

@[simp] theorem State.modWr_objs (s : State) (f : WritePath → WritePath) : (s.modWr f).objs = s.objs := rfl
@[simp] theorem State.modWr_blobs (s : State) (f : WritePath → WritePath) : (s.modWr f).blobs = s.blobs := rfl
@[simp] theorem State.modWr_pending (s : State) (f : WritePath → WritePath) : (s.modWr f).pending = s.pending := rfl
@[simp] theorem State.modWr_out (s : State) (f : WritePath → WritePath) : (s.modWr f).out = s.out := rfl
@[simp] theorem State.modWr_now (s : State) (f : WritePath → WritePath) : (s.modWr f).now = s.now := rfl
@[simp] theorem State.modWr_coldAt (s : State) (f : WritePath → WritePath) : (s.modWr f).coldAt = s.coldAt := rfl
@[simp] theorem State.modWr_freeIdx (s : State) (f : WritePath → WritePath) : (s.modWr f).freeIdx = s.freeIdx := rfl
@[simp] theorem State.modWr_paths (s : State) (f : WritePath → WritePath) : (s.modWr f).paths = s.paths := rfl
@[simp] theorem State.modWr_ports (s : State) (f : WritePath → WritePath) : (s.modWr f).ports = s.ports := rfl
@[simp] theorem State.modWr_cf (s : State) (f : WritePath → WritePath) : (s.modWr f).cf = s.cf := rfl
@[simp] theorem State.modWr_rings (s : State) (f : WritePath → WritePath) : (s.modWr f).rings = s.rings := rfl
@[simp] theorem State.modWr_win (s : State) (f : WritePath → WritePath) : (s.modWr f).win = s.win := rfl
@[simp] theorem State.modWr_ev (s : State) (f : WritePath → WritePath) : (s.modWr f).ev = s.ev := rfl
@[simp] theorem State.modWr_wr (s : State) (f : WritePath → WritePath) : (s.modWr f).wr = f s.wr := rfl
@[simp] theorem State.modWr_fl (s : State) (f : WritePath → WritePath) : (s.modWr f).fl = s.fl := rfl
@[simp] theorem State.modWr_dram (s : State) (f : WritePath → WritePath) : (s.modWr f).dram = s.dram := rfl
@[simp] theorem State.modWr_cal (s : State) (f : WritePath → WritePath) : (s.modWr f).cal = s.cal := rfl
@[simp] theorem State.modWr_pw (s : State) (f : WritePath → WritePath) : (s.modWr f).pw = s.pw := rfl
@[simp] theorem State.modWr_mon (s : State) (f : WritePath → WritePath) : (s.modWr f).mon = s.mon := rfl
@[simp] theorem State.modWr_sb (s : State) (f : WritePath → WritePath) : (s.modWr f).sb = s.sb := rfl
@[simp] theorem State.modWr_grp (s : State) (f : WritePath → WritePath) : (s.modWr f).grp = s.grp := rfl
@[simp] theorem State.modWr_nv (s : State) (f : WritePath → WritePath) : (s.modWr f).nv = s.nv := rfl
@[simp] theorem State.modWr_get (s : State) (f : WritePath → WritePath) (j : Nat) : (s.modWr f).get j = s.get j := rfl
@[simp] theorem State.modWr_blob (s : State) (f : WritePath → WritePath) (j : Nat) : (s.modWr f).blob j = s.blob j := rfl

/-! ### modFl -/

@[simp] theorem State.modFl_objs (s : State) (f : Flash → Flash) : (s.modFl f).objs = s.objs := rfl
@[simp] theorem State.modFl_blobs (s : State) (f : Flash → Flash) : (s.modFl f).blobs = s.blobs := rfl
@[simp] theorem State.modFl_pending (s : State) (f : Flash → Flash) : (s.modFl f).pending = s.pending := rfl
@[simp] theorem State.modFl_out (s : State) (f : Flash → Flash) : (s.modFl f).out = s.out := rfl
@[simp] theorem State.modFl_now (s : State) (f : Flash → Flash) : (s.modFl f).now = s.now := rfl
@[simp] theorem State.modFl_coldAt (s : State) (f : Flash → Flash) : (s.modFl f).coldAt = s.coldAt := rfl
@[simp] theorem State.modFl_freeIdx (s : State) (f : Flash → Flash) : (s.modFl f).freeIdx = s.freeIdx := rfl
@[simp] theorem State.modFl_paths (s : State) (f : Flash → Flash) : (s.modFl f).paths = s.paths := rfl
@[simp] theorem State.modFl_ports (s : State) (f : Flash → Flash) : (s.modFl f).ports = s.ports := rfl
@[simp] theorem State.modFl_cf (s : State) (f : Flash → Flash) : (s.modFl f).cf = s.cf := rfl
@[simp] theorem State.modFl_rings (s : State) (f : Flash → Flash) : (s.modFl f).rings = s.rings := rfl
@[simp] theorem State.modFl_win (s : State) (f : Flash → Flash) : (s.modFl f).win = s.win := rfl
@[simp] theorem State.modFl_ev (s : State) (f : Flash → Flash) : (s.modFl f).ev = s.ev := rfl
@[simp] theorem State.modFl_wr (s : State) (f : Flash → Flash) : (s.modFl f).wr = s.wr := rfl
@[simp] theorem State.modFl_fl (s : State) (f : Flash → Flash) : (s.modFl f).fl = f s.fl := rfl
@[simp] theorem State.modFl_dram (s : State) (f : Flash → Flash) : (s.modFl f).dram = s.dram := rfl
@[simp] theorem State.modFl_cal (s : State) (f : Flash → Flash) : (s.modFl f).cal = s.cal := rfl
@[simp] theorem State.modFl_pw (s : State) (f : Flash → Flash) : (s.modFl f).pw = s.pw := rfl
@[simp] theorem State.modFl_mon (s : State) (f : Flash → Flash) : (s.modFl f).mon = s.mon := rfl
@[simp] theorem State.modFl_sb (s : State) (f : Flash → Flash) : (s.modFl f).sb = s.sb := rfl
@[simp] theorem State.modFl_grp (s : State) (f : Flash → Flash) : (s.modFl f).grp = s.grp := rfl
@[simp] theorem State.modFl_nv (s : State) (f : Flash → Flash) : (s.modFl f).nv = s.nv := rfl
@[simp] theorem State.modFl_get (s : State) (f : Flash → Flash) (j : Nat) : (s.modFl f).get j = s.get j := rfl
@[simp] theorem State.modFl_blob (s : State) (f : Flash → Flash) (j : Nat) : (s.modFl f).blob j = s.blob j := rfl

/-! ### modRings -/

@[simp] theorem State.modRings_objs (s : State) (f : Rings → Rings) : (s.modRings f).objs = s.objs := rfl
@[simp] theorem State.modRings_blobs (s : State) (f : Rings → Rings) : (s.modRings f).blobs = s.blobs := rfl
@[simp] theorem State.modRings_pending (s : State) (f : Rings → Rings) : (s.modRings f).pending = s.pending := rfl
@[simp] theorem State.modRings_out (s : State) (f : Rings → Rings) : (s.modRings f).out = s.out := rfl
@[simp] theorem State.modRings_now (s : State) (f : Rings → Rings) : (s.modRings f).now = s.now := rfl
@[simp] theorem State.modRings_coldAt (s : State) (f : Rings → Rings) : (s.modRings f).coldAt = s.coldAt := rfl
@[simp] theorem State.modRings_freeIdx (s : State) (f : Rings → Rings) : (s.modRings f).freeIdx = s.freeIdx := rfl
@[simp] theorem State.modRings_paths (s : State) (f : Rings → Rings) : (s.modRings f).paths = s.paths := rfl
@[simp] theorem State.modRings_ports (s : State) (f : Rings → Rings) : (s.modRings f).ports = s.ports := rfl
@[simp] theorem State.modRings_cf (s : State) (f : Rings → Rings) : (s.modRings f).cf = s.cf := rfl
@[simp] theorem State.modRings_rings (s : State) (f : Rings → Rings) : (s.modRings f).rings = f s.rings := rfl
@[simp] theorem State.modRings_win (s : State) (f : Rings → Rings) : (s.modRings f).win = s.win := rfl
@[simp] theorem State.modRings_ev (s : State) (f : Rings → Rings) : (s.modRings f).ev = s.ev := rfl
@[simp] theorem State.modRings_wr (s : State) (f : Rings → Rings) : (s.modRings f).wr = s.wr := rfl
@[simp] theorem State.modRings_fl (s : State) (f : Rings → Rings) : (s.modRings f).fl = s.fl := rfl
@[simp] theorem State.modRings_dram (s : State) (f : Rings → Rings) : (s.modRings f).dram = s.dram := rfl
@[simp] theorem State.modRings_cal (s : State) (f : Rings → Rings) : (s.modRings f).cal = s.cal := rfl
@[simp] theorem State.modRings_pw (s : State) (f : Rings → Rings) : (s.modRings f).pw = s.pw := rfl
@[simp] theorem State.modRings_mon (s : State) (f : Rings → Rings) : (s.modRings f).mon = s.mon := rfl
@[simp] theorem State.modRings_sb (s : State) (f : Rings → Rings) : (s.modRings f).sb = s.sb := rfl
@[simp] theorem State.modRings_grp (s : State) (f : Rings → Rings) : (s.modRings f).grp = s.grp := rfl
@[simp] theorem State.modRings_nv (s : State) (f : Rings → Rings) : (s.modRings f).nv = s.nv := rfl
@[simp] theorem State.modRings_get (s : State) (f : Rings → Rings) (j : Nat) : (s.modRings f).get j = s.get j := rfl
@[simp] theorem State.modRings_blob (s : State) (f : Rings → Rings) (j : Nat) : (s.modRings f).blob j = s.blob j := rfl

/-! ### modCf -/

@[simp] theorem State.modCf_objs (s : State) (f : CodeFlash → CodeFlash) : (s.modCf f).objs = s.objs := rfl
@[simp] theorem State.modCf_blobs (s : State) (f : CodeFlash → CodeFlash) : (s.modCf f).blobs = s.blobs := rfl
@[simp] theorem State.modCf_pending (s : State) (f : CodeFlash → CodeFlash) : (s.modCf f).pending = s.pending := rfl
@[simp] theorem State.modCf_out (s : State) (f : CodeFlash → CodeFlash) : (s.modCf f).out = s.out := rfl
@[simp] theorem State.modCf_now (s : State) (f : CodeFlash → CodeFlash) : (s.modCf f).now = s.now := rfl
@[simp] theorem State.modCf_coldAt (s : State) (f : CodeFlash → CodeFlash) : (s.modCf f).coldAt = s.coldAt := rfl
@[simp] theorem State.modCf_freeIdx (s : State) (f : CodeFlash → CodeFlash) : (s.modCf f).freeIdx = s.freeIdx := rfl
@[simp] theorem State.modCf_paths (s : State) (f : CodeFlash → CodeFlash) : (s.modCf f).paths = s.paths := rfl
@[simp] theorem State.modCf_ports (s : State) (f : CodeFlash → CodeFlash) : (s.modCf f).ports = s.ports := rfl
@[simp] theorem State.modCf_cf (s : State) (f : CodeFlash → CodeFlash) : (s.modCf f).cf = f s.cf := rfl
@[simp] theorem State.modCf_rings (s : State) (f : CodeFlash → CodeFlash) : (s.modCf f).rings = s.rings := rfl
@[simp] theorem State.modCf_win (s : State) (f : CodeFlash → CodeFlash) : (s.modCf f).win = s.win := rfl
@[simp] theorem State.modCf_ev (s : State) (f : CodeFlash → CodeFlash) : (s.modCf f).ev = s.ev := rfl
@[simp] theorem State.modCf_wr (s : State) (f : CodeFlash → CodeFlash) : (s.modCf f).wr = s.wr := rfl
@[simp] theorem State.modCf_fl (s : State) (f : CodeFlash → CodeFlash) : (s.modCf f).fl = s.fl := rfl
@[simp] theorem State.modCf_dram (s : State) (f : CodeFlash → CodeFlash) : (s.modCf f).dram = s.dram := rfl
@[simp] theorem State.modCf_cal (s : State) (f : CodeFlash → CodeFlash) : (s.modCf f).cal = s.cal := rfl
@[simp] theorem State.modCf_pw (s : State) (f : CodeFlash → CodeFlash) : (s.modCf f).pw = s.pw := rfl
@[simp] theorem State.modCf_mon (s : State) (f : CodeFlash → CodeFlash) : (s.modCf f).mon = s.mon := rfl
@[simp] theorem State.modCf_sb (s : State) (f : CodeFlash → CodeFlash) : (s.modCf f).sb = s.sb := rfl
@[simp] theorem State.modCf_grp (s : State) (f : CodeFlash → CodeFlash) : (s.modCf f).grp = s.grp := rfl
@[simp] theorem State.modCf_nv (s : State) (f : CodeFlash → CodeFlash) : (s.modCf f).nv = s.nv := rfl
@[simp] theorem State.modCf_get (s : State) (f : CodeFlash → CodeFlash) (j : Nat) : (s.modCf f).get j = s.get j := rfl
@[simp] theorem State.modCf_blob (s : State) (f : CodeFlash → CodeFlash) (j : Nat) : (s.modCf f).blob j = s.blob j := rfl

/-! ### modEv -/

@[simp] theorem State.modEv_objs (s : State) (f : Events → Events) : (s.modEv f).objs = s.objs := rfl
@[simp] theorem State.modEv_blobs (s : State) (f : Events → Events) : (s.modEv f).blobs = s.blobs := rfl
@[simp] theorem State.modEv_pending (s : State) (f : Events → Events) : (s.modEv f).pending = s.pending := rfl
@[simp] theorem State.modEv_out (s : State) (f : Events → Events) : (s.modEv f).out = s.out := rfl
@[simp] theorem State.modEv_now (s : State) (f : Events → Events) : (s.modEv f).now = s.now := rfl
@[simp] theorem State.modEv_coldAt (s : State) (f : Events → Events) : (s.modEv f).coldAt = s.coldAt := rfl
@[simp] theorem State.modEv_freeIdx (s : State) (f : Events → Events) : (s.modEv f).freeIdx = s.freeIdx := rfl
@[simp] theorem State.modEv_paths (s : State) (f : Events → Events) : (s.modEv f).paths = s.paths := rfl
@[simp] theorem State.modEv_ports (s : State) (f : Events → Events) : (s.modEv f).ports = s.ports := rfl
@[simp] theorem State.modEv_cf (s : State) (f : Events → Events) : (s.modEv f).cf = s.cf := rfl
@[simp] theorem State.modEv_rings (s : State) (f : Events → Events) : (s.modEv f).rings = s.rings := rfl
@[simp] theorem State.modEv_win (s : State) (f : Events → Events) : (s.modEv f).win = s.win := rfl
@[simp] theorem State.modEv_ev (s : State) (f : Events → Events) : (s.modEv f).ev = f s.ev := rfl
@[simp] theorem State.modEv_wr (s : State) (f : Events → Events) : (s.modEv f).wr = s.wr := rfl
@[simp] theorem State.modEv_fl (s : State) (f : Events → Events) : (s.modEv f).fl = s.fl := rfl
@[simp] theorem State.modEv_dram (s : State) (f : Events → Events) : (s.modEv f).dram = s.dram := rfl
@[simp] theorem State.modEv_cal (s : State) (f : Events → Events) : (s.modEv f).cal = s.cal := rfl
@[simp] theorem State.modEv_pw (s : State) (f : Events → Events) : (s.modEv f).pw = s.pw := rfl
@[simp] theorem State.modEv_mon (s : State) (f : Events → Events) : (s.modEv f).mon = s.mon := rfl
@[simp] theorem State.modEv_sb (s : State) (f : Events → Events) : (s.modEv f).sb = s.sb := rfl
@[simp] theorem State.modEv_grp (s : State) (f : Events → Events) : (s.modEv f).grp = s.grp := rfl
@[simp] theorem State.modEv_nv (s : State) (f : Events → Events) : (s.modEv f).nv = s.nv := rfl
@[simp] theorem State.modEv_get (s : State) (f : Events → Events) (j : Nat) : (s.modEv f).get j = s.get j := rfl
@[simp] theorem State.modEv_blob (s : State) (f : Events → Events) (j : Nat) : (s.modEv f).blob j = s.blob j := rfl

/-! ### modNv -/

@[simp] theorem State.modNv_objs (s : State) (f : Nv → Nv) : (s.modNv f).objs = s.objs := rfl
@[simp] theorem State.modNv_blobs (s : State) (f : Nv → Nv) : (s.modNv f).blobs = s.blobs := rfl
@[simp] theorem State.modNv_pending (s : State) (f : Nv → Nv) : (s.modNv f).pending = s.pending := rfl
@[simp] theorem State.modNv_out (s : State) (f : Nv → Nv) : (s.modNv f).out = s.out := rfl
@[simp] theorem State.modNv_now (s : State) (f : Nv → Nv) : (s.modNv f).now = s.now := rfl
@[simp] theorem State.modNv_coldAt (s : State) (f : Nv → Nv) : (s.modNv f).coldAt = s.coldAt := rfl
@[simp] theorem State.modNv_freeIdx (s : State) (f : Nv → Nv) : (s.modNv f).freeIdx = s.freeIdx := rfl
@[simp] theorem State.modNv_paths (s : State) (f : Nv → Nv) : (s.modNv f).paths = s.paths := rfl
@[simp] theorem State.modNv_ports (s : State) (f : Nv → Nv) : (s.modNv f).ports = s.ports := rfl
@[simp] theorem State.modNv_cf (s : State) (f : Nv → Nv) : (s.modNv f).cf = s.cf := rfl
@[simp] theorem State.modNv_rings (s : State) (f : Nv → Nv) : (s.modNv f).rings = s.rings := rfl
@[simp] theorem State.modNv_win (s : State) (f : Nv → Nv) : (s.modNv f).win = s.win := rfl
@[simp] theorem State.modNv_ev (s : State) (f : Nv → Nv) : (s.modNv f).ev = s.ev := rfl
@[simp] theorem State.modNv_wr (s : State) (f : Nv → Nv) : (s.modNv f).wr = s.wr := rfl
@[simp] theorem State.modNv_fl (s : State) (f : Nv → Nv) : (s.modNv f).fl = s.fl := rfl
@[simp] theorem State.modNv_dram (s : State) (f : Nv → Nv) : (s.modNv f).dram = s.dram := rfl
@[simp] theorem State.modNv_cal (s : State) (f : Nv → Nv) : (s.modNv f).cal = s.cal := rfl
@[simp] theorem State.modNv_pw (s : State) (f : Nv → Nv) : (s.modNv f).pw = s.pw := rfl
@[simp] theorem State.modNv_mon (s : State) (f : Nv → Nv) : (s.modNv f).mon = s.mon := rfl
@[simp] theorem State.modNv_sb (s : State) (f : Nv → Nv) : (s.modNv f).sb = s.sb := rfl
@[simp] theorem State.modNv_grp (s : State) (f : Nv → Nv) : (s.modNv f).grp = s.grp := rfl
@[simp] theorem State.modNv_nv (s : State) (f : Nv → Nv) : (s.modNv f).nv = f s.nv := rfl
@[simp] theorem State.modNv_get (s : State) (f : Nv → Nv) (j : Nat) : (s.modNv f).get j = s.get j := rfl
@[simp] theorem State.modNv_blob (s : State) (f : Nv → Nv) (j : Nat) : (s.modNv f).blob j = s.blob j := rfl

/-! ### modPw -/

@[simp] theorem State.modPw_objs (s : State) (f : Power → Power) : (s.modPw f).objs = s.objs := rfl
@[simp] theorem State.modPw_blobs (s : State) (f : Power → Power) : (s.modPw f).blobs = s.blobs := rfl
@[simp] theorem State.modPw_pending (s : State) (f : Power → Power) : (s.modPw f).pending = s.pending := rfl
@[simp] theorem State.modPw_out (s : State) (f : Power → Power) : (s.modPw f).out = s.out := rfl
@[simp] theorem State.modPw_now (s : State) (f : Power → Power) : (s.modPw f).now = s.now := rfl
@[simp] theorem State.modPw_coldAt (s : State) (f : Power → Power) : (s.modPw f).coldAt = s.coldAt := rfl
@[simp] theorem State.modPw_freeIdx (s : State) (f : Power → Power) : (s.modPw f).freeIdx = s.freeIdx := rfl
@[simp] theorem State.modPw_paths (s : State) (f : Power → Power) : (s.modPw f).paths = s.paths := rfl
@[simp] theorem State.modPw_ports (s : State) (f : Power → Power) : (s.modPw f).ports = s.ports := rfl
@[simp] theorem State.modPw_cf (s : State) (f : Power → Power) : (s.modPw f).cf = s.cf := rfl
@[simp] theorem State.modPw_rings (s : State) (f : Power → Power) : (s.modPw f).rings = s.rings := rfl
@[simp] theorem State.modPw_win (s : State) (f : Power → Power) : (s.modPw f).win = s.win := rfl
@[simp] theorem State.modPw_ev (s : State) (f : Power → Power) : (s.modPw f).ev = s.ev := rfl
@[simp] theorem State.modPw_wr (s : State) (f : Power → Power) : (s.modPw f).wr = s.wr := rfl
@[simp] theorem State.modPw_fl (s : State) (f : Power → Power) : (s.modPw f).fl = s.fl := rfl
@[simp] theorem State.modPw_dram (s : State) (f : Power → Power) : (s.modPw f).dram = s.dram := rfl
@[simp] theorem State.modPw_cal (s : State) (f : Power → Power) : (s.modPw f).cal = s.cal := rfl
@[simp] theorem State.modPw_pw (s : State) (f : Power → Power) : (s.modPw f).pw = f s.pw := rfl
@[simp] theorem State.modPw_mon (s : State) (f : Power → Power) : (s.modPw f).mon = s.mon := rfl
@[simp] theorem State.modPw_sb (s : State) (f : Power → Power) : (s.modPw f).sb = s.sb := rfl
@[simp] theorem State.modPw_grp (s : State) (f : Power → Power) : (s.modPw f).grp = s.grp := rfl
@[simp] theorem State.modPw_nv (s : State) (f : Power → Power) : (s.modPw f).nv = s.nv := rfl
@[simp] theorem State.modPw_get (s : State) (f : Power → Power) (j : Nat) : (s.modPw f).get j = s.get j := rfl
@[simp] theorem State.modPw_blob (s : State) (f : Power → Power) (j : Nat) : (s.modPw f).blob j = s.blob j := rfl

/-! ### modCal -/

@[simp] theorem State.modCal_objs (s : State) (f : Cal → Cal) : (s.modCal f).objs = s.objs := rfl
@[simp] theorem State.modCal_blobs (s : State) (f : Cal → Cal) : (s.modCal f).blobs = s.blobs := rfl
@[simp] theorem State.modCal_pending (s : State) (f : Cal → Cal) : (s.modCal f).pending = s.pending := rfl
@[simp] theorem State.modCal_out (s : State) (f : Cal → Cal) : (s.modCal f).out = s.out := rfl
@[simp] theorem State.modCal_now (s : State) (f : Cal → Cal) : (s.modCal f).now = s.now := rfl
@[simp] theorem State.modCal_coldAt (s : State) (f : Cal → Cal) : (s.modCal f).coldAt = s.coldAt := rfl
@[simp] theorem State.modCal_freeIdx (s : State) (f : Cal → Cal) : (s.modCal f).freeIdx = s.freeIdx := rfl
@[simp] theorem State.modCal_paths (s : State) (f : Cal → Cal) : (s.modCal f).paths = s.paths := rfl
@[simp] theorem State.modCal_ports (s : State) (f : Cal → Cal) : (s.modCal f).ports = s.ports := rfl
@[simp] theorem State.modCal_cf (s : State) (f : Cal → Cal) : (s.modCal f).cf = s.cf := rfl
@[simp] theorem State.modCal_rings (s : State) (f : Cal → Cal) : (s.modCal f).rings = s.rings := rfl
@[simp] theorem State.modCal_win (s : State) (f : Cal → Cal) : (s.modCal f).win = s.win := rfl
@[simp] theorem State.modCal_ev (s : State) (f : Cal → Cal) : (s.modCal f).ev = s.ev := rfl
@[simp] theorem State.modCal_wr (s : State) (f : Cal → Cal) : (s.modCal f).wr = s.wr := rfl
@[simp] theorem State.modCal_fl (s : State) (f : Cal → Cal) : (s.modCal f).fl = s.fl := rfl
@[simp] theorem State.modCal_dram (s : State) (f : Cal → Cal) : (s.modCal f).dram = s.dram := rfl
@[simp] theorem State.modCal_cal (s : State) (f : Cal → Cal) : (s.modCal f).cal = f s.cal := rfl
@[simp] theorem State.modCal_pw (s : State) (f : Cal → Cal) : (s.modCal f).pw = s.pw := rfl
@[simp] theorem State.modCal_mon (s : State) (f : Cal → Cal) : (s.modCal f).mon = s.mon := rfl
@[simp] theorem State.modCal_sb (s : State) (f : Cal → Cal) : (s.modCal f).sb = s.sb := rfl
@[simp] theorem State.modCal_grp (s : State) (f : Cal → Cal) : (s.modCal f).grp = s.grp := rfl
@[simp] theorem State.modCal_nv (s : State) (f : Cal → Cal) : (s.modCal f).nv = s.nv := rfl
@[simp] theorem State.modCal_get (s : State) (f : Cal → Cal) (j : Nat) : (s.modCal f).get j = s.get j := rfl
@[simp] theorem State.modCal_blob (s : State) (f : Cal → Cal) (j : Nat) : (s.modCal f).blob j = s.blob j := rfl

/-! ### modDram -/

@[simp] theorem State.modDram_objs (s : State) (f : Dram → Dram) : (s.modDram f).objs = s.objs := rfl
@[simp] theorem State.modDram_blobs (s : State) (f : Dram → Dram) : (s.modDram f).blobs = s.blobs := rfl
@[simp] theorem State.modDram_pending (s : State) (f : Dram → Dram) : (s.modDram f).pending = s.pending := rfl
@[simp] theorem State.modDram_out (s : State) (f : Dram → Dram) : (s.modDram f).out = s.out := rfl
@[simp] theorem State.modDram_now (s : State) (f : Dram → Dram) : (s.modDram f).now = s.now := rfl
@[simp] theorem State.modDram_coldAt (s : State) (f : Dram → Dram) : (s.modDram f).coldAt = s.coldAt := rfl
@[simp] theorem State.modDram_freeIdx (s : State) (f : Dram → Dram) : (s.modDram f).freeIdx = s.freeIdx := rfl
@[simp] theorem State.modDram_paths (s : State) (f : Dram → Dram) : (s.modDram f).paths = s.paths := rfl
@[simp] theorem State.modDram_ports (s : State) (f : Dram → Dram) : (s.modDram f).ports = s.ports := rfl
@[simp] theorem State.modDram_cf (s : State) (f : Dram → Dram) : (s.modDram f).cf = s.cf := rfl
@[simp] theorem State.modDram_rings (s : State) (f : Dram → Dram) : (s.modDram f).rings = s.rings := rfl
@[simp] theorem State.modDram_win (s : State) (f : Dram → Dram) : (s.modDram f).win = s.win := rfl
@[simp] theorem State.modDram_ev (s : State) (f : Dram → Dram) : (s.modDram f).ev = s.ev := rfl
@[simp] theorem State.modDram_wr (s : State) (f : Dram → Dram) : (s.modDram f).wr = s.wr := rfl
@[simp] theorem State.modDram_fl (s : State) (f : Dram → Dram) : (s.modDram f).fl = s.fl := rfl
@[simp] theorem State.modDram_dram (s : State) (f : Dram → Dram) : (s.modDram f).dram = f s.dram := rfl
@[simp] theorem State.modDram_cal (s : State) (f : Dram → Dram) : (s.modDram f).cal = s.cal := rfl
@[simp] theorem State.modDram_pw (s : State) (f : Dram → Dram) : (s.modDram f).pw = s.pw := rfl
@[simp] theorem State.modDram_mon (s : State) (f : Dram → Dram) : (s.modDram f).mon = s.mon := rfl
@[simp] theorem State.modDram_sb (s : State) (f : Dram → Dram) : (s.modDram f).sb = s.sb := rfl
@[simp] theorem State.modDram_grp (s : State) (f : Dram → Dram) : (s.modDram f).grp = s.grp := rfl
@[simp] theorem State.modDram_nv (s : State) (f : Dram → Dram) : (s.modDram f).nv = s.nv := rfl
@[simp] theorem State.modDram_get (s : State) (f : Dram → Dram) (j : Nat) : (s.modDram f).get j = s.get j := rfl
@[simp] theorem State.modDram_blob (s : State) (f : Dram → Dram) (j : Nat) : (s.modDram f).blob j = s.blob j := rfl

/-! ### modGrp -/

@[simp] theorem State.modGrp_objs (s : State) (f : Group → Group) : (s.modGrp f).objs = s.objs := rfl
@[simp] theorem State.modGrp_blobs (s : State) (f : Group → Group) : (s.modGrp f).blobs = s.blobs := rfl
@[simp] theorem State.modGrp_pending (s : State) (f : Group → Group) : (s.modGrp f).pending = s.pending := rfl
@[simp] theorem State.modGrp_out (s : State) (f : Group → Group) : (s.modGrp f).out = s.out := rfl
@[simp] theorem State.modGrp_now (s : State) (f : Group → Group) : (s.modGrp f).now = s.now := rfl
@[simp] theorem State.modGrp_coldAt (s : State) (f : Group → Group) : (s.modGrp f).coldAt = s.coldAt := rfl
@[simp] theorem State.modGrp_freeIdx (s : State) (f : Group → Group) : (s.modGrp f).freeIdx = s.freeIdx := rfl
@[simp] theorem State.modGrp_paths (s : State) (f : Group → Group) : (s.modGrp f).paths = s.paths := rfl
@[simp] theorem State.modGrp_ports (s : State) (f : Group → Group) : (s.modGrp f).ports = s.ports := rfl
@[simp] theorem State.modGrp_cf (s : State) (f : Group → Group) : (s.modGrp f).cf = s.cf := rfl
@[simp] theorem State.modGrp_rings (s : State) (f : Group → Group) : (s.modGrp f).rings = s.rings := rfl
@[simp] theorem State.modGrp_win (s : State) (f : Group → Group) : (s.modGrp f).win = s.win := rfl
@[simp] theorem State.modGrp_ev (s : State) (f : Group → Group) : (s.modGrp f).ev = s.ev := rfl
@[simp] theorem State.modGrp_wr (s : State) (f : Group → Group) : (s.modGrp f).wr = s.wr := rfl
@[simp] theorem State.modGrp_fl (s : State) (f : Group → Group) : (s.modGrp f).fl = s.fl := rfl
@[simp] theorem State.modGrp_dram (s : State) (f : Group → Group) : (s.modGrp f).dram = s.dram := rfl
@[simp] theorem State.modGrp_cal (s : State) (f : Group → Group) : (s.modGrp f).cal = s.cal := rfl
@[simp] theorem State.modGrp_pw (s : State) (f : Group → Group) : (s.modGrp f).pw = s.pw := rfl
@[simp] theorem State.modGrp_mon (s : State) (f : Group → Group) : (s.modGrp f).mon = s.mon := rfl
@[simp] theorem State.modGrp_sb (s : State) (f : Group → Group) : (s.modGrp f).sb = s.sb := rfl
@[simp] theorem State.modGrp_grp (s : State) (f : Group → Group) : (s.modGrp f).grp = f s.grp := rfl
@[simp] theorem State.modGrp_nv (s : State) (f : Group → Group) : (s.modGrp f).nv = s.nv := rfl
@[simp] theorem State.modGrp_get (s : State) (f : Group → Group) (j : Nat) : (s.modGrp f).get j = s.get j := rfl
@[simp] theorem State.modGrp_blob (s : State) (f : Group → Group) (j : Nat) : (s.modGrp f).blob j = s.blob j := rfl

/-! ### modMon -/

@[simp] theorem State.modMon_objs (s : State) (f : Monitor → Monitor) : (s.modMon f).objs = s.objs := rfl
@[simp] theorem State.modMon_blobs (s : State) (f : Monitor → Monitor) : (s.modMon f).blobs = s.blobs := rfl
@[simp] theorem State.modMon_pending (s : State) (f : Monitor → Monitor) : (s.modMon f).pending = s.pending := rfl
@[simp] theorem State.modMon_out (s : State) (f : Monitor → Monitor) : (s.modMon f).out = s.out := rfl
@[simp] theorem State.modMon_now (s : State) (f : Monitor → Monitor) : (s.modMon f).now = s.now := rfl
@[simp] theorem State.modMon_coldAt (s : State) (f : Monitor → Monitor) : (s.modMon f).coldAt = s.coldAt := rfl
@[simp] theorem State.modMon_freeIdx (s : State) (f : Monitor → Monitor) : (s.modMon f).freeIdx = s.freeIdx := rfl
@[simp] theorem State.modMon_paths (s : State) (f : Monitor → Monitor) : (s.modMon f).paths = s.paths := rfl
@[simp] theorem State.modMon_ports (s : State) (f : Monitor → Monitor) : (s.modMon f).ports = s.ports := rfl
@[simp] theorem State.modMon_cf (s : State) (f : Monitor → Monitor) : (s.modMon f).cf = s.cf := rfl
@[simp] theorem State.modMon_rings (s : State) (f : Monitor → Monitor) : (s.modMon f).rings = s.rings := rfl
@[simp] theorem State.modMon_win (s : State) (f : Monitor → Monitor) : (s.modMon f).win = s.win := rfl
@[simp] theorem State.modMon_ev (s : State) (f : Monitor → Monitor) : (s.modMon f).ev = s.ev := rfl
@[simp] theorem State.modMon_wr (s : State) (f : Monitor → Monitor) : (s.modMon f).wr = s.wr := rfl
@[simp] theorem State.modMon_fl (s : State) (f : Monitor → Monitor) : (s.modMon f).fl = s.fl := rfl
@[simp] theorem State.modMon_dram (s : State) (f : Monitor → Monitor) : (s.modMon f).dram = s.dram := rfl
@[simp] theorem State.modMon_cal (s : State) (f : Monitor → Monitor) : (s.modMon f).cal = s.cal := rfl
@[simp] theorem State.modMon_pw (s : State) (f : Monitor → Monitor) : (s.modMon f).pw = s.pw := rfl
@[simp] theorem State.modMon_mon (s : State) (f : Monitor → Monitor) : (s.modMon f).mon = f s.mon := rfl
@[simp] theorem State.modMon_sb (s : State) (f : Monitor → Monitor) : (s.modMon f).sb = s.sb := rfl
@[simp] theorem State.modMon_grp (s : State) (f : Monitor → Monitor) : (s.modMon f).grp = s.grp := rfl
@[simp] theorem State.modMon_nv (s : State) (f : Monitor → Monitor) : (s.modMon f).nv = s.nv := rfl
@[simp] theorem State.modMon_get (s : State) (f : Monitor → Monitor) (j : Nat) : (s.modMon f).get j = s.get j := rfl
@[simp] theorem State.modMon_blob (s : State) (f : Monitor → Monitor) (j : Nat) : (s.modMon f).blob j = s.blob j := rfl

/-! ### modSet -/

@[simp] theorem State.modSet_objs (s : State) (n : Nat) (f : StripeSet → StripeSet) : (s.modSet n f).objs = s.objs := rfl
@[simp] theorem State.modSet_blobs (s : State) (n : Nat) (f : StripeSet → StripeSet) : (s.modSet n f).blobs = s.blobs := rfl
@[simp] theorem State.modSet_pending (s : State) (n : Nat) (f : StripeSet → StripeSet) : (s.modSet n f).pending = s.pending := rfl
@[simp] theorem State.modSet_out (s : State) (n : Nat) (f : StripeSet → StripeSet) : (s.modSet n f).out = s.out := rfl
@[simp] theorem State.modSet_now (s : State) (n : Nat) (f : StripeSet → StripeSet) : (s.modSet n f).now = s.now := rfl
@[simp] theorem State.modSet_coldAt (s : State) (n : Nat) (f : StripeSet → StripeSet) : (s.modSet n f).coldAt = s.coldAt := rfl
@[simp] theorem State.modSet_freeIdx (s : State) (n : Nat) (f : StripeSet → StripeSet) : (s.modSet n f).freeIdx = s.freeIdx := rfl
@[simp] theorem State.modSet_paths (s : State) (n : Nat) (f : StripeSet → StripeSet) : (s.modSet n f).paths = s.paths := rfl
@[simp] theorem State.modSet_ports (s : State) (n : Nat) (f : StripeSet → StripeSet) : (s.modSet n f).ports = s.ports := rfl
@[simp] theorem State.modSet_cf (s : State) (n : Nat) (f : StripeSet → StripeSet) : (s.modSet n f).cf = s.cf := rfl
@[simp] theorem State.modSet_rings (s : State) (n : Nat) (f : StripeSet → StripeSet) : (s.modSet n f).rings = s.rings := rfl
@[simp] theorem State.modSet_win (s : State) (n : Nat) (f : StripeSet → StripeSet) : (s.modSet n f).win = s.win := rfl
@[simp] theorem State.modSet_ev (s : State) (n : Nat) (f : StripeSet → StripeSet) : (s.modSet n f).ev = s.ev := rfl
@[simp] theorem State.modSet_fl (s : State) (n : Nat) (f : StripeSet → StripeSet) : (s.modSet n f).fl = s.fl := rfl
@[simp] theorem State.modSet_dram (s : State) (n : Nat) (f : StripeSet → StripeSet) : (s.modSet n f).dram = s.dram := rfl
@[simp] theorem State.modSet_cal (s : State) (n : Nat) (f : StripeSet → StripeSet) : (s.modSet n f).cal = s.cal := rfl
@[simp] theorem State.modSet_pw (s : State) (n : Nat) (f : StripeSet → StripeSet) : (s.modSet n f).pw = s.pw := rfl
@[simp] theorem State.modSet_mon (s : State) (n : Nat) (f : StripeSet → StripeSet) : (s.modSet n f).mon = s.mon := rfl
@[simp] theorem State.modSet_sb (s : State) (n : Nat) (f : StripeSet → StripeSet) : (s.modSet n f).sb = s.sb := rfl
@[simp] theorem State.modSet_grp (s : State) (n : Nat) (f : StripeSet → StripeSet) : (s.modSet n f).grp = s.grp := rfl
@[simp] theorem State.modSet_nv (s : State) (n : Nat) (f : StripeSet → StripeSet) : (s.modSet n f).nv = s.nv := rfl
@[simp] theorem State.modSet_get (s : State) (n : Nat) (f : StripeSet → StripeSet) (j : Nat) : (s.modSet n f).get j = s.get j := rfl
@[simp] theorem State.modSet_blob (s : State) (n : Nat) (f : StripeSet → StripeSet) (j : Nat) : (s.modSet n f).blob j = s.blob j := rfl

/-! ### modDie -/

@[simp] theorem State.modDie_objs (s : State) (c d : Nat) (f : Die → Die) : (s.modDie c d f).objs = s.objs := rfl
@[simp] theorem State.modDie_blobs (s : State) (c d : Nat) (f : Die → Die) : (s.modDie c d f).blobs = s.blobs := rfl
@[simp] theorem State.modDie_pending (s : State) (c d : Nat) (f : Die → Die) : (s.modDie c d f).pending = s.pending := rfl
@[simp] theorem State.modDie_out (s : State) (c d : Nat) (f : Die → Die) : (s.modDie c d f).out = s.out := rfl
@[simp] theorem State.modDie_now (s : State) (c d : Nat) (f : Die → Die) : (s.modDie c d f).now = s.now := rfl
@[simp] theorem State.modDie_coldAt (s : State) (c d : Nat) (f : Die → Die) : (s.modDie c d f).coldAt = s.coldAt := rfl
@[simp] theorem State.modDie_freeIdx (s : State) (c d : Nat) (f : Die → Die) : (s.modDie c d f).freeIdx = s.freeIdx := rfl
@[simp] theorem State.modDie_paths (s : State) (c d : Nat) (f : Die → Die) : (s.modDie c d f).paths = s.paths := rfl
@[simp] theorem State.modDie_ports (s : State) (c d : Nat) (f : Die → Die) : (s.modDie c d f).ports = s.ports := rfl
@[simp] theorem State.modDie_cf (s : State) (c d : Nat) (f : Die → Die) : (s.modDie c d f).cf = s.cf := rfl
@[simp] theorem State.modDie_rings (s : State) (c d : Nat) (f : Die → Die) : (s.modDie c d f).rings = s.rings := rfl
@[simp] theorem State.modDie_win (s : State) (c d : Nat) (f : Die → Die) : (s.modDie c d f).win = s.win := rfl
@[simp] theorem State.modDie_ev (s : State) (c d : Nat) (f : Die → Die) : (s.modDie c d f).ev = s.ev := rfl
@[simp] theorem State.modDie_wr (s : State) (c d : Nat) (f : Die → Die) : (s.modDie c d f).wr = s.wr := rfl
@[simp] theorem State.modDie_dram (s : State) (c d : Nat) (f : Die → Die) : (s.modDie c d f).dram = s.dram := rfl
@[simp] theorem State.modDie_cal (s : State) (c d : Nat) (f : Die → Die) : (s.modDie c d f).cal = s.cal := rfl
@[simp] theorem State.modDie_pw (s : State) (c d : Nat) (f : Die → Die) : (s.modDie c d f).pw = s.pw := rfl
@[simp] theorem State.modDie_mon (s : State) (c d : Nat) (f : Die → Die) : (s.modDie c d f).mon = s.mon := rfl
@[simp] theorem State.modDie_sb (s : State) (c d : Nat) (f : Die → Die) : (s.modDie c d f).sb = s.sb := rfl
@[simp] theorem State.modDie_grp (s : State) (c d : Nat) (f : Die → Die) : (s.modDie c d f).grp = s.grp := rfl
@[simp] theorem State.modDie_nv (s : State) (c d : Nat) (f : Die → Die) : (s.modDie c d f).nv = s.nv := rfl
@[simp] theorem State.modDie_get (s : State) (c d : Nat) (f : Die → Die) (j : Nat) : (s.modDie c d f).get j = s.get j := rfl
@[simp] theorem State.modDie_blob (s : State) (c d : Nat) (f : Die → Die) (j : Nat) : (s.modDie c d f).blob j = s.blob j := rfl

/-! ### modChan -/

@[simp] theorem State.modChan_objs (s : State) (c : Nat) (f : Channel → Channel) : (s.modChan c f).objs = s.objs := rfl
@[simp] theorem State.modChan_blobs (s : State) (c : Nat) (f : Channel → Channel) : (s.modChan c f).blobs = s.blobs := rfl
@[simp] theorem State.modChan_pending (s : State) (c : Nat) (f : Channel → Channel) : (s.modChan c f).pending = s.pending := rfl
@[simp] theorem State.modChan_out (s : State) (c : Nat) (f : Channel → Channel) : (s.modChan c f).out = s.out := rfl
@[simp] theorem State.modChan_now (s : State) (c : Nat) (f : Channel → Channel) : (s.modChan c f).now = s.now := rfl
@[simp] theorem State.modChan_coldAt (s : State) (c : Nat) (f : Channel → Channel) : (s.modChan c f).coldAt = s.coldAt := rfl
@[simp] theorem State.modChan_freeIdx (s : State) (c : Nat) (f : Channel → Channel) : (s.modChan c f).freeIdx = s.freeIdx := rfl
@[simp] theorem State.modChan_paths (s : State) (c : Nat) (f : Channel → Channel) : (s.modChan c f).paths = s.paths := rfl
@[simp] theorem State.modChan_ports (s : State) (c : Nat) (f : Channel → Channel) : (s.modChan c f).ports = s.ports := rfl
@[simp] theorem State.modChan_cf (s : State) (c : Nat) (f : Channel → Channel) : (s.modChan c f).cf = s.cf := rfl
@[simp] theorem State.modChan_rings (s : State) (c : Nat) (f : Channel → Channel) : (s.modChan c f).rings = s.rings := rfl
@[simp] theorem State.modChan_win (s : State) (c : Nat) (f : Channel → Channel) : (s.modChan c f).win = s.win := rfl
@[simp] theorem State.modChan_ev (s : State) (c : Nat) (f : Channel → Channel) : (s.modChan c f).ev = s.ev := rfl
@[simp] theorem State.modChan_wr (s : State) (c : Nat) (f : Channel → Channel) : (s.modChan c f).wr = s.wr := rfl
@[simp] theorem State.modChan_dram (s : State) (c : Nat) (f : Channel → Channel) : (s.modChan c f).dram = s.dram := rfl
@[simp] theorem State.modChan_cal (s : State) (c : Nat) (f : Channel → Channel) : (s.modChan c f).cal = s.cal := rfl
@[simp] theorem State.modChan_pw (s : State) (c : Nat) (f : Channel → Channel) : (s.modChan c f).pw = s.pw := rfl
@[simp] theorem State.modChan_mon (s : State) (c : Nat) (f : Channel → Channel) : (s.modChan c f).mon = s.mon := rfl
@[simp] theorem State.modChan_sb (s : State) (c : Nat) (f : Channel → Channel) : (s.modChan c f).sb = s.sb := rfl
@[simp] theorem State.modChan_grp (s : State) (c : Nat) (f : Channel → Channel) : (s.modChan c f).grp = s.grp := rfl
@[simp] theorem State.modChan_nv (s : State) (c : Nat) (f : Channel → Channel) : (s.modChan c f).nv = s.nv := rfl
@[simp] theorem State.modChan_get (s : State) (c : Nat) (f : Channel → Channel) (j : Nat) : (s.modChan c f).get j = s.get j := rfl
@[simp] theorem State.modChan_blob (s : State) (c : Nat) (f : Channel → Channel) (j : Nat) : (s.modChan c f).blob j = s.blob j := rfl

/-! ### modOp -/

@[simp] theorem State.modOp_objs (s : State) (ring slot : Nat) (f : Op → Op) : (s.modOp ring slot f).objs = s.objs := by unfold State.modOp; split <;> rfl
@[simp] theorem State.modOp_blobs (s : State) (ring slot : Nat) (f : Op → Op) : (s.modOp ring slot f).blobs = s.blobs := by unfold State.modOp; split <;> rfl
@[simp] theorem State.modOp_pending (s : State) (ring slot : Nat) (f : Op → Op) : (s.modOp ring slot f).pending = s.pending := by unfold State.modOp; split <;> rfl
@[simp] theorem State.modOp_out (s : State) (ring slot : Nat) (f : Op → Op) : (s.modOp ring slot f).out = s.out := by unfold State.modOp; split <;> rfl
@[simp] theorem State.modOp_now (s : State) (ring slot : Nat) (f : Op → Op) : (s.modOp ring slot f).now = s.now := by unfold State.modOp; split <;> rfl
@[simp] theorem State.modOp_coldAt (s : State) (ring slot : Nat) (f : Op → Op) : (s.modOp ring slot f).coldAt = s.coldAt := by unfold State.modOp; split <;> rfl
@[simp] theorem State.modOp_freeIdx (s : State) (ring slot : Nat) (f : Op → Op) : (s.modOp ring slot f).freeIdx = s.freeIdx := by unfold State.modOp; split <;> rfl
@[simp] theorem State.modOp_paths (s : State) (ring slot : Nat) (f : Op → Op) : (s.modOp ring slot f).paths = s.paths := by unfold State.modOp; split <;> rfl
@[simp] theorem State.modOp_ports (s : State) (ring slot : Nat) (f : Op → Op) : (s.modOp ring slot f).ports = s.ports := by unfold State.modOp; split <;> rfl
@[simp] theorem State.modOp_cf (s : State) (ring slot : Nat) (f : Op → Op) : (s.modOp ring slot f).cf = s.cf := by unfold State.modOp; split <;> rfl
@[simp] theorem State.modOp_win (s : State) (ring slot : Nat) (f : Op → Op) : (s.modOp ring slot f).win = s.win := by unfold State.modOp; split <;> rfl
@[simp] theorem State.modOp_ev (s : State) (ring slot : Nat) (f : Op → Op) : (s.modOp ring slot f).ev = s.ev := by unfold State.modOp; split <;> rfl
@[simp] theorem State.modOp_wr (s : State) (ring slot : Nat) (f : Op → Op) : (s.modOp ring slot f).wr = s.wr := by unfold State.modOp; split <;> rfl
@[simp] theorem State.modOp_fl (s : State) (ring slot : Nat) (f : Op → Op) : (s.modOp ring slot f).fl = s.fl := by unfold State.modOp; split <;> rfl
@[simp] theorem State.modOp_dram (s : State) (ring slot : Nat) (f : Op → Op) : (s.modOp ring slot f).dram = s.dram := by unfold State.modOp; split <;> rfl
@[simp] theorem State.modOp_cal (s : State) (ring slot : Nat) (f : Op → Op) : (s.modOp ring slot f).cal = s.cal := by unfold State.modOp; split <;> rfl
@[simp] theorem State.modOp_pw (s : State) (ring slot : Nat) (f : Op → Op) : (s.modOp ring slot f).pw = s.pw := by unfold State.modOp; split <;> rfl
@[simp] theorem State.modOp_mon (s : State) (ring slot : Nat) (f : Op → Op) : (s.modOp ring slot f).mon = s.mon := by unfold State.modOp; split <;> rfl
@[simp] theorem State.modOp_sb (s : State) (ring slot : Nat) (f : Op → Op) : (s.modOp ring slot f).sb = s.sb := by unfold State.modOp; split <;> rfl
@[simp] theorem State.modOp_grp (s : State) (ring slot : Nat) (f : Op → Op) : (s.modOp ring slot f).grp = s.grp := by unfold State.modOp; split <;> rfl
@[simp] theorem State.modOp_nv (s : State) (ring slot : Nat) (f : Op → Op) : (s.modOp ring slot f).nv = s.nv := by unfold State.modOp; split <;> rfl
@[simp] theorem State.modOp_get (s : State) (ring slot : Nat) (f : Op → Op) (j : Nat) : (s.modOp ring slot f).get j = s.get j := by unfold State.modOp; split <;> rfl
@[simp] theorem State.modOp_blob (s : State) (ring slot : Nat) (f : Op → Op) (j : Nat) : (s.modOp ring slot f).blob j = s.blob j := by unfold State.modOp; split <;> rfl

/-! ### dropOp -/

@[simp] theorem State.dropOp_objs (s : State) (seq : Nat) : (s.dropOp seq).objs = s.objs := rfl
@[simp] theorem State.dropOp_blobs (s : State) (seq : Nat) : (s.dropOp seq).blobs = s.blobs := rfl
@[simp] theorem State.dropOp_pending (s : State) (seq : Nat) : (s.dropOp seq).pending = s.pending := rfl
@[simp] theorem State.dropOp_out (s : State) (seq : Nat) : (s.dropOp seq).out = s.out := rfl
@[simp] theorem State.dropOp_now (s : State) (seq : Nat) : (s.dropOp seq).now = s.now := rfl
@[simp] theorem State.dropOp_coldAt (s : State) (seq : Nat) : (s.dropOp seq).coldAt = s.coldAt := rfl
@[simp] theorem State.dropOp_freeIdx (s : State) (seq : Nat) : (s.dropOp seq).freeIdx = s.freeIdx := rfl
@[simp] theorem State.dropOp_paths (s : State) (seq : Nat) : (s.dropOp seq).paths = s.paths := rfl
@[simp] theorem State.dropOp_ports (s : State) (seq : Nat) : (s.dropOp seq).ports = s.ports := rfl
@[simp] theorem State.dropOp_cf (s : State) (seq : Nat) : (s.dropOp seq).cf = s.cf := rfl
@[simp] theorem State.dropOp_win (s : State) (seq : Nat) : (s.dropOp seq).win = s.win := rfl
@[simp] theorem State.dropOp_ev (s : State) (seq : Nat) : (s.dropOp seq).ev = s.ev := rfl
@[simp] theorem State.dropOp_wr (s : State) (seq : Nat) : (s.dropOp seq).wr = s.wr := rfl
@[simp] theorem State.dropOp_fl (s : State) (seq : Nat) : (s.dropOp seq).fl = s.fl := rfl
@[simp] theorem State.dropOp_dram (s : State) (seq : Nat) : (s.dropOp seq).dram = s.dram := rfl
@[simp] theorem State.dropOp_cal (s : State) (seq : Nat) : (s.dropOp seq).cal = s.cal := rfl
@[simp] theorem State.dropOp_pw (s : State) (seq : Nat) : (s.dropOp seq).pw = s.pw := rfl
@[simp] theorem State.dropOp_mon (s : State) (seq : Nat) : (s.dropOp seq).mon = s.mon := rfl
@[simp] theorem State.dropOp_sb (s : State) (seq : Nat) : (s.dropOp seq).sb = s.sb := rfl
@[simp] theorem State.dropOp_grp (s : State) (seq : Nat) : (s.dropOp seq).grp = s.grp := rfl
@[simp] theorem State.dropOp_nv (s : State) (seq : Nat) : (s.dropOp seq).nv = s.nv := rfl
@[simp] theorem State.dropOp_get (s : State) (seq : Nat) (j : Nat) : (s.dropOp seq).get j = s.get j := rfl
@[simp] theorem State.dropOp_blob (s : State) (seq : Nat) (j : Nat) : (s.dropOp seq).blob j = s.blob j := rfl

/-! ### modGather -/

@[simp] theorem State.modGather_objs (s : State) (ring slot : Nat) (f : Gather → Gather) : (s.modGather ring slot f).objs = s.objs := rfl
@[simp] theorem State.modGather_blobs (s : State) (ring slot : Nat) (f : Gather → Gather) : (s.modGather ring slot f).blobs = s.blobs := rfl
@[simp] theorem State.modGather_pending (s : State) (ring slot : Nat) (f : Gather → Gather) : (s.modGather ring slot f).pending = s.pending := rfl
@[simp] theorem State.modGather_out (s : State) (ring slot : Nat) (f : Gather → Gather) : (s.modGather ring slot f).out = s.out := rfl
@[simp] theorem State.modGather_now (s : State) (ring slot : Nat) (f : Gather → Gather) : (s.modGather ring slot f).now = s.now := rfl
@[simp] theorem State.modGather_coldAt (s : State) (ring slot : Nat) (f : Gather → Gather) : (s.modGather ring slot f).coldAt = s.coldAt := rfl
@[simp] theorem State.modGather_freeIdx (s : State) (ring slot : Nat) (f : Gather → Gather) : (s.modGather ring slot f).freeIdx = s.freeIdx := rfl
@[simp] theorem State.modGather_paths (s : State) (ring slot : Nat) (f : Gather → Gather) : (s.modGather ring slot f).paths = s.paths := rfl
@[simp] theorem State.modGather_ports (s : State) (ring slot : Nat) (f : Gather → Gather) : (s.modGather ring slot f).ports = s.ports := rfl
@[simp] theorem State.modGather_cf (s : State) (ring slot : Nat) (f : Gather → Gather) : (s.modGather ring slot f).cf = s.cf := rfl
@[simp] theorem State.modGather_rings (s : State) (ring slot : Nat) (f : Gather → Gather) : (s.modGather ring slot f).rings = s.rings := rfl
@[simp] theorem State.modGather_win (s : State) (ring slot : Nat) (f : Gather → Gather) : (s.modGather ring slot f).win = s.win := rfl
@[simp] theorem State.modGather_ev (s : State) (ring slot : Nat) (f : Gather → Gather) : (s.modGather ring slot f).ev = s.ev := rfl
@[simp] theorem State.modGather_fl (s : State) (ring slot : Nat) (f : Gather → Gather) : (s.modGather ring slot f).fl = s.fl := rfl
@[simp] theorem State.modGather_dram (s : State) (ring slot : Nat) (f : Gather → Gather) : (s.modGather ring slot f).dram = s.dram := rfl
@[simp] theorem State.modGather_cal (s : State) (ring slot : Nat) (f : Gather → Gather) : (s.modGather ring slot f).cal = s.cal := rfl
@[simp] theorem State.modGather_pw (s : State) (ring slot : Nat) (f : Gather → Gather) : (s.modGather ring slot f).pw = s.pw := rfl
@[simp] theorem State.modGather_mon (s : State) (ring slot : Nat) (f : Gather → Gather) : (s.modGather ring slot f).mon = s.mon := rfl
@[simp] theorem State.modGather_sb (s : State) (ring slot : Nat) (f : Gather → Gather) : (s.modGather ring slot f).sb = s.sb := rfl
@[simp] theorem State.modGather_grp (s : State) (ring slot : Nat) (f : Gather → Gather) : (s.modGather ring slot f).grp = s.grp := rfl
@[simp] theorem State.modGather_nv (s : State) (ring slot : Nat) (f : Gather → Gather) : (s.modGather ring slot f).nv = s.nv := rfl
@[simp] theorem State.modGather_get (s : State) (ring slot : Nat) (f : Gather → Gather) (j : Nat) : (s.modGather ring slot f).get j = s.get j := rfl
@[simp] theorem State.modGather_blob (s : State) (ring slot : Nat) (f : Gather → Gather) (j : Nat) : (s.modGather ring slot f).blob j = s.blob j := rfl

/-! ### modRowBlock -/

@[simp] theorem State.modRowBlock_objs (s : State) (n d b : Nat) (f : RowBlock → RowBlock) : (s.modRowBlock n d b f).objs = s.objs := rfl
@[simp] theorem State.modRowBlock_blobs (s : State) (n d b : Nat) (f : RowBlock → RowBlock) : (s.modRowBlock n d b f).blobs = s.blobs := rfl
@[simp] theorem State.modRowBlock_pending (s : State) (n d b : Nat) (f : RowBlock → RowBlock) : (s.modRowBlock n d b f).pending = s.pending := rfl
@[simp] theorem State.modRowBlock_out (s : State) (n d b : Nat) (f : RowBlock → RowBlock) : (s.modRowBlock n d b f).out = s.out := rfl
@[simp] theorem State.modRowBlock_now (s : State) (n d b : Nat) (f : RowBlock → RowBlock) : (s.modRowBlock n d b f).now = s.now := rfl
@[simp] theorem State.modRowBlock_coldAt (s : State) (n d b : Nat) (f : RowBlock → RowBlock) : (s.modRowBlock n d b f).coldAt = s.coldAt := rfl
@[simp] theorem State.modRowBlock_freeIdx (s : State) (n d b : Nat) (f : RowBlock → RowBlock) : (s.modRowBlock n d b f).freeIdx = s.freeIdx := rfl
@[simp] theorem State.modRowBlock_paths (s : State) (n d b : Nat) (f : RowBlock → RowBlock) : (s.modRowBlock n d b f).paths = s.paths := rfl
@[simp] theorem State.modRowBlock_ports (s : State) (n d b : Nat) (f : RowBlock → RowBlock) : (s.modRowBlock n d b f).ports = s.ports := rfl
@[simp] theorem State.modRowBlock_cf (s : State) (n d b : Nat) (f : RowBlock → RowBlock) : (s.modRowBlock n d b f).cf = s.cf := rfl
@[simp] theorem State.modRowBlock_rings (s : State) (n d b : Nat) (f : RowBlock → RowBlock) : (s.modRowBlock n d b f).rings = s.rings := rfl
@[simp] theorem State.modRowBlock_win (s : State) (n d b : Nat) (f : RowBlock → RowBlock) : (s.modRowBlock n d b f).win = s.win := rfl
@[simp] theorem State.modRowBlock_ev (s : State) (n d b : Nat) (f : RowBlock → RowBlock) : (s.modRowBlock n d b f).ev = s.ev := rfl
@[simp] theorem State.modRowBlock_fl (s : State) (n d b : Nat) (f : RowBlock → RowBlock) : (s.modRowBlock n d b f).fl = s.fl := rfl
@[simp] theorem State.modRowBlock_dram (s : State) (n d b : Nat) (f : RowBlock → RowBlock) : (s.modRowBlock n d b f).dram = s.dram := rfl
@[simp] theorem State.modRowBlock_cal (s : State) (n d b : Nat) (f : RowBlock → RowBlock) : (s.modRowBlock n d b f).cal = s.cal := rfl
@[simp] theorem State.modRowBlock_pw (s : State) (n d b : Nat) (f : RowBlock → RowBlock) : (s.modRowBlock n d b f).pw = s.pw := rfl
@[simp] theorem State.modRowBlock_mon (s : State) (n d b : Nat) (f : RowBlock → RowBlock) : (s.modRowBlock n d b f).mon = s.mon := rfl
@[simp] theorem State.modRowBlock_sb (s : State) (n d b : Nat) (f : RowBlock → RowBlock) : (s.modRowBlock n d b f).sb = s.sb := rfl
@[simp] theorem State.modRowBlock_grp (s : State) (n d b : Nat) (f : RowBlock → RowBlock) : (s.modRowBlock n d b f).grp = s.grp := rfl
@[simp] theorem State.modRowBlock_nv (s : State) (n d b : Nat) (f : RowBlock → RowBlock) : (s.modRowBlock n d b f).nv = s.nv := rfl
@[simp] theorem State.modRowBlock_get (s : State) (n d b : Nat) (f : RowBlock → RowBlock) (j : Nat) : (s.modRowBlock n d b f).get j = s.get j := rfl
@[simp] theorem State.modRowBlock_blob (s : State) (n d b : Nat) (f : RowBlock → RowBlock) (j : Nat) : (s.modRowBlock n d b f).blob j = s.blob j := rfl

/-! ### modDsub -/

@[simp] theorem State.modDsub_objs (s : State) (n : Nat) (f : DramSub → DramSub) : (s.modDsub n f).objs = s.objs := rfl
@[simp] theorem State.modDsub_blobs (s : State) (n : Nat) (f : DramSub → DramSub) : (s.modDsub n f).blobs = s.blobs := rfl
@[simp] theorem State.modDsub_pending (s : State) (n : Nat) (f : DramSub → DramSub) : (s.modDsub n f).pending = s.pending := rfl
@[simp] theorem State.modDsub_out (s : State) (n : Nat) (f : DramSub → DramSub) : (s.modDsub n f).out = s.out := rfl
@[simp] theorem State.modDsub_now (s : State) (n : Nat) (f : DramSub → DramSub) : (s.modDsub n f).now = s.now := rfl
@[simp] theorem State.modDsub_coldAt (s : State) (n : Nat) (f : DramSub → DramSub) : (s.modDsub n f).coldAt = s.coldAt := rfl
@[simp] theorem State.modDsub_freeIdx (s : State) (n : Nat) (f : DramSub → DramSub) : (s.modDsub n f).freeIdx = s.freeIdx := rfl
@[simp] theorem State.modDsub_paths (s : State) (n : Nat) (f : DramSub → DramSub) : (s.modDsub n f).paths = s.paths := rfl
@[simp] theorem State.modDsub_ports (s : State) (n : Nat) (f : DramSub → DramSub) : (s.modDsub n f).ports = s.ports := rfl
@[simp] theorem State.modDsub_cf (s : State) (n : Nat) (f : DramSub → DramSub) : (s.modDsub n f).cf = s.cf := rfl
@[simp] theorem State.modDsub_rings (s : State) (n : Nat) (f : DramSub → DramSub) : (s.modDsub n f).rings = s.rings := rfl
@[simp] theorem State.modDsub_win (s : State) (n : Nat) (f : DramSub → DramSub) : (s.modDsub n f).win = s.win := rfl
@[simp] theorem State.modDsub_ev (s : State) (n : Nat) (f : DramSub → DramSub) : (s.modDsub n f).ev = s.ev := rfl
@[simp] theorem State.modDsub_wr (s : State) (n : Nat) (f : DramSub → DramSub) : (s.modDsub n f).wr = s.wr := rfl
@[simp] theorem State.modDsub_fl (s : State) (n : Nat) (f : DramSub → DramSub) : (s.modDsub n f).fl = s.fl := rfl
@[simp] theorem State.modDsub_cal (s : State) (n : Nat) (f : DramSub → DramSub) : (s.modDsub n f).cal = s.cal := rfl
@[simp] theorem State.modDsub_pw (s : State) (n : Nat) (f : DramSub → DramSub) : (s.modDsub n f).pw = s.pw := rfl
@[simp] theorem State.modDsub_mon (s : State) (n : Nat) (f : DramSub → DramSub) : (s.modDsub n f).mon = s.mon := rfl
@[simp] theorem State.modDsub_sb (s : State) (n : Nat) (f : DramSub → DramSub) : (s.modDsub n f).sb = s.sb := rfl
@[simp] theorem State.modDsub_grp (s : State) (n : Nat) (f : DramSub → DramSub) : (s.modDsub n f).grp = s.grp := rfl
@[simp] theorem State.modDsub_nv (s : State) (n : Nat) (f : DramSub → DramSub) : (s.modDsub n f).nv = s.nv := rfl
@[simp] theorem State.modDsub_get (s : State) (n : Nat) (f : DramSub → DramSub) (j : Nat) : (s.modDsub n f).get j = s.get j := rfl
@[simp] theorem State.modDsub_blob (s : State) (n : Nat) (f : DramSub → DramSub) (j : Nat) : (s.modDsub n f).blob j = s.blob j := rfl

/-! ### modDrank -/

@[simp] theorem State.modDrank_objs (s : State) (n r : Nat) (f : DramRank → DramRank) : (s.modDrank n r f).objs = s.objs := rfl
@[simp] theorem State.modDrank_blobs (s : State) (n r : Nat) (f : DramRank → DramRank) : (s.modDrank n r f).blobs = s.blobs := rfl
@[simp] theorem State.modDrank_pending (s : State) (n r : Nat) (f : DramRank → DramRank) : (s.modDrank n r f).pending = s.pending := rfl
@[simp] theorem State.modDrank_out (s : State) (n r : Nat) (f : DramRank → DramRank) : (s.modDrank n r f).out = s.out := rfl
@[simp] theorem State.modDrank_now (s : State) (n r : Nat) (f : DramRank → DramRank) : (s.modDrank n r f).now = s.now := rfl
@[simp] theorem State.modDrank_coldAt (s : State) (n r : Nat) (f : DramRank → DramRank) : (s.modDrank n r f).coldAt = s.coldAt := rfl
@[simp] theorem State.modDrank_freeIdx (s : State) (n r : Nat) (f : DramRank → DramRank) : (s.modDrank n r f).freeIdx = s.freeIdx := rfl
@[simp] theorem State.modDrank_paths (s : State) (n r : Nat) (f : DramRank → DramRank) : (s.modDrank n r f).paths = s.paths := rfl
@[simp] theorem State.modDrank_ports (s : State) (n r : Nat) (f : DramRank → DramRank) : (s.modDrank n r f).ports = s.ports := rfl
@[simp] theorem State.modDrank_cf (s : State) (n r : Nat) (f : DramRank → DramRank) : (s.modDrank n r f).cf = s.cf := rfl
@[simp] theorem State.modDrank_rings (s : State) (n r : Nat) (f : DramRank → DramRank) : (s.modDrank n r f).rings = s.rings := rfl
@[simp] theorem State.modDrank_win (s : State) (n r : Nat) (f : DramRank → DramRank) : (s.modDrank n r f).win = s.win := rfl
@[simp] theorem State.modDrank_ev (s : State) (n r : Nat) (f : DramRank → DramRank) : (s.modDrank n r f).ev = s.ev := rfl
@[simp] theorem State.modDrank_wr (s : State) (n r : Nat) (f : DramRank → DramRank) : (s.modDrank n r f).wr = s.wr := rfl
@[simp] theorem State.modDrank_fl (s : State) (n r : Nat) (f : DramRank → DramRank) : (s.modDrank n r f).fl = s.fl := rfl
@[simp] theorem State.modDrank_cal (s : State) (n r : Nat) (f : DramRank → DramRank) : (s.modDrank n r f).cal = s.cal := rfl
@[simp] theorem State.modDrank_pw (s : State) (n r : Nat) (f : DramRank → DramRank) : (s.modDrank n r f).pw = s.pw := rfl
@[simp] theorem State.modDrank_mon (s : State) (n r : Nat) (f : DramRank → DramRank) : (s.modDrank n r f).mon = s.mon := rfl
@[simp] theorem State.modDrank_sb (s : State) (n r : Nat) (f : DramRank → DramRank) : (s.modDrank n r f).sb = s.sb := rfl
@[simp] theorem State.modDrank_grp (s : State) (n r : Nat) (f : DramRank → DramRank) : (s.modDrank n r f).grp = s.grp := rfl
@[simp] theorem State.modDrank_nv (s : State) (n r : Nat) (f : DramRank → DramRank) : (s.modDrank n r f).nv = s.nv := rfl
@[simp] theorem State.modDrank_get (s : State) (n r : Nat) (f : DramRank → DramRank) (j : Nat) : (s.modDrank n r f).get j = s.get j := rfl
@[simp] theorem State.modDrank_blob (s : State) (n r : Nat) (f : DramRank → DramRank) (j : Nat) : (s.modDrank n r f).blob j = s.blob j := rfl

/-! ### Objects -/

@[simp] theorem State.get_set_self (s : State) (k v : Nat) : (s.set k v).get k = v := by simp [State.get, State.set]
theorem State.get_set_ne (s : State) {k j : Nat} (v : Nat) (h : j ≠ k) : (s.set k v).get j = s.get j := by simp [State.get, State.set, h]
@[simp] theorem State.get_set (s : State) (k v j : Nat) : (s.set k v).get j = if j = k then v else s.get j := by
  by_cases h : j = k
  · subst h; simp
  · simp [State.get_set_ne, h]
@[simp] theorem State.blob_setBlob_self (s : State) (k : Nat) (ws : List Word) : (s.setBlob k ws).blob k = ws := by
  simp [State.blob, State.setBlob, SMap.getD]
theorem State.blob_setBlob_ne (s : State) {k j : Nat} (ws : List Word) (h : j ≠ k) : (s.setBlob k ws).blob j = s.blob j := by
  simp [State.blob, State.setBlob, SMap.getD, h]
@[simp] theorem State.port_modPort_self (s : State) (p : Nat) (f : Port → Port) : (s.modPort p f).port p = f (s.port p) := by
  simp [State.port, SMap.getD]
theorem State.port_modPort_ne (s : State) {p q : Nat} (f : Port → Port) (h : q ≠ p) : (s.modPort p f).port q = s.port q := by
  simp [State.port, SMap.getD, h]
@[simp] theorem State.pathState_modPath_self (s : State) (p : Path) (f : PathState → PathState) :
    (s.modPath p f).pathState p = f (s.pathState p) := by simp [State.pathState, SMap.getD]
@[simp] theorem State.chan_modChan_self (s : State) (c : Nat) (f : Channel → Channel) : (s.modChan c f).chan c = f (s.chan c) := by
  simp [State.chan, State.modChan, SMap.getD]
theorem State.chan_modChan_ne (s : State) {c e : Nat} (f : Channel → Channel) (h : e ≠ c) : (s.modChan c f).chan e = s.chan e := by
  simp [State.chan, State.modChan, SMap.getD, h]
@[simp] theorem State.die_modDie_self (s : State) (c d : Nat) (f : Die → Die) : (s.modDie c d f).die c d = f (s.die c d) := by
  simp [State.die, State.modDie, SMap.getD]
@[simp] theorem State.sset_modSet_self (s : State) (n : Nat) (f : StripeSet → StripeSet) : (s.modSet n f).sset n = f (s.sset n) := by
  simp [State.sset, State.modSet, SMap.getD]

/-! ### Conditional change -/

@[simp] theorem State.when_true (s : State) (f : State → State) : s.when true f = f s := rfl
@[simp] theorem State.when_false (s : State) (f : State → State) : s.when false f = s := rfl

/-! ### Reset -/

@[simp] theorem State.reset_get (k : Nat) : State.reset.get k = objDefault k := rfl
@[simp] theorem State.reset_blob (k : Nat) : State.reset.blob k = [] := rfl

end Sys2Proof.Machine
end

