-- ==== Sys2Proof/Laws/Almanac.lean ====
section
/-! SUPPORT. Laws/Almanac.lean: a transaction on one element: which element its header names, what a write of it that is no violation does, and
what a read of it that is no violation answers. -/

namespace Sys2Proof.Machine

@[simp] theorem State.awake_get (s : State) (k : Nat) : s.awake.get k = s.get k := rfl
@[simp] theorem State.awake_mode (s : State) : s.awake.mode = s.mode := rfl
@[simp] theorem State.awake_answers (s : State) (p : Path) : s.awake.answers p = s.answers p := rfl

theorem oneHeader_index (tag : BitVec 8) (idx sub typ : Nat) (h : idx < 65536) : (oneHeader tag idx sub typ).index.toNat = idx := by
  simp only [oneHeader, BitVec.toNat_ofNat]; omega
theorem oneHeader_sub (tag : BitVec 8) (idx sub typ : Nat) (h : sub < 256) : (oneHeader tag idx sub typ).sub.toNat = sub := by
  simp only [oneHeader, BitVec.toNat_ofNat]; omega
theorem oneHeader_typ (tag : BitVec 8) (idx sub typ : Nat) (h : typ < 16) : (oneHeader tag idx sub typ).typ.toNat = typ := by
  simp only [oneHeader, BitVec.toNat_ofNat]; omega
@[simp] theorem oneHeader_count (tag : BitVec 8) (idx sub typ : Nat) : (oneHeader tag idx sub typ).count.toNat = 1 := rfl
@[simp] theorem oneHeader_offset (tag : BitVec 8) (idx sub typ : Nat) : (oneHeader tag idx sub typ).offset = 0 := rfl

/-- The one element that a header of one element names. -/
theorem elemsOf_one (tag : BitVec 8) {idx sub typ inst : Nat} {r : ObjRow} (hi : idx < 65536) (hs : sub < 256)
    (ho : objAt idx sub = some (inst, r)) (hw : r.wordwise = false) : elemsOf (oneHeader tag idx sub typ) = some [⟨sub, inst, r⟩] := by
  simp [elemsOf, oneHeader_index, oneHeader_sub, hi, hs, ho, hw, List.range_succ]

theorem valueCount_one (tag : BitVec 8) (idx sub : Nat) {typ : Nat} (ht : typ < 16) :
    valueCount (oneHeader tag idx sub typ) = typeWords typ := by simp [valueCount, oneHeader_typ, ht]

theorem wordsNat_one (v : Word) : wordsNat [v] = v.toNat := by simp [wordsNat]

theorem typeWords_le (typ : Nat) : typeWords typ ≤ 2 := by unfold typeWords; split <;> omega

theorem pathWords_ge (p : Path) : 96 ≤ pathWords p := by cases p <;> decide

/-- The element of an access of one element that is no violation. -/
theorem named_one {s : State} {p : Path} (tag : BitVec 8) {idx sub typ inst : Nat} {r : ObjRow} (w : Bool) (hi : idx < 65536) (hs : sub < 256)
    (ht : typ < 16) (ho : objAt idx sub = some (inst, r)) (hw : r.wordwise = false) (hm : s.modeAllows idx w = true)
    (ha : s.allows p idx typ w ⟨sub, inst, r⟩ = true) : s.named p w (oneHeader tag idx sub typ) = some [⟨sub, inst, r⟩] := by
  have h1 := typeWords_le typ
  have h2 := pathWords_ge p
  have h3 : ¬ pathWords p < typeWords typ := by omega
  simp [State.named, oneHeader_index, oneHeader_typ, valueCount_one, hi, ht, hm, h3, elemsOf_one tag hi hs ho hw, ha]

/-- The parts of a write that is no violation. -/
theorem mayWrite_parts {s : State} {p : Path} {idx sub v inst : Nat} {r : ObjRow} (h : s.mayWrite p idx sub v = true)
    (ho : objAt idx sub = some (inst, r)) : s.answers p = true ∧ s.modeAllows idx true = true ∧ r.mask &&& s.classes p ≠ 0 ∧
      (match s.access idx r with | .rw => true | .wo => true | .rwp => true | _ => false) = true ∧
      s.valueOk p idx sub inst r v = true ∧ togetherOk idx [(sub, v &&& r.keep)] s = true := by
  unfold State.mayWrite at h
  rw [ho] at h
  simp only [Bool.and_eq_true, decide_eq_true_eq] at h
  exact ⟨h.1.1.1.1.1, h.1.1.1.1.2, h.1.1.1.2, h.1.1.2, h.1.2, h.2⟩

/-- The values of a write of one element. -/
theorem valuesOf_one (tag : BitVec 8) {idx sub typ : Nat} (e : Elem) (ws : List Word) (ht : typ < 16) (hl : ws.length = typeWords typ) :
    valuesOf (oneHeader tag idx sub typ) [e] ws = [(e, wordsNat ws)] := by
  have : ws.take (typeWords typ) = ws := List.take_of_length_le (by omega)
  simp [valuesOf, oneHeader_typ, ht, List.range_succ, this]

/-- A write of one element that is no violation is carried out whole (R49, R50): its values, and the state after it. -/
theorem almanacWrite_one {s : State} {p : Path} (tag : BitVec 8) {idx sub typ inst : Nat} {r : ObjRow} {ws : List Word}
    (hm : s.mayWrite p idx sub (wordsNat ws) = true) (ho : objAt idx sub = some (inst, r)) (hi : idx < 65536) (hs : sub < 256)
    (hc : r.ty.code = typ) (ht : typ < 16) (hw : r.wordwise = false) (hl : ws.length = typeWords typ) :
    almanacWrite p (oneHeader tag idx sub typ) ws s = ([(⟨sub, inst, r⟩, wordsNat ws)],
      if idx = 0xF3C2 ∨ idx = 0xF3D1 then broadcastWrite idx sub (wordsNat ws) s
      else if idx = 0x1011 then restoreDefaults p s
      else writeObj p idx sub inst r (wordsNat ws) s) := by
  obtain ⟨_, h2, h3, h4, h5, h6⟩ := mayWrite_parts hm ho
  have hn := named_one (s := s) (p := p) tag true hi hs ht ho hw h2 (by simp [State.allows, hc, h3]; exact h4)
  have hok : s.writeOk p (oneHeader tag idx sub typ) [⟨sub, inst, r⟩] ws = true := by
    simp [State.writeOk, valuesOf_one tag _ ws ht hl, hw, oneHeader_index, hi, h5, h6]
  simp only [almanacWrite, hn, hok, oneHeader_index tag idx sub typ hi]
  simp [hw, valuesOf_one tag _ ws ht hl, State.over]

/-- A write of one element that is no violation is served (R49): carried out, answered with its header, and what ends the path follows. -/
theorem serve_write_one {s : State} {p : Path} (tag : BitVec 8) {idx sub typ inst : Nat} {r : ObjRow} {ws : List Word}
    (hm : s.awake.mayWrite p idx sub (wordsNat ws) = true) (ho : objAt idx sub = some (inst, r)) (hi : idx < 65536) (hs : sub < 256)
    (hc : r.ty.code = typ) (ht : typ < 16) (hw : r.wordwise = false) (hl : ws.length = typeWords typ) :
    serve p 1 (oneHeader tag idx sub typ) ws s = afterEffect idx sub inst (wordsNat ws) (respond p 1 (oneHeader tag idx sub typ) []
      (if idx = 0xF3C2 ∨ idx = 0xF3D1 then broadcastWrite idx sub (wordsNat ws) s.awake
       else if idx = 0x1011 then restoreDefaults p s.awake
       else writeObj p idx sub inst r (wordsNat ws) s.awake)) := by
  have h1 := (mayWrite_parts hm ho).1
  have hx := almanacWrite_one (s := s.awake) tag hm ho hi hs hc ht hw hl
  have h0 : s.answers p = true := h1
  have hl' : ws.length = valueCount (oneHeader tag idx sub typ) := by rw [valueCount_one tag idx sub ht, hl]
  have ho2 : orderStores p 1 s.awake = s.awake := by simp [orderStores]
  have hv : serve p 1 (oneHeader tag idx sub typ) ws s
      = serveWith (respond p 1 (oneHeader tag idx sub typ)) p 1 (oneHeader tag idx sub typ) ws s := by
    simp [serve, h0, hl']
  rw [hv]
  have hs' : serveWith (respond p 1 (oneHeader tag idx sub typ)) p 1 (oneHeader tag idx sub typ) ws s
      = afterWrite (oneHeader tag idx sub typ).index.toNat (almanacWrite p (oneHeader tag idx sub typ) ws (orderStores p 1 s.awake)).1
        (respond p 1 (oneHeader tag idx sub typ) [] (almanacWrite p (oneHeader tag idx sub typ) ws (orderStores p 1 s.awake)).2) := rfl
  rw [hs', ho2, hx, oneHeader_index tag idx sub typ hi]
  simp [afterWrite, State.over]

/-- A read of one element that is no violation is answered with its words, and starts again what a read starts again (R49, R62, R393). -/
theorem serve_read_one {s : State} {p : Path} (tag : BitVec 8) {idx sub typ inst : Nat} {r : ObjRow}
    (hm : s.awake.mayRead p idx sub = true) (ho : objAt idx sub = some (inst, r)) (hi : idx < 65536) (hs : sub < 256)
    (hc : r.ty.code = typ) (ht : typ < 16) (hw : r.wordwise = false) :
    serve p 0 (oneHeader tag idx sub typ) [] s = respond p 0 (oneHeader tag idx sub typ) (s.awake.readElem p idx sub inst r)
      (readEffect idx sub s.awake) := by
  unfold State.mayRead at hm
  rw [ho] at hm
  simp only [Bool.and_eq_true, decide_eq_true_eq] at hm
  obtain ⟨⟨⟨h1, h2⟩, h3⟩, h4⟩ := hm
  have h0 : s.answers p = true := h1
  have hn := named_one (s := s.awake) (p := p) tag false hi hs ht ho hw h2 (by simp [State.allows, hc, h3, h4])
  have hx : almanacRead p (oneHeader tag idx sub typ) s.awake = (s.awake.readElem p idx sub inst r, readEffect idx sub s.awake) := by
    simp [almanacRead, hn, hw, oneHeader_index, hi]
  have hv : serve p 0 (oneHeader tag idx sub typ) [] s
      = serveWith (respond p 0 (oneHeader tag idx sub typ)) p 0 (oneHeader tag idx sub typ) [] s := by simp [serve, h0]
  rw [hv]
  have ho2 : orderStores p 0 s.awake = s.awake := by simp [orderStores]
  have hs' : serveWith (respond p 0 (oneHeader tag idx sub typ)) p 0 (oneHeader tag idx sub typ) [] s
      = respond p 0 (oneHeader tag idx sub typ) (almanacRead p (oneHeader tag idx sub typ) (orderStores p 0 s.awake)).1
        (almanacRead p (oneHeader tag idx sub typ) (orderStores p 0 s.awake)).2 := rfl
  rw [hs', ho2, hx]

/-- A write to a write-only object is its effect alone (R38). -/
theorem writeObj_wo (p : Path) (idx sub inst : Nat) {r : ObjRow} (v : Nat) (s : State) (h : r.acc = .wo) :
    writeObj p idx sub inst r v s = writeEffect p idx sub inst (v &&& r.keep) s := by
  simp [writeObj, h, State.when]

/-! ## Families of objects -/

theorem objAt_ring (n : Fin 8192) {sub : Nat} {r : ObjRow} (h0 : sub ≠ 0) (h : rowsXA000_n.find? (fun r => r.lo ≤ sub ∧ sub ≤ r.hi) = some r) :
    objAt (0xA000 + n.val) sub = some (n.val, r) := by
  have h1 := n.isLt
  have e : rowsAt (0xA000 + n.val) = some (n.val, rowsXA000_n) := by
    unfold rowsAt
    (repeat rw [if_neg (by omega)]); rw [if_pos (by omega)]
    simp
  unfold objAt rowOf
  rw [if_neg h0, e]
  simp only [h]
  rw [if_neg (by omega)]

theorem objAt_cring (m : Fin 4096) {sub : Nat} {r : ObjRow} (h0 : sub ≠ 0) (h : rowsXC000_m.find? (fun r => r.lo ≤ sub ∧ sub ≤ r.hi) = some r) :
    objAt (0xC000 + m.val) sub = some (m.val, r) := by
  have h1 := m.isLt
  have e : rowsAt (0xC000 + m.val) = some (m.val, rowsXC000_m) := by
    unfold rowsAt
    (repeat rw [if_neg (by omega)]); rw [if_pos (by omega)]
    simp
  unfold objAt rowOf
  rw [if_neg h0, e]
  simp only [h]
  rw [if_neg (by omega)]

theorem objAt_set (n : Fin 8) {sub : Nat} {r : ObjRow} (h0 : sub ≠ 0) (h : rowsX5010_s.find? (fun r => r.lo ≤ sub ∧ sub ≤ r.hi) = some r) :
    objAt (0x5010 + n.val) sub = some (n.val, r) := by
  have h1 := n.isLt
  have e : rowsAt (0x5010 + n.val) = some (n.val, rowsX5010_s) := by
    unfold rowsAt
    (repeat rw [if_neg (by omega)]); rw [if_pos (by omega)]
    simp
  unfold objAt rowOf
  rw [if_neg h0, e]
  simp only [h]
  rw [if_neg (by omega)]

theorem objAt_dsub (n : Fin 8) {sub : Nat} {r : ObjRow} (h0 : sub ≠ 0) (h : rowsX4010_s.find? (fun r => r.lo ≤ sub ∧ sub ≤ r.hi) = some r) :
    objAt (0x4010 + n.val) sub = some (n.val, r) := by
  have h1 := n.isLt
  have e : rowsAt (0x4010 + n.val) = some (n.val, rowsX4010_s) := by
    unfold rowsAt
    (repeat rw [if_neg (by omega)]); rw [if_pos (by omega)]
    simp
  unfold objAt rowOf
  rw [if_neg h0, e]
  simp only [h]
  rw [if_neg (by omega)]

theorem objAt_sample (n : Fin 48) {sub : Nat} {r : ObjRow} (h0 : sub ≠ 0) (h : rowsX3100_i.find? (fun r => r.lo ≤ sub ∧ sub ≤ r.hi) = some r) :
    objAt (0x3100 + n.val) sub = some (n.val, r) := by
  have h1 := n.isLt
  have e : rowsAt (0x3100 + n.val) = some (n.val, rowsX3100_i) := by
    unfold rowsAt
    (repeat rw [if_neg (by omega)]); rw [if_pos (by omega)]
    simp
  unfold objAt rowOf
  rw [if_neg h0, e]
  simp only [h]
  rw [if_neg (by omega)]

/-- An event source that exists has its objects. -/
theorem objAt_source (n : Fin 1536) {sub : Nat} {r : ObjRow} (h0 : sub ≠ 0) (hx : sourceExists n.val = true)
    (h : rowsXD000_n.find? (fun r => r.lo ≤ sub ∧ sub ≤ r.hi) = some r) : objAt (0xD000 + n.val) sub = some (n.val, r) := by
  have h1 := n.isLt
  have e : rowsAt (0xD000 + n.val) = some (n.val, rowsXD000_n) := by
    unfold rowsAt
    have hx' : sourceExists (0xD000 + n.val - 0xD000) = true := by rw [Nat.add_sub_cancel_left]; exact hx
    (repeat rw [if_neg (by omega)]); rw [if_pos ⟨by omega, by omega, hx'⟩, Nat.add_sub_cancel_left]
  unfold objAt rowOf
  rw [if_neg h0, e]
  simp only [h]
  rw [if_neg (by omega)]

/-- A channel's object, from the rows of its offset. -/
theorem objAt_channel (c : Fin 96) {off sub : Nat} {rows : List ObjRow} {r : ObjRow} (hoff : off < 64) (h0 : sub ≠ 0)
    (hrows : rowsAt (0x6000 + off) = some (0, rows)) (h : rows.find? (fun r => r.lo ≤ sub ∧ sub ≤ r.hi) = some r) :
    objAt (0x6000 + off + 0x40 * c.val) sub = some (c.val, r) := by
  have h1 := c.isLt
  have e : rowsAt (0x6000 + off + 0x40 * c.val) = some (c.val, rows) := by
    unfold rowsAt at hrows ⊢
    rw [if_pos (by omega)] at hrows ⊢
    have e1 : (0x6000 + off + 0x40 * c.val - 0x6000) % 0x40 = off := by omega
    have e2 : (0x6000 + off + 0x40 * c.val - 0x6000) / 0x40 = c.val := by omega
    have e3 : (0x6000 + off - 0x6000) % 0x40 = off := by rw [Nat.add_sub_cancel_left]; exact Nat.mod_eq_of_lt (by omega)
    have e4 : (0x6000 + off - 0x6000) / 0x40 = 0 := by rw [Nat.add_sub_cancel_left]; exact Nat.div_eq_of_lt (by omega)
    rw [e3, e4] at hrows
    rw [e1, e2]
    rw [Option.map_eq_some_iff] at hrows ⊢
    obtain ⟨x, hx, hy⟩ := hrows
    simp only [Prod.mk.injEq, true_and] at hy
    subst hy
    exact ⟨x, hx, rfl⟩
  unfold objAt rowOf
  rw [if_neg h0, e]
  simp only [h]
  rw [if_neg (by omega)]

/-- A port's object, from the rows of its offset below the lane arrays. -/
theorem objAt_port (q : Fin 3) {off sub : Nat} {rows : List ObjRow} {r : ObjRow} (hoff : off < 4) (h0 : sub ≠ 0)
    (hrows : rowsAt (0x8800 + off) = some (0, rows)) (h : rows.find? (fun r => r.lo ≤ sub ∧ sub ≤ r.hi) = some r) :
    objAt (0x8800 + off + 0x40 * q.val) sub = some (q.val, r) := by
  have h1 := q.isLt
  have e : rowsAt (0x8800 + off + 0x40 * q.val) = some (q.val, rows) := by
    unfold rowsAt at hrows ⊢
    rw [if_neg (by omega), if_pos (by omega)] at hrows ⊢
    have e1 : (0x8800 + off + 0x40 * q.val - 0x8800) % 0x40 = off := by omega
    have e2 : (0x8800 + off + 0x40 * q.val - 0x8800) / 0x40 = q.val := by omega
    have e3 : (0x8800 + off - 0x8800) % 0x40 = off := by rw [Nat.add_sub_cancel_left]; exact Nat.mod_eq_of_lt (by omega)
    have e4 : (0x8800 + off - 0x8800) / 0x40 = 0 := by rw [Nat.add_sub_cancel_left]; exact Nat.div_eq_of_lt (by omega)
    rw [e3, e4] at hrows
    rw [e1, e2]
    rw [Option.map_eq_some_iff] at hrows ⊢
    obtain ⟨x, hx, hy⟩ := hrows
    simp only [Prod.mk.injEq, true_and] at hy
    subst hy
    exact ⟨x, hx, rfl⟩
  unfold objAt rowOf
  rw [if_neg h0, e]
  simp only [h]
  rw [if_neg (by omega)]

/-! ## What a write of a family's object does -/

/-- Nothing follows the response of a write to an object that cannot end the path. -/
theorem afterEffect_none {idx : Nat} (sub inst v : Nat) (s : State) (h1 : idx ≠ 0x2000) (h2 : idx ≠ 0xE080) (h3 : idx < 0x8800 ∨ 0x88C0 ≤ idx) :
    afterEffect idx sub inst v s = s := by
  unfold afterEffect
  repeat rw [if_neg (by omega)]

theorem writeEffect_ring (p : Path) {idx : Nat} (sub inst v : Nat) (s : State) (h1 : 0xA000 ≤ idx) (h2 : idx < 0xC000) :
    writeEffect p idx sub inst v s = (match sub with
      | 1 => ringEnableEffect inst v s
      | 4 => s.modRings (fun r => { r with noPlace := SMap.erase r.noPlace inst })
      | 14 => if v = 1 then abortRingEffect inst s else s
      | _ => s) := by
  unfold writeEffect
  extract_lets cmd
  split <;> first | omega | (rw [if_neg (by omega), if_pos (by omega)] <;> split <;> first | rfl | simp_all)

theorem writeEffect_cring (p : Path) {idx : Nat} (sub inst v : Nat) (s : State) (h1 : 0xC000 ≤ idx) (h2 : idx < 0xD000) :
    writeEffect p idx sub inst v s = (match sub with
      | 1 => cringEnableEffect inst v s
      | 4 | 5 => noticeCheck inst s
      | 6 => if v = 1 then noticeCheck inst s else s
      | _ => s) := by
  unfold writeEffect
  extract_lets cmd
  split <;> first | omega | ((repeat rw [if_neg (by omega)]); rw [if_pos (by omega)] <;> split <;> first | rfl | simp_all)

theorem writeEffect_set (p : Path) {idx : Nat} (sub inst v : Nat) (s : State) (h1 : 0x5010 ≤ idx) (h2 : idx < 0x5018) :
    writeEffect p idx sub inst v s = (match sub with
      | 7 => logicalUnitsEffect inst v s
      | 18 => if v = 1 then rebuildStartEffect inst s else s
      | _ => s) := by
  unfold writeEffect
  extract_lets cmd
  split <;> first | omega | ((repeat rw [if_neg (by omega)]); rw [if_pos (by omega)] <;> split <;> first | rfl | simp_all)

theorem writeEffect_dsub (p : Path) {idx : Nat} (sub inst v : Nat) (s : State) (h1 : 0x4010 ≤ idx) (h2 : idx < 0x4018) :
    writeEffect p idx sub inst v s = if sub = 9 then retireRankEffect inst v s else s := by
  unfold writeEffect
  extract_lets cmd
  split <;> first | omega | ((repeat rw [if_neg (by omega)]); rw [if_pos (by omega)])

theorem writeEffect_source (p : Path) {idx : Nat} (sub inst v : Nat) (s : State) (h1 : 0xD000 ≤ idx) (h2 : idx < 0xD600) :
    writeEffect p idx sub inst v s = if sub = 7 then (if v = 1 then clearEffect inst s else s) else s := by
  unfold writeEffect
  extract_lets cmd
  split <;> first | omega |
    ((repeat rw [if_neg (by omega)]); rw [if_pos (by omega)])

theorem writeEffect_port (p : Path) {idx : Nat} (sub inst v : Nat) (s : State) (h1 : 0x8800 ≤ idx) (h2 : idx < 0x88C0) :
    writeEffect p idx sub inst v s = s := by
  unfold writeEffect
  extract_lets cmd
  split <;> first | omega |
    (repeat rw [if_neg (by omega)])

theorem writeEffect_isolate (p : Path) (c : Fin 96) (inst : Nat) (s : State) :
    writeEffect p (0x6001 + 0x40 * c.val) 4 inst 1 s = adminIsolateEffect inst s := by
  have h := c.isLt
  have e : (0x6001 + 0x40 * c.val - 0x6000) % 0x40 = 1 := by omega
  unfold writeEffect
  extract_lets cmd
  split <;> first | omega | (rw [if_pos (by omega), e]; rfl)

theorem writeEffect_recalibrate (p : Path) (c : Fin 96) (inst : Nat) (s : State) :
    writeEffect p (0x6003 + 0x40 * c.val) 5 inst 1 s = recalibrateEffect inst s := by
  have h := c.isLt
  have e : (0x6003 + 0x40 * c.val - 0x6000) % 0x40 = 3 := by omega
  unfold writeEffect
  extract_lets cmd
  split <;> first | omega | (rw [if_pos (by omega), e]; rfl)

end Sys2Proof.Machine
end

