-- ==== Sys2Proof/Laws/Events.lean ====
section
/-! SUPPORT. Laws/Events.lean: what an occurrence of an event source, a descriptor handed to code flash, a completion posted and a packet handed to a
port leave as it was. -/

namespace Sys2Proof.Machine

/-- Everything but the objects, the events, code flash with its areas, and the number of draws. -/
def State.quiet (s : State) :=
  (s.blobs, s.pending, s.out, s.now, s.coldAt, s.paths, s.ports, s.rings, s.win, s.wr, s.fl, s.dram, s.cal, s.pw, s.mon, s.sb, s.grp)

@[simp] theorem quiet_set (s : State) (k v : Nat) : (s.set k v).quiet = s.quiet := rfl
@[simp] theorem quiet_inc (s : State) (k : Nat) : (s.inc k).quiet = s.quiet := rfl
@[simp] theorem quiet_objs (s : State) (o : SMap Nat) : State.quiet { s with objs := o } = s.quiet := rfl
@[simp] theorem quiet_ev (s : State) (v : Events) : State.quiet { s with ev := v } = s.quiet := rfl
@[simp] theorem quiet_cf (s : State) (c : CodeFlash) : State.quiet { s with cf := c } = s.quiet := rfl
@[simp] theorem quiet_nv (s : State) (n : Nv) : State.quiet { s with nv := n } = s.quiet := rfl
@[simp] theorem quiet_freeIdx (s : State) (n : Nat) : State.quiet { s with freeIdx := n } = s.quiet := rfl

theorem quiet_when (s : State) (c : Bool) (f : State → State) (h : ∀ s, (f s).quiet = s.quiet) : (s.when c f).quiet = s.quiet := by
  unfold State.when
  split
  · exact h s
  · rfl

/-! ### Code flash -/

@[simp] theorem cfNext_quiet (s : State) : (cfNext s).quiet = s.quiet := by
  unfold cfNext
  split
  · rfl
  · extract_lets classes
    split <;> rfl

@[simp] theorem cfPush_quiet (opcode cls addr count sram : Nat) (data : List Word) (why : CfPurpose) (s : State) :
    (cfPush opcode cls addr count sram data why s).quiet = s.quiet := by
  unfold cfPush
  simp

@[simp] theorem cfAppend_quiet (a : Area) (cls : Nat) (ws : List Word) (why : CfPurpose) (s : State) :
    (cfAppend a cls ws why s).quiet = s.quiet := by
  unfold cfAppend
  generalize areaSpan a = b
  obtain ⟨base, n⟩ := b
  simp only [cfPush_quiet, quiet_nv]
  exact quiet_when _ _ _ (fun s => cfPush_quiet _ _ _ _ _ _ _ s)

@[simp] theorem cfSave_quiet (k : SaveKind) (s : State) : (cfSave k s).quiet = s.quiet := by
  unfold cfSave
  simp [State.free]

/-! ### Events -/

@[simp] theorem occurQuiet_quiet (n arg : Nat) (s : State) : (occurQuiet n arg s).quiet = s.quiet := by
  unfold occurQuiet
  extract_lets s1 s2 s3 s4
  have h4 : s4.quiet = s.quiet := by
    show (ite _ _ _ : State).quiet = _
    split
    · rfl
    · exact quiet_when _ _ _ (fun _ => rfl)
  split
  · split
    · exact h4
    · exact h4
  · exact h4

@[simp] theorem logEvent_quiet (n arg : Nat) (s : State) : (logEvent n arg s).quiet = s.quiet := by
  unfold logEvent
  split
  · rfl
  · split
    · split
      · rfl
      · exact occurQuiet_quiet 1172 0 s
    · unfold logWrite
      extract_lets recent r
      split
      · exact cfAppend_quiet _ _ _ _ _
      · exact occurQuiet_quiet 1172 0 _

/-- An occurrence changes only objects, the event queue and code flash. -/
@[simp] theorem occur_quiet (n arg : Nat) (s : State) : (occur n arg s).quiet = s.quiet := by
  unfold occur
  extract_lets logged u
  exact (quiet_when _ _ _ (fun s => logEvent_quiet n arg s)).trans (occurQuiet_quiet n arg s)

theorem quiet_fields {s t : State} (h : t.quiet = s.quiet) : t.blobs = s.blobs ∧ t.pending = s.pending ∧ t.out = s.out ∧ t.now = s.now ∧ t.coldAt = s.coldAt ∧ t.paths = s.paths ∧ t.ports = s.ports ∧ t.rings = s.rings ∧ t.win = s.win ∧ t.wr = s.wr ∧ t.fl = s.fl ∧ t.dram = s.dram ∧ t.cal = s.cal ∧ t.pw = s.pw ∧ t.mon = s.mon ∧ t.sb = s.sb ∧ t.grp = s.grp := by
  simpa [State.quiet] using h

@[simp] theorem occur_blobs (n arg : Nat) (s : State) : (occur n arg s).blobs = s.blobs := (quiet_fields (occur_quiet n arg s)).1
@[simp] theorem occur_pending (n arg : Nat) (s : State) : (occur n arg s).pending = s.pending := (quiet_fields (occur_quiet n arg s)).2.1
@[simp] theorem occur_out (n arg : Nat) (s : State) : (occur n arg s).out = s.out := (quiet_fields (occur_quiet n arg s)).2.2.1
@[simp] theorem occur_now (n arg : Nat) (s : State) : (occur n arg s).now = s.now := (quiet_fields (occur_quiet n arg s)).2.2.2.1
@[simp] theorem occur_coldAt (n arg : Nat) (s : State) : (occur n arg s).coldAt = s.coldAt := (quiet_fields (occur_quiet n arg s)).2.2.2.2.1
@[simp] theorem occur_paths (n arg : Nat) (s : State) : (occur n arg s).paths = s.paths := (quiet_fields (occur_quiet n arg s)).2.2.2.2.2.1
@[simp] theorem occur_ports (n arg : Nat) (s : State) : (occur n arg s).ports = s.ports := (quiet_fields (occur_quiet n arg s)).2.2.2.2.2.2.1
@[simp] theorem occur_rings (n arg : Nat) (s : State) : (occur n arg s).rings = s.rings := (quiet_fields (occur_quiet n arg s)).2.2.2.2.2.2.2.1
@[simp] theorem occur_win (n arg : Nat) (s : State) : (occur n arg s).win = s.win := (quiet_fields (occur_quiet n arg s)).2.2.2.2.2.2.2.2.1
@[simp] theorem occur_wr (n arg : Nat) (s : State) : (occur n arg s).wr = s.wr := (quiet_fields (occur_quiet n arg s)).2.2.2.2.2.2.2.2.2.1
@[simp] theorem occur_fl (n arg : Nat) (s : State) : (occur n arg s).fl = s.fl := (quiet_fields (occur_quiet n arg s)).2.2.2.2.2.2.2.2.2.2.1
@[simp] theorem occur_dram (n arg : Nat) (s : State) : (occur n arg s).dram = s.dram := (quiet_fields (occur_quiet n arg s)).2.2.2.2.2.2.2.2.2.2.2.1
@[simp] theorem occur_cal (n arg : Nat) (s : State) : (occur n arg s).cal = s.cal := (quiet_fields (occur_quiet n arg s)).2.2.2.2.2.2.2.2.2.2.2.2.1
@[simp] theorem occur_pw (n arg : Nat) (s : State) : (occur n arg s).pw = s.pw := (quiet_fields (occur_quiet n arg s)).2.2.2.2.2.2.2.2.2.2.2.2.2.1
@[simp] theorem occur_mon (n arg : Nat) (s : State) : (occur n arg s).mon = s.mon := (quiet_fields (occur_quiet n arg s)).2.2.2.2.2.2.2.2.2.2.2.2.2.2.1
@[simp] theorem occur_sb (n arg : Nat) (s : State) : (occur n arg s).sb = s.sb := (quiet_fields (occur_quiet n arg s)).2.2.2.2.2.2.2.2.2.2.2.2.2.2.2.1
@[simp] theorem occur_grp (n arg : Nat) (s : State) : (occur n arg s).grp = s.grp := (quiet_fields (occur_quiet n arg s)).2.2.2.2.2.2.2.2.2.2.2.2.2.2.2.2

theorem evKey_ne {n sub j : Nat} (hs : sub < 256) (h : j / 256 ≠ 0xD000 + n) : j ≠ key (0xD000 + n) sub := by
  unfold key
  omega

/-- An occurrence without its log record writes only the objects of its source. -/
theorem occurQuiet_get (n arg : Nat) (s : State) {j : Nat} (h : j / 256 ≠ 0xD000 + n) : (occurQuiet n arg s).get j = s.get j := by
  have p1 : j ≠ K.evCount n := evKey_ne (by decide) h
  have p2 : j ≠ K.evLastArgument n := evKey_ne (by decide) h
  have p3 : j ≠ K.evLastUptime n := evKey_ne (by decide) h
  have p4 : j ≠ K.evLatched n := evKey_ne (by decide) h
  have p5 : j ≠ K.evPending n := evKey_ne (by decide) h
  unfold occurQuiet
  extract_lets s1 s2 s3 s4
  have h3 : s3.get j = s.get j := by simp [s3, s2, s1, State.inc, State.add, State.get_set, p1, p2, p3]
  have h4 : s4.get j = s.get j := by
    show (ite _ _ _ : State).get j = _
    split
    · exact h3
    · unfold State.when
      split
      · exact (State.get_set_ne _ _ p4).trans h3
      · exact (State.get_set_ne _ _ p4).trans h3
  split
  · split
    · exact h4
    · exact (State.get_set_ne _ _ p5).trans h4
  · exact h4

theorem objs_when (s : State) (c : Bool) (f : State → State) (h : ∀ s, (f s).objs = s.objs) : (s.when c f).objs = s.objs := by
  unfold State.when
  split
  · exact h s
  · rfl

@[simp] theorem cfNext_objs (s : State) : (cfNext s).objs = s.objs := by
  unfold cfNext
  split
  · rfl
  · extract_lets classes
    split <;> rfl

@[simp] theorem cfPush_objs (opcode cls addr count sram : Nat) (data : List Word) (why : CfPurpose) (s : State) :
    (cfPush opcode cls addr count sram data why s).objs = s.objs := by
  unfold cfPush
  simp

@[simp] theorem cfAppend_objs (a : Area) (cls : Nat) (ws : List Word) (why : CfPurpose) (s : State) :
    (cfAppend a cls ws why s).objs = s.objs := by
  unfold cfAppend
  generalize areaSpan a = b
  obtain ⟨base, n⟩ := b
  simp only [cfPush_objs]
  exact objs_when _ _ _ (fun s => cfPush_objs _ _ _ _ _ _ _ s)

@[simp] theorem cfSave_objs (k : SaveKind) (s : State) : (cfSave k s).objs = s.objs := by
  unfold cfSave
  simp [State.free]

theorem State.get_of_objs {s t : State} (h : t.objs = s.objs) (j : Nat) : t.get j = s.get j := by unfold State.get; rw [h]

/-- A log record writes at most the objects of LogThrottled. -/
theorem logEvent_get (n arg : Nat) (s : State) {j : Nat} (h : j / 256 ≠ 0xD000 + 1172) : (logEvent n arg s).get j = s.get j := by
  unfold logEvent
  split
  · rfl
  · split
    · split
      · rfl
      · exact occurQuiet_get 1172 0 s h
    · unfold logWrite
      extract_lets recent r
      split
      · exact State.get_of_objs (cfAppend_objs _ _ _ _ _) j
      · exact occurQuiet_get 1172 0 _ h

/-- An occurrence writes only the objects of its source, and of LogThrottled. -/
theorem occur_get (n arg : Nat) (s : State) {j : Nat} (h : j / 256 ≠ 0xD000 + n) (h' : j / 256 ≠ 0xD000 + 1172) : (occur n arg s).get j = s.get j := by
  unfold occur
  extract_lets logged u
  unfold State.when
  split
  · exact (logEvent_get n arg _ h').trans (occurQuiet_get n arg s h)
  · exact occurQuiet_get n arg s h

end Sys2Proof.Machine
end

