-- ==== Sys2Proof/Laws/Sending.lean ====
section
/-! SUPPORT. Laws/Sending.lean: what a packet handed to a port, a notice and a posted completion leave as they were. -/

namespace Sys2Proof.Machine

/-- Everything but the objects, the ports and the outputs. -/
def State.still (s : State) :=
  (s.blobs, s.pending, s.now, s.coldAt, s.freeIdx, s.paths, s.cf, s.rings, s.win, s.ev, s.wr, s.fl, s.dram, s.cal, s.pw, s.mon, s.sb, s.grp, s.nv)

/-- What each change of a run leaves as it was, the whole run does. -/
theorem over_keeps {α β : Type} (g : State → β) (f : State → α → State) (h : ∀ s a, g (f s a) = g s) (l : List α) (s : State) :
    g (s.over l f) = g s := by
  unfold State.over
  induction l generalizing s with
  | nil => rfl
  | cons a l ih => exact (ih (f s a)).trans (h s a)

theorem pumpOnce_still (p : Nat) (s : State) : (pumpOnce p s).still = s.still := by
  unfold pumpOnce
  extract_lets pt
  split
  · generalize pumpGo _ _ _ _ _ _ = r
    obtain ⟨a, sent⟩ := r
    rfl
  · rfl

theorem pump_still (p : Nat) (s : State) : (pump p s).still = s.still :=
  (over_keeps State.still (fun s _ => pumpOnce p (s.modPort p acceptThrough)) (fun _ _ => (pumpOnce_still p _).trans rfl)
    ((pumpOnce p s).port p).through (pumpOnce p s)).trans (pumpOnce_still p s)

theorem sendPacket_still (p : Nat) (k : Packet) (s : State) : (sendPacket p k s).still = s.still := by
  unfold sendPacket
  split
  · rfl
  · exact (pump_still p _).trans rfl

theorem still_fields {s t : State} (h : t.still = s.still) : t.blobs = s.blobs ∧ t.pending = s.pending ∧ t.now = s.now ∧ t.coldAt = s.coldAt ∧ t.freeIdx = s.freeIdx ∧ t.paths = s.paths ∧ t.cf = s.cf ∧ t.rings = s.rings ∧ t.win = s.win ∧ t.ev = s.ev ∧ t.wr = s.wr ∧ t.fl = s.fl ∧ t.dram = s.dram ∧ t.cal = s.cal ∧ t.pw = s.pw ∧ t.mon = s.mon ∧ t.sb = s.sb ∧ t.grp = s.grp ∧ t.nv = s.nv := by
  simpa [State.still] using h

@[simp] theorem sendPacket_blobs (p : Nat) (k : Packet) (s : State) : (sendPacket p k s).blobs = s.blobs := (still_fields (sendPacket_still p k s)).1
@[simp] theorem sendPacket_pending (p : Nat) (k : Packet) (s : State) : (sendPacket p k s).pending = s.pending := (still_fields (sendPacket_still p k s)).2.1
@[simp] theorem sendPacket_now (p : Nat) (k : Packet) (s : State) : (sendPacket p k s).now = s.now := (still_fields (sendPacket_still p k s)).2.2.1
@[simp] theorem sendPacket_coldAt (p : Nat) (k : Packet) (s : State) : (sendPacket p k s).coldAt = s.coldAt := (still_fields (sendPacket_still p k s)).2.2.2.1
@[simp] theorem sendPacket_freeIdx (p : Nat) (k : Packet) (s : State) : (sendPacket p k s).freeIdx = s.freeIdx := (still_fields (sendPacket_still p k s)).2.2.2.2.1
@[simp] theorem sendPacket_paths (p : Nat) (k : Packet) (s : State) : (sendPacket p k s).paths = s.paths := (still_fields (sendPacket_still p k s)).2.2.2.2.2.1
@[simp] theorem sendPacket_cf (p : Nat) (k : Packet) (s : State) : (sendPacket p k s).cf = s.cf := (still_fields (sendPacket_still p k s)).2.2.2.2.2.2.1
@[simp] theorem sendPacket_rings (p : Nat) (k : Packet) (s : State) : (sendPacket p k s).rings = s.rings := (still_fields (sendPacket_still p k s)).2.2.2.2.2.2.2.1
@[simp] theorem sendPacket_win (p : Nat) (k : Packet) (s : State) : (sendPacket p k s).win = s.win := (still_fields (sendPacket_still p k s)).2.2.2.2.2.2.2.2.1
@[simp] theorem sendPacket_ev (p : Nat) (k : Packet) (s : State) : (sendPacket p k s).ev = s.ev := (still_fields (sendPacket_still p k s)).2.2.2.2.2.2.2.2.2.1
@[simp] theorem sendPacket_wr (p : Nat) (k : Packet) (s : State) : (sendPacket p k s).wr = s.wr := (still_fields (sendPacket_still p k s)).2.2.2.2.2.2.2.2.2.2.1
@[simp] theorem sendPacket_fl (p : Nat) (k : Packet) (s : State) : (sendPacket p k s).fl = s.fl := (still_fields (sendPacket_still p k s)).2.2.2.2.2.2.2.2.2.2.2.1
@[simp] theorem sendPacket_dram (p : Nat) (k : Packet) (s : State) : (sendPacket p k s).dram = s.dram := (still_fields (sendPacket_still p k s)).2.2.2.2.2.2.2.2.2.2.2.2.1
@[simp] theorem sendPacket_cal (p : Nat) (k : Packet) (s : State) : (sendPacket p k s).cal = s.cal := (still_fields (sendPacket_still p k s)).2.2.2.2.2.2.2.2.2.2.2.2.2.1
@[simp] theorem sendPacket_pw (p : Nat) (k : Packet) (s : State) : (sendPacket p k s).pw = s.pw := (still_fields (sendPacket_still p k s)).2.2.2.2.2.2.2.2.2.2.2.2.2.2.1
@[simp] theorem sendPacket_mon (p : Nat) (k : Packet) (s : State) : (sendPacket p k s).mon = s.mon := (still_fields (sendPacket_still p k s)).2.2.2.2.2.2.2.2.2.2.2.2.2.2.2.1
@[simp] theorem sendPacket_sb (p : Nat) (k : Packet) (s : State) : (sendPacket p k s).sb = s.sb := (still_fields (sendPacket_still p k s)).2.2.2.2.2.2.2.2.2.2.2.2.2.2.2.2.1
@[simp] theorem sendPacket_grp (p : Nat) (k : Packet) (s : State) : (sendPacket p k s).grp = s.grp := (still_fields (sendPacket_still p k s)).2.2.2.2.2.2.2.2.2.2.2.2.2.2.2.2.2.1
@[simp] theorem sendPacket_nv (p : Nat) (k : Packet) (s : State) : (sendPacket p k s).nv = s.nv := (still_fields (sendPacket_still p k s)).2.2.2.2.2.2.2.2.2.2.2.2.2.2.2.2.2.2

/-- A port that sends writes its FlitsSent and no other object. -/
theorem pumpOnce_get (p : Nat) (s : State) {j : Nat} (h : j ≠ K.portFlitsSent p) : (pumpOnce p s).get j = s.get j := by
  unfold pumpOnce
  extract_lets pt
  split
  · generalize pumpGo _ _ _ _ _ _ = r
    obtain ⟨a, sent⟩ := r
    exact State.get_set_ne _ _ h
  · rfl

theorem pump_get (p : Nat) (s : State) {j : Nat} (h : j ≠ K.portFlitsSent p) : (pump p s).get j = s.get j :=
  (over_keeps (fun s => s.get j) (fun s _ => pumpOnce p (s.modPort p acceptThrough)) (fun _ _ => (pumpOnce_get p _ h).trans rfl)
    ((pumpOnce p s).port p).through (pumpOnce p s)).trans (pumpOnce_get p s h)

theorem sendPacket_get (p : Nat) (k : Packet) (s : State) {j : Nat} (h : j ≠ K.portFlitsSent p) : (sendPacket p k s).get j = s.get j := by
  unfold sendPacket
  split
  · rfl
  · exact (pump_get p _ h).trans rfl

theorem sendNotice_get (m : Nat) (s : State) {j : Nat} (h : j ≠ K.portFlitsSent 0) : (sendNotice m s).get j = s.get j :=
  (sendPacket_get 0 _ _ h).trans rfl

/-- A notice leaves the pools and the operations as they were. -/
theorem sendNotice_rings (m : Nat) (s : State) :
    (sendNotice m s).rings = { s.rings with unnoticed := SMap.erase s.rings.unnoticed m } := sendPacket_rings 0 _ _

@[simp] theorem sendNotice_win (m : Nat) (s : State) : (sendNotice m s).win = s.win := sendPacket_win 0 _ _
@[simp] theorem sendNotice_pending (m : Nat) (s : State) : (sendNotice m s).pending = s.pending := sendPacket_pending 0 _ _

end Sys2Proof.Machine
end

