-- ==== Sys2Proof/WellFormed.lean ====
section
/-! DEFINITION. WellFormed.lean: the conditions on a command's operands that their types do not say: lengths of value words, beats,
lane lists and training runs, and lists without repeats. The effects of commands are total and do not rest on them. -/

namespace Sys2Proof

/-- Value words that a header calls for: Count elements of one word, or of two for a 40-bit type (R49). -/
def ReqHeader.valueWords (r : ReqHeader) : Nat :=
  r.count.toNat * (if 5 ≤ r.typ.toNat ∧ r.typ.toNat ≤ 7 then 2 else 1)

/-- The outcomes name each frame of a page at most once. -/
def outcomesDistinct (os : List PageOutcome) : Bool :=
  decide ((os.map (fun o => (o.position, o.frame))).Nodup)

/-- The lists of a channel training: an answer or none of each of the four targets, and runs of 12 fields (R202, R220). -/
def ChannelResult.wf (r : ChannelResult) : Bool :=
  decide (r.targets.length = 4) && r.runs.all (fun x => decide (x.length = 12))

/-- The lists of a port training: at most 16 receive lanes, and runs of 18 fields a lane (R288). -/
def PortResult.wf (r : PortResult) : Bool :=
  decide (r.lanes.length ≤ 16) && r.runs.all (fun x => decide (x.length = 18 * r.lanes.length))

/-- The runs of a DRAM training: 167 fields each (R278). -/
def RankResult.wf (r : RankResult) : Bool := r.runs.all (fun x => decide (x.length = 167))

/-- The kind of a received flit (R292). -/
def FlitCtl.kind (c : FlitCtl) : Nat := (c.control.extractLsb' 60 4).toNat

/-- Well-formed operands. -/
def Instr.wf : Instr → Bool
  | .almanacWrite _ r ws | .orderedWrite _ r ws => decide (ws.length = r.valueWords)
  | .reconstructFrame os | .harvestCopy _ os | .scrubRead _ os | .walkStripe _ os | .transferUnitSend os => outcomesDistinct os
  | .channelTraining _ r => r.wf
  | .portTraining _ r => r.wf
  | .dramTraining rs => decide (rs.length = 24) && rs.all RankResult.wf
  | .rankCopy _ bursts _ => decide ((bursts.map (fun b => b.1)).Nodup)
  | .helperRunEnd first rest => (first.isSome || rest.isEmpty) && decide (((first.toList ++ rest).map (fun m => m.burst)).Nodup)
  | .payloadFlit _ c bs => decide (bs.slots.length = 6) && decide (c.kind = 1)
  | .idleFlit _ f => decide (f.ctl.kind ≠ 1 ∧ f.ctl.kind ≠ 2)
  | .paramFlit _ c _ _ _ _ _ => decide (c.kind = 2)
  | .powerEnterS1 _ c | .powerEnterS2 _ c | .powerEnterDeep _ c | .powerAcknowledge _ c | .powerVigil _ c => decide (c.kind = 3)
  | .memWrite _ n _ | .memReadReq _ _ n | .memReadData _ n _ _ => decide (1 ≤ n.toNat ∧ n.toNat ≤ 4096)
  | .mgmtRequest k _ _ ws => decide (10 ≤ k.toNat ∧ ws.length + 4 = 8 * k.toNat / 20)
  | .peerMgmtRequest _ _ ws | .peerMgmtResponse _ _ ws | .mgmtBroadcast _ _ ws => decide (ws.length ≤ 516)
  | .thresholdSurvey _ _ ones _ => decide (ones.length = 2 ∨ ones.length = 4) && ones.all (fun x => decide (x.length = 4))
  | .codeFlashProgram k _ _ ws => decide (1 ≤ ws.length ∧ ws.length ≤ (if k = 3 then 64 else 256))
  | .handshakeWatchdog .. | .vidStepWaitEnd | .vidLower | .stageWedged .. | .stageSelfTest .. | .eventCompletionPost ..
  | .almanacRead .. | .rsvdOp .. | .restoreDefaults .. | .testUnlock .. | .testVerifyDone .. | .testLock .. | .queryReadReset ..
  | .hostSlotsPeakRead .. | .softQueuePeakRead .. | .reorderPeakRead .. | .sampleRead .. | .submissionDoorbell ..
  | .completionHeadDoorbell .. | .submissionRingEnable .. | .completionRingEnable .. | .abortRing .. | .descriptorFetch | .nop ..
  | .read .. | .write .. | .trim .. | .flush .. | .flushSettled .. | .rawRead .. | .rawProgram .. | .rawErase .. | .fence ..
  | .fenceComplete .. | .barrierRelease .. | .migrate .. | .migrationDone .. | .abortRingScope .. | .abortChannelScope ..
  | .abortDeviceScope .. | .abortCodeFlashScope .. | .abortComplete .. | .notifyDelay .. | .writeAdmission | .tagWaitRelease ..
  | .writeAcknowledge .. | .journalPageTimer | .memberProgramTake .. | .rowCloseDelay .. | .backgroundSlotFree | .dieQueueIssue ..
  | .programHoldoff .. | .busGrant .. | .hardDecode .. | .softDecode .. | .lossNotice | .statusPoll .. | .dieTemperatureRead ..
  | .zqCalibrationShort .. | .writeCheck .. | .recalibrate .. | .adminIsolate .. | .pinCurrentTrip .. | .pinCurrentPeakSample ..
  | .dieCountSave | .calendsAdvance | .calendsSave | .calendsNow .. | .harvestTableSave | .selectVictim .. | .victimErase ..
  | .wearCheck .. | .scrubPositionSave | .healthSave | .memberLoss .. | .lossScanEnd .. | .boundaryAdvance .. | .walkResume ..
  | .rebuildStart .. | .planCommit .. | .retireCommit .. | .lossAck .. | .logicalUnits .. | .dramPick .. | .refresh ..
  | .activateTableClear | .selfRefreshEntry .. | .patrolScrub .. | .mr4Read .. | .dqsTracking .. | .dramZqCalibration ..
  | .regionRecoveryDone .. | .retireRank .. | .helperStart ..
  | .wakePattern .. | .missedHeader .. | .flitLock ..
  | .lockTimeout .. | .ackDue .. | .replayTimeout .. | .linkTrainRetry .. | .retrain .. | .fullTrain .. | .linkResetWrite ..
  | .memReadTimeout .. | .sbWriteTransfer .. | .sbReadTransfer .. | .stretchTimeout .. | .sclLowTimeout .. | .sdaStuckRelease ..
  | .hangRecovery .. | .sb1RstN | .adcConversion .. | .bankShorted | .holdupTest | .holdupTestEnd | .holdupTestPeriod
  | .holdupTestStart .. | .vinFail | .vigilEndMark | .vigilTimeout | .vinGood | .supplyFall .. | .modRstNFall | .modRstNRise ..
  | .firmwareVerified | .railPowerGood | .railGroupHold | .railSequenceTimeout .. | .railPowerGoodLow .. | .railRetry
  | .groupWaitEnd | .servingModeEntry | .resetDevice .. | .powerStateEntry | .autoPoise | .saveTimer | .mappingSave
  | .reapplyStoredSet .. | .calSelect .. | .calImport .. | .discoverTimer | .discover .. | .joinRequest .. | .grant .. | .roster ..
  | .heartbeatTimer | .heartbeat .. | .status .. | .memberUnreachable .. | .managerUnreachable | .leave .. | .groupLeave ..
  | .relayGo .. | .relayTimeout .. | .equinoxArrive .. | .startAll .. | .arriveAll .. | .eqxNRise | .eqxRearm | .eqxNFall
  | .barrierTimeout | .snapshotHoldLimit | .snapshotDurable | .snapshotGather .. | .snapshotReport .. | .boardResetOrderly ..
  | .boardResetImmediate .. | .resetPrepare .. | .drainComplete | .drained .. | .resetDrainLimit | .reset .. | .managerResetDelay
  | .transferStart .. | .transferStop .. | .transferData .. | .transferAck .. | .allDataRate .. | .allDriveCode .. | .allOdtCode ..
  | .allThrottleLimit .. | .updateChunk | .readArea | .updateCommit .. | .protectStandby .. | .codeFlashRead ..
  | .codeFlashErase .. | .codeFlashProtect .. | .otpRead .. | .otpProgram .. | .codeFlashCompletion .. | .cfRead ..
  | .dumpRequest .. | .dumpRelease .. | .customerKeyBurn .. | .raiseSecurityVersion .. | .wardenWatchdog .. | .wardenFault ..
  | .clear .. | .pepperEnable .. | .pepperClearAll .. | .forceRealign .. | .supplyLoss .. | .serviceAdaptation ..
  | .holdupChargeRetry | .sb1RstNRise | .vddAonInRange => true

end Sys2Proof
end

