-- ==== Sys2Proof/Tests/Slice0.lean ====
section
/-! SUPPORT. Tests/Slice0.lean: tests of the model by small steps: an ill-formed term for each check of WellFormed, values that the manual
writes out, and for every statement with hypotheses states and operands that meet them. -/

namespace Sys2Proof.Tests

set_option Elab.async false

open Sys2Proof.Machine

/-! ## States -/

/-- The state after reset with some objects set. -/
def objs (l : List (Nat × Nat)) : State := l.foldl (fun s e => s.set e.1 e.2) State.reset

/-- Service, the Urvan link up. -/
def service (l : List (Nat × Nat) := []) : State := objs ([(K.deviceMode, 2), (K.portLinkState 0, 2)] ++ l)

/-- Service, with TEST on the Urvan path. -/
def testing (l : List (Nat × Nat) := []) : State := { service l with paths := [(pathCode .urvan, { test := true })] }

/-- The descriptor of an opcode with duo 2, duo 3 and a write tag. -/
def desc (opcode d2 d3 : Nat) (tag : Nat := 0) : Descriptor := BitVec.ofNat 320 (2 ^ 34 * opcode + 2 ^ 40 * tag + 2 ^ 80 * d2 + 2 ^ 120 * d3)

/-- An operation of slot 0 of ring 0. -/
def op (opcode d2 d3 : Nat) (phase : OpPhase) (tag : Nat := 0) : Op :=
  { ring := 0, slot := 0, epoch := 0, desc := desc opcode d2 d3 tag, phase := phase, seq := 1 }

/-- A state in Service with one operation. -/
def withOp (o : Op) (l : List (Nat × Nat) := []) : State := { service l with rings := { ops := [o] } }

/-- A flit of a kind with Seq 0 around a payload, whole and with a good CRC. -/
def flitOf (kind : Nat) (body : BitVec 1920) : FlitCtl := sealFlit (controlWord {} kind 0 0 0) body
/-- A payload flit of six null beats. -/
def flit : FlitCtl := flitOf 1 (beatsPayload (List.replicate 6 0))

/-! ## Well-formedness: a term that each check refuses -/

theorem test_wf_value_words : Sys2Proof.Instr.wf (.almanacWrite .urvan (oneHeader 0 0x1010 1 3) []) = false := by decide
theorem test_wf_ordered_words : Sys2Proof.Instr.wf (.orderedWrite .urvan (oneHeader 0 0x1010 1 5) [0]) = false := by decide
theorem test_wf_outcomes : Sys2Proof.Instr.wf (.walkStripe 0 [⟨1, 2, 3, 0⟩, ⟨1, 2, 0, 0⟩]) = false := by decide
theorem test_wf_rank_copy : Sys2Proof.Instr.wf (.rankCopy 0 [(5, []), (5, [])] []) = false := by decide
theorem test_wf_helper_run : Sys2Proof.Instr.wf (.helperRunEnd (some ⟨4, 0⟩) [⟨4, 1⟩]) = false := by decide
theorem test_wf_beats : Sys2Proof.Instr.wf (.payloadFlit 0 flit ⟨[], none⟩) = false := by decide
theorem test_wf_no_bytes : Sys2Proof.Instr.wf (.memWrite 0 0 0) = false := by decide
theorem test_wf_too_many_bytes : Sys2Proof.Instr.wf (.memReadReq 0 0 4097) = false := by decide
theorem test_wf_management : Sys2Proof.Instr.wf (.mgmtRequest 9 0 0 []) = false := by decide
theorem test_wf_survey : Sys2Proof.Instr.wf (.thresholdSurvey 0 0 [[0, 0, 0, 0]] true) = false := by decide
theorem test_wf_program : Sys2Proof.Instr.wf (.codeFlashProgram 0 0 0 []) = false := by decide
theorem test_wf_accepts : Sys2Proof.Instr.wf (.almanacWrite .urvan (oneHeader 0 0x1010 1 3) [7]) = true ∧ Sys2Proof.Instr.wf (.memWrite 0 4096 0) = true ∧
    Sys2Proof.Instr.wf (.nop 0 0) = true := by decide

/-! ## The queue -/

theorem witness_StepTakesTheFrontCommand : ({ State.reset with pending := [.flush 0 0] } : State).pending = .flush 0 0 :: [] ∧ State.reset.pending = [] :=
  ⟨rfl, rfl⟩
theorem witness_StepTakesExactlyOneCommand : (∃ t, exec (.flush 0 0) State.reset = .next t) ∧ ∃ t, step State.reset = .next t :=
  ⟨⟨_, rfl⟩, ⟨_, rfl⟩⟩
theorem witness_StepKeepsWindowCanonical : State.reset.windowCanonical ∧ ∃ t, step State.reset = .next t := ⟨rfl, _, rfl⟩
theorem witness_CommandStoresToTheWindow :
    Goes (exec (.submissionDoorbell 0 0) State.reset) ∧ Goes (exec (.completionHeadDoorbell 0 0) State.reset) ∧ Goes (exec .descriptorFetch State.reset) ∧
    Goes (exec (.read 0 0) State.reset) ∧ Goes (exec (.write 0 0) State.reset) ∧ Goes (exec (.writeAcknowledge 0 0) State.reset) ∧
    Goes (exec (.memReadData 0 1 false 0) State.reset) ∧ Goes (exec (.payloadFlit 0 flit ⟨[], none⟩) State.reset) ∧
    Goes (exec (.dieQueueIssue 0 0) State.reset) ∧ Goes (exec (.busGrant 0 .early (some ⟨0, 0⟩)) State.reset) ∧ Goes (exec (.walkStripe 0 []) State.reset) := by
  repeat' (first | exact ⟨_, rfl⟩ | apply And.intro)

/-! ## Rings -/

/-- Ring 0 enabled with one descriptor that is not fetched, completion ring 0 enabled. -/
def ringUp : State := service [(K.ringEnable 0, 1), (K.ringState 0, 1), (K.ringSizeLog2 0, 4), (K.ringTail 0, 1), (K.cringEnable 0, 1), (K.cringSizeLog2 0, 4),
  (K.cringTail 0, 3), (K.cringPhase 0, 1)]

theorem witness_SubmissionDoorbell : ringUp.serving = true ∧ ringUp.subDoorbellOk 0 15 = true ∧ ringUp.subDoorbellOk 0 16 = false ∧
    ringUp.fetches = true ∧ ringUp.flag (K.ringEnable 0) = true ∧ 15 < ringUp.ringSize 0 ∧
    ringUp.unfetched 0 (ringUp.get (K.ringTail 0)) ≤ ringUp.unfetched 0 15 ∧ (objs [(K.deviceMode, 1)]).mode = 1 ∧ State.reset.mode = 0 ∧
    (objs [(K.deviceMode, 5)]).mode = 5 ∧ ({ ringUp with rings := { ringUp.rings with stopped := true } } : State).rings.stopped = true := by decide
theorem witness_CompletionHeadDoorbell : ringUp.fetches = true ∧ ringUp.headDoorbellOk 0 3 = true ∧ ringUp.headDoorbellOk 0 4 = false := by decide
theorem witness_FetchedDescriptor : ringUp.fetches = true ∧ (pickRing ringUp).map (fun x => x.1) = some 0 ∧
    pickRefused 0 ringUp = (false, ringUp) ∧ SMap.getD ringUp.rings.subPool 0 0 = (0 : Descriptor) ∧ descBarrier 0 = false ∧
    (0 : Nat) < 8192 ∧ ringUp.get (K.ringCompletionRing 0) < 4096 := by decide
theorem witness_FetchedDescriptor_acts (o : Op) (h : o.ring = 0) (hd : o.desc = 0) : ringUp.acts o = true := by
  simp only [State.acts, h, hd]; decide

theorem witness_SimpleOpcodes :
    (withOp (op 0x00 0 0 .ready)).readyOp 0 0 0x00 = some (op 0x00 0 0 .ready) ∧ (withOp (op 0x20 0 0 .ready)).readyOp 0 0 0x20 = some (op 0x20 0 0 .ready) ∧
    (withOp (op 0x20 0 0 .issued)).op 0 0 = some (op 0x20 0 0 .issued) ∧ descOpcode (op 0x20 0 0 .issued).desc = 0x20 ∧
    (withOp (op 0x20 0 0 .issued)).rings.ops.any (fun e => e.ring = 0 && decide (e.seq < 1)) = false ∧
    (withOp (op 0x04 0 0 .ready)).readyOp 0 0 0x04 = some (op 0x04 0 0 .ready) ∧
    (withOp (op 0x04 0 0 .issued)).op 0 0 = some (op 0x04 0 0 .issued) ∧ descOpcode (op 0x04 0 0 .issued).desc = 0x04 ∧
    (withOp (op 0x04 0 0 .issued)).flushAwaits (op 0x04 0 0 .issued) = false ∧
    (withOp (op 0x00 0 0 .barrier)).op 0 0 = some (op 0x00 0 0 .barrier) := by decide

theorem witness_PostedCompletion : (objs [(K.deviceMode, 5)]).mode = 5 ∧ ringUp.mode ≠ 5 := by decide
theorem witness_FinishedOperation : ringUp.rings.snapHold = false ∧ ringUp.postDelayed 0 = false ∧ ringUp.writesUnsent 1 = false ∧
    ({ ringUp with ports := [(0, { waiting := [.memWrite 1 0 false 0 1 0] })] } : State).writesUnsent 1 = true := by decide
theorem witness_CompletionPhase : State.reset.flag (K.cringEnable 0) = false ∧ ringUp.mode ≠ 5 ∧ ringUp.get (K.cringPhase 0) ≤ 1 ∧
    (objs [(K.cringSizeLog2 4095, 4), (K.cringTail 4095, 15)]).get (K.cringTail 4095) = (objs [(K.cringSizeLog2 4095, 4), (K.cringTail 4095, 15)]).cringSize 4095 - 1 ∧
    ringUp.get (K.cringTail 0) < ringUp.cringSize 0 - 1 := by decide

/-- A loss record that is durable and has no notice. -/
def lossRec : LossRec :=
  { number := 0, cause := 0, set := 0, more := false, erasures := 0, minute := 0, generation := 0, die := 0, plane := 0, block := 0, page := 0,
    frame := 0, erased := 0, ranges := [], durable := true, noticed := false }

theorem witness_NoticesOfCompletions :
    (SMap.find? ({ State.reset with rings := { unnoticed := [(0, (1, 0, 0))] } } : State).rings.unnoticed 0).isSome = true ∧
    (objs [(K.cringNotifyEnable 0, 1)]).flag (K.cringNotifyEnable 0) = true ∧
    List.find? (fun (e : Nat × Nat × Nat) => decide (e.1 = 0)) [(0, 1152, 0)] = some (0, 1152, 0) ∧ ringUp.flag (K.cringEnable 0) = true ∧
    0 < ringUp.cringFree 0 ∧ ringUp.mode ≠ 5 ∧ List.find? (fun (r : LossRec) => !r.noticed) [lossRec] = some lossRec ∧ lossRec.durable = true ∧
    ringUp.flag (K.cringEnable (ringUp.get K.lossNoticeRing)) = true ∧ 0 < ringUp.cringFree (ringUp.get K.lossNoticeRing) := by decide

/-! ## Writes and reads -/

/-- A gather of one whole unit. -/
def gather : Gather :=
  { ring := 0, slot := 0, set := 0, lba := 0, count := 4, tag := 0, trim := false, slots := [(0, 0)], data := [], merged := [],
    poisoned := false }
/-- A state with an operation and its gather. -/
def gathering (g : Gather) : State := { withOp (op 0x02 g.lba g.count .issued) with wr := { gathers := [g] } }

theorem witness_WriteCommands_write :
    (withOp (op 0x02 0 4 .ready)).readyOp 0 0 0x02 = some (op 0x02 0 4 .ready) ∧ (withOp (op 0x02 0 4 .ready)).fencedFor (op 0x02 0 4 .ready) = false ∧
    (withOp (op 0x02 0 4 .ready)).isReplay (op 0x02 0 4 .ready) = false ∧ (withOp (op 0x02 0 4 .ready)).tagBusy (op 0x02 0 4 .ready) = false ∧
    (withOp (op 0x02 0 4 .tagWait 9)).op 0 0 = some (op 0x02 0 4 .tagWait 9) ∧ (withOp (op 0x02 0 4 .tagWait 9)).tagBusy (op 0x02 0 4 .tagWait 9) = false := by decide
theorem witness_WriteCommands_replay :
    ({ withOp (op 0x02 0 4 .ready 9) with wr := { tags := [{ set := 0, lba := 0, count := 4, tag := 9 }] } } : State).isReplay
      (op 0x02 0 4 .ready 9) = true := by decide
theorem witness_WriteCommands_busy :
    ({ service with rings := { ops := [op 0x02 0 4 .ready 9, { op 0x02 0 4 .issued 9 with slot := 1, seq := 0 }] } } : State).tagBusy (op 0x02 0 4 .ready 9)
      = true := by decide
theorem witness_WriteCommands_admission :
    let s : State := { withOp (op 0x02 0 4 .admission) with wr := { admission := [(0, 0)] } }
    s.wr.admission = (0, 0) :: [] ∧ s.op 0 0 = some (op 0x02 0 4 .admission) ∧ (admittedUnits (op 0x02 0 4 .admission)).length ≤ s.hostFree ∧
    s.admissionBehind (op 0x02 0 4 .admission) = false ∧ (unitsOf (descLba (op 0x02 0 4 .admission).desc) (descCount (op 0x02 0 4 .admission).desc)).length ≤ s.journalRoom ∧
    s.fetches = true ∧ s.wr.admitStop = false ∧ (admittedUnits (op 0x02 0 4 .admission)).any (fun u => s.entryWaits (s.setOf 0) u.1) = false := by decide
theorem witness_WriteCommands_acknowledge :
    (gathering gather).gather 0 0 = some gather ∧ (gathering gather).op 0 0 = some (op 0x02 0 4 .issued) ∧ gather.slots ≠ [] ∧
    (gathering gather).wr.hostReads.any (fun r => r.ring = 0 && r.slot = 0) = false ∧
    gather.slots.any (fun e => partialUnit gather e.1 && (gathering gather).shadowWaits gather.set e.1) = false := by decide
theorem witness_WriteCommands_whole (s : State) : mergeNeeds gather s = [] := by
  simp [mergeNeeds, gatheredUnits, gatherUnit, gather, List.range_succ]

theorem witness_HostDataAndTrim_data :
    let r : HostRead := { tag := 5, ring := 0, slot := 0, off := 0, left := 4096, sentAt := 0 }
    List.find? (fun (r : HostRead) => decide (r.tag = (5 : BitVec 13).toNat)) [r] = some r ∧ (4096 : BitVec 13).toNat ≤ r.left ∧ r.left < (4097 : BitVec 13).toNat ∧
    List.find? (fun (r : HostRead) => decide (r.tag = (6 : BitVec 13).toNat)) [r] = none := by decide
theorem witness_HostDataAndTrim_trim :
    let o := op 0x03 0 4 .ready; let q := op 0x03 0 3 .ready
    (withOp o).readyOp 0 0 0x03 = some o ∧ (withOp o).fencedFor o = false ∧
    (unitsOf (descLba o.desc) (descCount o.desc)).any (fun u => (withOp o).entryWaits ((withOp o).setOf o.ring) u.1) = false ∧
    (unitsOf (descLba o.desc) (descCount o.desc)).all (fun u => u.2) = true ∧
    (unitsOf (descLba o.desc) (descCount o.desc)).length ≤ (withOp o).journalRoom ∧
    (withOp q).readyOp 0 0 0x03 = some q ∧ (withOp q).fencedFor q = false ∧
    (unitsOf (descLba q.desc) (descCount q.desc)).any (fun u => (withOp q).entryWaits ((withOp q).setOf q.ring) u.1) = false ∧
    (unitsOf (descLba q.desc) (descCount q.desc)).all (fun u => u.2) = false := by decide
theorem witness_HostDataAndTrim_raw :
    let o := op 0x11 0 15 .ready; let q := op 0x12 0 15 .ready; let z := op 0x12 0 16 .ready
    (withOp o).readyOp 0 0 0x11 = some o ∧ (withOp o).fencedFor o = false ∧ (withOp q).readyOp 0 0 0x12 = some q ∧ (withOp q).fencedFor q = false ∧
    descDuo q.desc 3 % 16 ≠ 0 ∧ (withOp z).readyOp 0 0 0x12 = some z ∧ (withOp z).fencedFor z = false ∧ descDuo z.desc 3 % 16 = 0 := by decide
theorem witness_ReadCommands :
    let o := op 0x01 0 4 .ready; let q := op 0x10 0 31 .ready
    (withOp o).readyOp 0 0 0x01 = some o ∧ (withOp o).fencedFor o = false ∧
    (unitsOf (descLba o.desc) (descCount o.desc)).any (fun u => (withOp o).entryWaits ((withOp o).setOf o.ring) u.1
      || (withOp o).shadowWaits ((withOp o).setOf o.ring) u.1) = false ∧
    (withOp q).readyOp 0 0 0x10 = some q ∧ (withOp q).fencedFor q = false ∧ SMap.getD (withOp q).fl.torn (pmaPlace (descDuo q.desc 2)) false = false := by decide
theorem witness_ReadCommands_fenced :
    ({ withOp (op 0x01 0 4 .ready) with ev := { fenced := [(1, 0)] } } : State).fencedFor (op 0x01 0 4 .ready) = true := by decide

/-- A gather that covers three blocks of a unit that lies on media: the fourth must be merged. -/
def gatherPart : Gather := { gather with count := 3 }
def onMedia (g : Gather) : State := { gathering g with wr := { gathers := [g], map := [(mapKey 0 0, 0)] } }
theorem witness_WriteCommands_part : mergeNeeds gatherPart (onMedia gatherPart) = [(0, 0, 3)] := by
  simp [mergeNeeds, gatheredUnits, gatherUnit, gatherPart, gather, List.range_succ]; rfl
theorem witness_ReadCommands_waits :
    let s : State := { withOp (op 0x01 0 4 .ready) with dram := { recoveries := [0], directory := [(0, [0])] } }
    (unitsOf 0 4).any (fun u => s.entryWaits (s.setOf 0) u.1 || s.shadowWaits (s.setOf 0) u.1) = true := by decide

/-- A read of frame 0 of a page that waits to be decoded. -/
def pageRead : PageRead :=
  { owner := .op 0 0 0, pma := 0, frames := [0], header := false, cls := 0, step := 1, shift := 0, since := 0, pending := [0], failed := [], again := 0 }
theorem witness_DecodeCommands :
    let e : FrameRef := { read := 0, frame := 0, cls := 0 }
    let s : State := { service with fl := { reads := [(0, pageRead)], chans := [(0, { hardQ := [e] })], softQ := [e],
                                            recon := [{ owner := .op 0 0 0, pma := 0, frame := 0, cls := 0, degraded := false }] } }
    pickFrame (s.chan 0).hardQ = some (e, []) ∧ pickFrame s.fl.softQ = some (e, []) ∧ SMap.find? s.fl.reads e.read = some pageRead ∧
    (s.nextRecon []).isSome = true := by decide +kernel
theorem witness_SoftDecodedFrame : State.reset.rawRead (.op 0 0 0) = false := by decide

/-! ## Migrations, aborts, channels -/

/-- A migration whose completion has a slot, with no operation of the old epoch. -/
def migration : Migration := { ring := 0, slot := none, placement := 0, reserved := true, again := false, aborted := false }
/-- An abort that has nothing left to wait for. -/
def abort : Abort := { scope := 0, target := 0, op := some (0, 0), started := 0, count := 0 }
theorem witness_RingScopeCommands :
    let o := op 0x21 0 0 .ready; let s : State := { service with rings := { migrations := [migration] } }
    let t : State := { service with rings := { aborts := [abort] } }
    (withOp o).readyOp 0 0 0x21 = some o ∧ (withOp o).rings.migrations.any (fun g => decide (g.ring = 0)) = false ∧
    List.find? (fun (g : Migration) => decide (g.ring = 0)) s.rings.migrations = some migration ∧ s.epochRuns migration = false ∧ migration.reserved = true ∧
    (abortDrain 0 t).rings.aborts[0]? = some abort ∧ (abortDrain 0 t).abortDone abort = true ∧
    (withOp (op 0x22 5 0 .ready)).readyOp 0 0 0x22 = some (op 0x22 5 0 .ready) ∧ descDuo (op 0x22 5 0 .ready).desc 2 / 2 ^ 38 = 0 ∧
    descDuo (op 0x22 (2 ^ 38 + 5) 0 .ready).desc 2 / 2 ^ 38 = 1 ∧ descDuo (op 0x22 (2 ^ 39) 0 .ready).desc 2 / 2 ^ 38 = 2 ∧
    descDuo (op 0x22 (2 ^ 39 + 2 ^ 38) 0 .ready).desc 2 / 2 ^ 38 = 3 := by decide

/-- Channel 0 running with die 0 fitted. -/
def channelUp (l : List (Nat × Nat) := []) : State := service ([(K.chDiesFitted 0, 1), (K.chState 0, 2), (K.chDieState 0 0, 1)] ++ l)
/-- The same with a job queued on the die, or running. -/
def dieWith (d : Die) (l : List (Nat × Nat) := []) : State := { channelUp l with fl := { dies := [(0, d)], reads := [(0, pageRead)] } }
theorem witness_ChannelUpkeep : channelUp.fitted 0 0 = true ∧ (channelUp.die 0 0).inArray = false ∧ (channelUp.chan 0).driversOff = false ∧
    channelUp.serving = true ∧ (channelUp.chan 0).training = none ∧
    ((List.range 4).map (fun i => 4 * 0 + i)).all (fun d => !(channelUp.die 0 d).inArray) = true ∧ (channelUp.die 0 0).cur = none ∧
    channelUp.get (K.chState 0) = 2 ∧ SMap.getD channelUp.mon.faultyCh 0 false = false ∧
    s20 (channelUp.get (K.chPinCurrentPeak 0)) < s20 (5 : BitVec 20).toNat ∧ (1 : BitVec 17).toNat % 1024 ≠ 0 ∧
    (channelUp.chan 0).linesOff.contains (0 / 4) = false ∧ channelUp.get K.powerState = 0 ∧ channelUp.savesTables = true ∧ (0x400 : BitVec 17) ≠ 0 ∧
    (0x400 : BitVec 17).toNat % 1024 = 0 ∧ (0x400 : BitVec 17).toNat / 16384 = 0 := by decide
theorem witness_DieAndBusCommands_issue :
    let j : DieJob := .erase { block := 0, planes := 1, set := none, raw := none, after := [] }
    let s := dieWith { progs := [(j, 0)] }; let t := dieWith { reads := [0] }
    s.dieTakes 0 0 = true ∧ s.nextJob 0 0 = some j ∧ s.leadRead 0 0 = none ∧
    t.dieTakes 0 0 = true ∧ t.tablesBack = true ∧ (t.die 0 0).forced = false ∧ t.leadRead 0 0 = some (0, pageRead) ∧
    (s.die 0 0).progs ≠ [] ∧ (dieWith { progs := [(j, 0)], reads := [0], forced := true }).nextJob 0 0 = some j := by decide +kernel
theorem witness_DieAndBusCommands_bus :
    let x : Xfer := { die := 0, read := none, cls := 3, since := 0, tries := 0 }
    let s : State := { channelUp with fl := { chans := [(0, { xfers := [x] })], dies := [(0, { cur := some (.reset 0), inArray := true })] } }
    (s.chan 0).driversOff = false ∧ s.busWithheld 0 = false ∧ s.pickXfer 0 = some (x, false) ∧
    (s.die 0 0).cur = some (.reset 0) ∧ (s.die 0 0).inArray = true ∧ (s.chan 0).linesOff.contains (0 / 4) = false ∧
    s.unpowered 0 = false ∧ (stretched 0 0 (.reset 0) (s.emit (.dieCommand 0 0 0x78 0))).1 = false := by decide

/-- Rank 0 of subchannel 0 serves; a request waits. -/
def request (write : Bool) (cls : Nat := 3) : DramReq := { cls := cls, write := write, rmw := false, da := 0, src := .plain }
def dramUp (q : List DramReq) (l : List (Nat × Nat) := []) : State :=
  { service ((rankStateKey 0 0, 1) :: l) with dram := { subs := [(0, { queue := q })], trained := true } }
theorem witness_DramCommands_refresh : (dramUp []).rankServes 0 0 = true ∧ ((dramUp []).drank 0 0).selfRefresh = false ∧ ((dramUp []).dsub 0).queue = [] ∧
    ((dramUp []).drank 0 0).postponed < 4 ∧ ((dramUp []).dsub 0).held = [] ∧ (dramUp [] [(K.selfRefreshIdle, 9)]).get K.selfRefreshIdle ≠ 0 ∧
    (((dramUp [request true]).dsub 0).queue.any (fun r => decide ((dramUp [request true]).rankFor 0 r.da = 0) && decide (r.cls ≠ 5))) = true ∧
    (dramUp []).dsub 0 = {} ∧ 8 < (s20 (9 : BitVec 20).toNat).natAbs ∧ ((dramUp []).drank 0 0).drift ≤ 8 := by decide
theorem witness_DramCommands_copy :
    let s : State := { service [(K.dramSpareHalfState 0, 2), (K.dramSpareReplaces 0, 0)] with dram := { subs := [(0, { copyRow := 5 })], helper := some (0, 0) } }
    s.migratingRank 0 = some 0 ∧ (s.dsub 0).copyRow = 5 ∧ 5 + 1 < 2097152 ∧ s.dram.helper = some (0, 0) ∧ s.mode ≠ 5 ∧
    ((2 : Fin 3) = 2 → s.get (K.dramSpareHalfState 0) ≠ 1) ∧
    (let t : State := { s with dram := { subs := [(0, { copyRow := 2097152 })] }, nv := { saved := [(0, 1)] } }
     t.migratingRank 0 = some 0 ∧ (t.dsub 0).copyRow = 2097152 ∧ t.retirementSaved 0 0 = true) := by decide
theorem witness_DramCommands_pick : (enterHeld 0 (dramUp [request true])).dramNext 0 = some (request true) ∧ burstCheck (.symbols []) = .good := by decide
theorem witness_DramCommands_patrol :
    let s : State := { dramUp [] with dram := { (dramUp []).dram with trained := true } }
    let u := issueDram (daSub (64 * s.dram.patrol)) { cls := 5, write := false, rmw := false, da := 64 * s.dram.patrol, src := .plain } s
    s.mode ≠ 5 ∧ s.dram.trained = true ∧ (s.dsub (daSub (64 * s.dram.patrol))).queue = [] ∧ (s.dsub (daSub (64 * s.dram.patrol))).held = [] ∧
    s.dram.recoveries.contains (64 * s.dram.patrol) = false ∧ burstCheck (.symbols []) = .good ∧
    badComponents [⟨3, 0, 1⟩, ⟨3, 2, 0x8000⟩] = [3] ∧ s.patrolNext s.dram.patrol ≠ 0 ∧ u.patrolNext s.dram.patrol ≠ 0 := by decide
theorem witness_DramCommands_recovery :
    let s : State := { service with dram := { recoveries := [0] } }
    s.mode ≠ 5 ∧ s.dram.recoveries[0]? = some 0 ∧ s.daRegion 0 ≠ 3 ∧ s.daRegion 0 ≠ 5 := by decide

/-! ## Link, watchdogs, wedges -/

def linkAt (k : Nat) (f : Port) : State := { objs [(K.deviceMode, 2), (K.portLinkState 0, k)] with ports := [(0, f)] }
theorem witness_LinkCommands : (linkAt 1 {}).get (K.portLinkState 0) = 1 ∧ (linkAt 3 {}).get (K.portLinkState 0) = 3 ∧
    ((linkAt 2 { unreported := 3 }).port 0).unreported ≠ 0 ∧ (linkAt 2 {}).portRuns 0 = true ∧ (linkAt 2 {}).get (K.portLinkState 0) = 2 ∧
    ((linkAt 1 { recovery := 2, fullTraining := true }).port 0).recovery = 2 ∧ ((linkAt 1 { recovery := 2, fullTraining := true }).port 0).fullTraining = true ∧
    ((linkAt 4 { recovery := 1 }).port 0).recovery = 1 ∧ ((linkAt 0 { retry := true }).port 0).retry = true ∧
    (linkAt 0 { retry := true }).get (K.portLinkState 0) = 0 ∧ 1 ≤ (linkAt 0 {}).mode ∧ (linkAt 0 {}).mode ≤ 4 ∧ 15 < portLanes 0 ∧
    164 ≤ (164 : Sys2Proof.Word).toNat ∧ 10 ≤ (10 : Sys2Proof.Word).toNat ∧ 1200 ≤ (1200 : Sys2Proof.Word).toNat := by decide
theorem witness_LinkCommands_crc (kind : Nat) (body : BitVec 1920) : ctlCrcGood (flitOf kind body) body = true := by
  simp [ctlCrcGood, flitOf, sealFlit]
theorem witness_LinkCommands_payload : (linkAt 2 {}).takesFlit 0 flit (beatsPayload (List.replicate 6 0)) 1 ∧
    ctlSeq flit = ((flitTaken 0 flit (linkAt 2 {})).port 0).rxSeq ∧ (flitTaken 0 flit (linkAt 2 {})).mode ≠ 5 := by
  refine ⟨⟨?_, ?_, witness_LinkCommands_crc _ _, ?_, ?_⟩, ?_, ?_⟩ <;> decide +kernel
theorem witness_LinkCommands_idle : (linkAt 2 {}).takesFlit 0 (flitOf 0 0) 0 0 ∧
    ctlSeq (flitOf 0 0) = ((flitTaken 0 (flitOf 0 0) (linkAt 2 {})).port 0).rxSeq := by
  refine ⟨⟨?_, ?_, witness_LinkCommands_crc _ _, ?_, ?_⟩, ?_⟩ <;> decide +kernel
theorem witness_LinkCommands_training :
    let r : PortResult := { signal := true, stuckStep := none, lanes := [], runs := [], creditP := 256, creditN := 64 }
    quickPasses 0 r = true ∧ quickPasses 0 { r with stuckStep := some 6 } = false ∧ creditsSmall 0 256 64 = false ∧ syncDiffs flit.sync ≤ 1 := by decide +kernel
theorem witness_SentPacket : State.reset.mode = 0 ∧ (objs [(K.deviceMode, 5)]).mode = 5 ∧ (linkAt 1 {}).mode ≠ 0 ∧ (linkAt 1 {}).mode ≠ 5 ∧
    (linkAt 1 {}).portRuns 0 = false ∧ ((linkAt 1 {}).port 0).through = [] ∧
    joinWaiting (.notice 0 1 2) [.notice 0 0 0] = [.notice 0 0 0, .notice 0 1 2] := by decide
theorem witness_WatchdogAndVid : service.mode ≠ 0 ∧ ({ service with ev := { vidPending := true } } : State).ev.vidPending = true ∧
    (service [(K.vidCode, 5)]).get K.vidCode < 9 ∧ service.serving = true ∧ service.get K.powerState ≤ 2 ∧ (service [(K.vidCode, 5)]).get K.vidCode ≠ 0 ∧
    service.ev.tripAt = none ∧ service.ev.vidAt = none ∧ service.ev.vidPending = false ∧ service.ev.vidTarget = none ∧
    ({ service with ev := { vidTarget := some 9 } } : State).ev.vidTarget = some 9 := by decide
theorem witness_VidStaysInRange : (service [(K.vidCode, 9)]).get K.vidCode = 9 ∧ (service [(K.vidCode, 8)]).get K.vidCode < 9 ∧
    ({ service with ev := { vidAt := some 5 }, now := 15 } : State).now = 5 + 10 := by decide
theorem witness_WedgedStages : service.mode ≠ 0 ∧ service.mode ≠ 5 ∧ ((4, 0) : Nat × Nat) ∉ service.ev.wedged ∧ ((4, 0) : Nat × Nat) ∉ service.ev.fenced ∧
    (service.ev.cleaned.any (fun e => decide (e.1 = 4) && decide (e.2.1 = 0) && decide (service.now < e.2.2 + 60000000))) = false ∧
    (let s : State := { service with ev := { cleaned := [(4, 0, 0)] } }
     s.ev.cleaned.any (fun e => decide (e.1 = 4) && decide (e.2.1 = 0) && decide (s.now < e.2.2 + 60000000)) = true) ∧
    (let s : State := { service with ev := { wedged := [(4, 0)] } }
     ((4, 0) : Nat × Nat) ∈ s.ev.wedged ∧ s.wedgeAborted 4 0 = true) := by decide
theorem witness_EventOccurrence : (1535 : Nat) < 1536 ∧ (1535 : Nat) ≠ 1172 := by decide

/-! ## Media and redundancy -/

/-- Two generations of three members. -/
def gen (n : Nat) : GenRec :=
  { num := n, width := 3, firstRow := 0, channels := [0, 1, 2], absent := [0, 0, 0], logicalUnits := 0, spare := 2044 }
/-- A closed row block of the older generation, its first block with valid units. -/
def rowBlock : RowBlock :=
  { set := 0, die := 0, block := 0, gen := 0, rows := [(0, 0), (1, 1)], failedRows := [], failedAt := none, oldestAt := none, refreshAt := none,
    wearAt := none, victim := false, released := false }
/-- An open row of the newer generation. -/
def row : Row :=
  { set := 0, row := 2, gen := 1, die := 0, block := 1, wl := 0, taken := 0, partly := [], pAcc := [], qAcc := [], lastTake := 0, dataInLeft := 0,
    progsLeft := 0, parityLeft := 0, parityIssued := false, seqLast := 0 }
def walk : Walk :=
  { kind := 0, target := 1, endRow := 10, next := 0, boundary := 0, lastCheckpoint := 0, moving := [], needSeq := 0, rowsLeft := 0,
    newChannels := [] }
/-- Set 0 defined over channels 0 to 2; a spare reserve that leaves four blocks a die. -/
def setUp (t : StripeSet) (l : List (Nat × Nat) := []) (fl : Flash := {}) : State :=
  { service ([(K.setState 0, 1), (K.setWidth 0, 3), (K.setGeneration 0, 1), (K.setSetSpareReserve 0, 2044), (K.setSetMembers 0 0, 0),
      (K.setSetMembers 0 1, 1), (K.setSetMembers 0 2, 2), (K.chDiesFitted 0, 1)] ++ l) with
    wr := { sets := [(0, t)], rowBlocks := [rowBlock] }, fl := fl }
def gens : StripeSet := { StripeSet.empty with gens := [gen 0, gen 1] }
/-- The members' channels belong to the set: their blocks are erased. -/
def ofSet : List (Nat × Nat) := [(K.chStripeSet 0, 0), (K.chStripeSet 1, 0), (K.chStripeSet 2, 0)]

theorem witness_RowCommands :
    let s := setUp { gens with rows := [row], queue := List.range 16 } [(K.chState 0, 2), (K.chDieState 0 0, 1), (K.chState 1, 2), (K.chDieState 1 0, 1),
      (K.chState 2, 2), (K.chDieState 2 0, 1)]
    s.get (K.setState 0) ≠ 0 ∧ (s.sset 0).queue ≠ [] ∧ ((ensureRow 0 s).takingRow 0).isSome = true ∧ 16 ≤ ((ensureRow 0 s).rowQueue 0 row).length ∧
    ((ensureRow 0 s).takingRow 0).all (fun x => (ensureRow 0 s).dieFreeFor (nth x.2.1.channels (nth x.2.2 x.1.taken 0) 127) x.1.die) = true ∧
    (ensureRow 0 s).shadowsFree = true ∧ ({ service with wr := { jOpened := some 0 } } : State).wr.jOpened.isSome = true ∧ s.backFree ≠ 0 ∧ s.wr.returning = [] ∧ s.wr.waitingUnits = [] := by decide
theorem witness_RowCommands_returning :
    let u : SUnit := { set := 0, lui := 0, frames := [], tag := 0, seq := 0, origin := .walk, source := none, ticket := 0, stripe := 0 }
    ({ service with wr := { returning := [(u, none)] } } : State).wr.returning = (u, none) :: [] := rfl
theorem witness_RowCommands_close :
    let s := setUp { gens with rows := [row], queue := [0], flushes := [(0, 0)] }
    (s.sset 0).queue ≠ [] ∧ ((ensureRow 0 s).takingRow 0).map (fun x => x.1) = some row ∧ ((ensureRow 0 s).rowQueue 0 row).length < 16 ∧
    ((ensureRow 0 s).sset 0).flushes ≠ [] ∧ (ensureRow 0 s).mayClose 0 = true ∧ (ensureRow 0 s).closeRoom = true ∧ s.mayClose 0 = true ∧
    s.closeRoom = true := by decide
theorem witness_RowCommands_journal :
    let s : State := { service [(K.journalSequence, 3), (K.chDiesFitted 0, 1), (K.chState 0, 2), (K.chDieState 0 0, 1)] with wr := { jOpened := some 0 } }
    s.wr.jFirst < s.get K.journalSequence ∧ (((List.range 96).filter s.slcReady).take 2).length = 1 := by decide +kernel
theorem witness_RowCommands_waiting :
    let u : SUnit := { set := 0, lui := 0, frames := [], tag := 0, seq := 0, origin := .walk, source := none, ticket := 0, stripe := 0 }
    let s : State := { service with wr := { waitingUnits := [u] } }
    s.backFree ≠ 0 ∧ s.wr.waitingUnits = u :: [] ∧ (takeBackSlot u { s with wr := { s.wr with waitingUnits := [] } }).isSome = true := by decide
theorem witness_MediaCommands : service.mode ≠ 5 ∧ service.mode ≠ 0 ∧ service.get K.powerState ≠ 5 ∧ service.serving = true ∧ service.savesTables = true ∧ (setUp gens).harvests 0 = true ∧
    ((setUp gens).sset 0).victim = none ∧ (setUp gens).erasedLowest 0 < 64 ∧ (setUp gens).paused = false ∧ service.clockRuns = true ∧ (setUp gens).pickVictim 0 = some (rowBlock, gen 0, false) ∧
    (setUp gens).curGen 0 = some (gen 1) ∧ (setUp gens).wearDue 0 = true := by decide +kernel
theorem witness_MediaCommands_enough : 64 ≤ (setUp gens (ofSet ++ [(K.setSetSpareReserve 0, 48)])).erasedLowest 0 := by decide +kernel
theorem witness_MediaCommands_victim :
    let s := setUp { gens with victim := some (0, 0, 0) }
    (s.sset 0).victim = some (0, 0, 0) ∧ s.harvests 0 = true ∧ s.rowBlock 0 0 0 = some rowBlock ∧ s.genRec 0 0 = some (gen 0) ∧
    (s.stripesOf rowBlock)[0]? = some (0, 0) ∧ s.victimOf 0 = some (rowBlock, gen 0) ∧ s.victimReady 0 rowBlock (gen 0) = true := by decide +kernel
theorem witness_MediaCommands_copy :
    let s := setUp { gens with victim := some (0, 0, 0) } [] { valid := [(0, 1)] }
    let x : Stripe := { rb := rowBlock, gen := gen 0, wl := 0, page := 0 }
    s.blockValid rowBlock (gen 0) ≠ 0 ∧ s.paused = false ∧ s.stripeWaits x (s.stripeReads x [] ++ s.headerReads x) = false := by decide +kernel
theorem witness_MediaCommands_worn :
    (setUp gens [(K.chStripeSet 0, 9)] { harvest := [(0, { erases := 0, state := 3, refresh := false, failed := false }),
      (1, { erases := 1000000, state := 3, refresh := false, failed := false })] }).wornBlock 0 = some rowBlock := by
  decide +kernel
theorem witness_MediaCommands_scrub :
    let s := setUp gens [(K.scrubEnable, 1)] { valid := [(0, 1)] }
    s.get K.scrubEnable ≠ 0 ∧ s.harvests 0 = true ∧
    List.find? (fun (r : Nat × RowBlock × GenRec × Nat) => decide ((s.sset 0).scrub / 16 ≤ r.1)) (s.scrubRows 0) = some (0, rowBlock, gen 0, 0) ∧
    s.nextScrub 0 = some (0, rowBlock, gen 0, 0) ∧ s.paused = false ∧
    (let x : Stripe := { rb := rowBlock, gen := gen 0, wl := 0, page := 0 }; s.stripeWaits x (s.scrubReads x) = false) ∧
    (List.range 8).all (fun k => ((setUp gens [(K.scrubEnable, 1)]).nextScrub k).isNone) = true := by decide +kernel
theorem witness_RedundancyCommands :
    let s := setUp { gens with lossPending := [(0, 0)] }; let t := setUp { StripeSet.empty with lossPending := [(0, 0)], gens := List.replicate 64 (gen 0) }
    (s.sset 0).lossPending ≠ [] ∧ s.get (K.setState 0) ≠ 0 ∧ (s.sset 0).gens.length < 64 ∧ (t.sset 0).lossPending ≠ [] ∧ 64 ≤ (t.sset 0).gens.length ∧
    (setUp gens [(K.setState 0, 4)]).get (K.setState 0) = 4 ∧ (s.sset 0).walk = none := by decide +kernel
theorem witness_RedundancyCommands_walk :
    let z := setUp { gens with walk := some walk, rows := [row] } [(K.setState 0, 3)] { valid := [(0, 1)] }
    let s : State := { z with wr := { z.wr with map := [(mapKey 0 0, 0)] } }
    let t := setUp { gens with walk := some walk, rows := [row] } [(K.setState 0, 5)]
    (s.sset 0).walk = some walk ∧ s.get (K.setState 0) = 3 ∧ s.serving = true ∧ s.nextWalkRow 0 walk = some (0, rowBlock, gen 0, 0) ∧
    s.rowInProgram 0 0 = false ∧ s.roomForWalk 0 = true ∧ t.get (K.setState 0) = 5 ∧ t.roomForWalk 0 = true ∧ s.get K.powerState = 0 ∧ (t.sset 0).owed = none ∧
    (let x : Stripe := { rb := rowBlock, gen := gen 0, wl := 0, page := 0 }; s.stripeWaits x (s.stripeReads x []) = false) ∧
    ((setUp { gens with owed := some ([0, 1, 2], 1) }).sset 0).owed = some ([0, 1, 2], 1) ∧ (setUp { gens with owed := some ([0, 1, 2], 1) }).gensFull 0 = false := by decide +kernel

/-- The walk past its last row, with no move under way and its units durable. -/
theorem witness_RedundancyCommands_end :
    let s := setUp { gens with walk := some { walk with next := 160 } } [(K.setState 0, 3)]
    let w : Walk := { walk with next := 160, boundary := 160, rowsLeft := 0 }
    let u := showWalk 0 w (s.modSet 0 (fun t => { t with walk := some w }))
    (s.sset 0).walk = some { walk with next := 160 } ∧ walk.moving = [] ∧ walk.needSeq ≤ s.get K.journalDurable ∧
    (u.nextWalkRow 0 w).isNone = true ∧ walk.needSeq ≤ u.get K.journalDurable ∧ ((setUp gens).sset 0).walk = none := by decide +kernel
/-- A scan that meets a unit on a lost position of a row with three of them, with 1,023 and with 1,024 records pending. -/
theorem witness_RedundancyCommands_scan :
    let z := setUp gens [(K.setState 0, 4), (K.chState 0, 3), (K.chState 1, 3), (K.chState 2, 3), (K.lossPending, 1023)]
    let s : State := { z with wr := { z.wr with map := [(mapKey 0 0, 0)] } }
    let t := s.set K.lossPending 1024
    s.get (K.setState 0) = 4 ∧ (s.scanRecords 0).length = 1 ∧ (s.scanRecords 0).length ≤ s.lossRoom ∧ t.get (K.setState 0) = 4 ∧
    ((t.scanRecords 0)[t.lossRoom]?).isSome = true := by decide +kernel

/-! ## Power, measurement, start-up, Cold -/

/-- A buffer with a power request. -/
def asks (k : Nat) (l : List (Nat × Nat) := []) : State := { service l with pw := { request := some k } }
theorem witness_PowerCommands : (asks 5 [(K.wakeImageValid, 1)]).get K.wakeImageValid ≠ 0 ∧ (asks 2).pw.request = some 2 ∧ (asks 2).get K.powerState = 0 ∧ (asks 2).powerBlock = 0 ∧ (asks 5).powerBlock = 0 ∧
    (asks 5).get K.wakeImageValid = 0 ∧ (asks 5).imagePending = false ∧ (service [(K.autoPoiseIdle, 7)]).get K.autoPoiseIdle ≠ 0 ∧
    (service [(K.autoPoiseIdle, 7)]).powerBlock = 0 ∧ (service [(K.autoPoiseIdle, 7)]).pw.request = none ∧
    (service [(K.powerState, 1)]).get K.powerState = 1 ∧ (service [(K.powerState, 4)]).get K.powerState = 4 ∧ (1 : Fin 3) ≠ 0 ∧
    6 ≤ (service [(K.portLinkState 0, 6), (K.powerState, 2)]).get (K.portLinkState 0) ∧ (service [(K.powerState, 2)]).get K.powerState ≠ 0 ∧
    6 ≤ (service [(K.portLinkState 1, 6)]).get (K.portLinkState 1) ∧ service.get K.powerState = 0 := by decide +kernel
theorem witness_PowerCommands_flit :
    [1, 2, 3, 4, 7].all (fun k => decide ((linkAt 2 {}).get (K.portLinkState 0) = 2) && decide (syncDiffs (flitOf 3 (powerPayload k)).sync = 0)
      && !(linkAt 2 {}).flag K.pepperEnable && decide (ctlKind (flitOf 3 (powerPayload k)) = 3)
      && decide (ctlSeq (flitOf 3 (powerPayload k)) = ((flitTaken 0 (flitOf 3 (powerPayload k)) (linkAt 2 {})).port 0).rxSeq)) = true := by decide +kernel
theorem witness_MeasurementCommands :
    let s := service
    s.adcInputs ≠ 0 ∧ s.mon.next % s.adcInputs ≠ 47 ∧
    (let t : State := { service with mon := { next := 47 } }
     t.mon.next % t.adcInputs = 47 ∧ (convert 47 0 0 0 t).mode ≠ 0 ∧ (convert 0 0 0 0 State.reset).mode = 0) ∧
    (convert (s.mon.next % s.adcInputs) 100 100 100 (s.modMon (fun m => { m with next := (s.mon.next % s.adcInputs + 1) % s.adcInputs }))).mode ≠ 0 ∧
    (let t : State := { objs [(K.deviceMode, 1)] with pw := { charger := true } }
     t.pw.charger = true ∧ t.bankMv < 1000 ∧ t.mode = 1) ∧
    (let t : State := { service with pw := { shorted := true } }
     t.pw.shorted = true ∧ t.pw.charger = false ∧ 1 ≤ t.mode ∧ t.mode ≤ 4) ∧
    (let t : State := { service with pw := { test := true }, mon := { v0 := some 5 } }
     t.pw.test = true ∧ t.mon.v0 = some 5) ∧
    (service [(K.adcSample 25, 0)]).get (K.adcSample 25) % 4 = 0 := by decide +kernel

/-- Bringup at a step, with the power state given. -/
def bringup (k : Nat) (f : Power) (l : List (Nat × Nat) := []) : State := { objs ([(K.deviceMode, 1), (K.bringupStep, k)] ++ l) with pw := f }
theorem witness_BringupCommands : State.reset.pw.resetLow = true ∧ State.reset.pw.aonValid = true ∧
    ({ State.reset with pw := { aonValid := false } } : State).pw.aonValid = false ∧ State.reset.mode = 0 ∧
    ({ State.reset with pw := { vinWait := true } } : State).pw.vinWait = true ∧ (bringup 2 {}).mode = 1 ∧ (bringup 2 {}).get K.bringupStep = 2 ∧
    (bringup 5 { groups := 1 }).railsRunning = true ∧ (bringup 5 { groups := 1 }).pw.hold = false ∧
    (bringup 5 { groups := 1, hold := true }).pw.hold = true ∧ (bringup 5 { groups := 4, hold := true }).railsRunning = true ∧
    (groupPairs 4).contains 11 = true ∧ (railGone 0 (bringup 5 { groups := 2 } [(K.railPowerGood, 1)])).railsRunning = true ∧ ((bringup 5 { groups := 2 } [(K.railPowerGood, 1)]).get K.railPowerGood).testBit 0 = true ∧
    (bringup 5 { railRetry := true }).pw.railRetry = true ∧ (bringup 8 { railsDone := true }).pw.railsDone = true ∧
    ((bringup 8 { railsDone := true }).chan 0).trained = false ∧ (bringup 8 { railsDone := true }).pw.restored = false ∧
    (bringup 8 { railsDone := true }).pw.dramDone = false ∧ (bringup 10 {} [(K.groupState, 1)]).get K.bringupStep = 10 ∧
    (bringup 10 {} [(K.groupState, 1)]).get K.groupState ≠ 0 ∧ (bringup 11 {} [(K.holdupEnergy, 1600)]).get K.bringupStep = 11 ∧
    (bringup 11 {} [(K.holdupEnergy, 1600)]).bankReady = true := by decide +kernel
/-- Which slot boots rests on the signature check, which is free: a committed slot that passes it boots. -/
theorem witness_BringupCommands_boot (s : State) (h : s.slotValid 0 = true) : s.bootSlot.isSome = true := by
  have hc : s.slotCommitted 0 = true := by simp only [State.slotValid, Bool.and_eq_true] at h; exact h.1
  simp only [State.bootSlot, State.bootOrder]
  rw [List.find?_isSome]
  refine ⟨0, ?_, h⟩
  rw [List.mem_filter]
  refine ⟨?_, hc⟩
  split <;> decide
theorem witness_BringupCommands_step1 :
    let u : State := { State.reset with pw := { resetLow := false, aonValid := true, vinWait := false } }
    u.mode = 0 ∧ u.bootRuns = true ∧ u.cooled = true := by decide
/-- The sweeps of a lane that passes: 90 positions and 40 references, with two usable points at each edge. -/
def lane : LaneSweep :=
  { pass := BitVec.ofNat 256 (2 ^ 100 - 2 ^ 10), below := [50, 40000], above := [50, 40000], refs := BitVec.ofNat 256 (2 ^ 150 - 2 ^ 110) }
/-- A rank that trains with its stored set. -/
def rankGood : RankResult :=
  { present := true, runs := [], sweeps := [], storedSweeps := [lane], mismatches := 0 }
/-- Stored sets of all the ranks. -/
def ranksStored : List (Nat × CalSet) := (List.range 24).map (fun k => (96 + k,
  { temp := 0, eyeWidth := 320, eyeHeight := 88, ber := 1484, params := List.replicate 167 0 }))
theorem witness_BringupCommands_dram :
    (trainDram (List.replicate 24 rankGood) { bringup 8 { railsDone := true } with cal := { formed := ranksStored } }).1 = false := by decide +kernel

theorem witness_ColdCommands : State.reset.mode = 0 ∧ ({ State.reset with pw := { resetLow := false } } : State).pw.resetLow = false ∧ ({ service with pw := { resetLow := false } } : State).pw.resetLow = false ∧ service.mode ≠ 0 ∧ service.mode ≠ 5 ∧
    service.serving = true ∧ (objs [(K.deviceMode, 1)]).mode = 1 ∧ (service [(K.resetState, 2)]).get K.resetState = 2 ∧
    (objs [(K.deviceMode, 5)]).mode = 5 := by decide
/-- Words at an address of the code-flash array. -/
def burn (cfa : Nat) (ws : List Sys2Proof.Word) (s : State) : State := s.over (ws.zip (List.range ws.length)) (fun s e => cfPut (cfa + e.2) (cfEncode e.1) s)
/-- What code flash keeps: one retained write. -/
theorem witness_ColdState :
    let t := enterCold 2 false (burn (2048 * 2176) (retainedWords 2 256 [0] 0 ++ entryWords K.retuneGain 2 5) State.reset)
    t.nv.saved.all (fun e => decide (e.1 ≠ K.echoConstant)) = true ∧ t.retainedImage.2.2.1.all (fun e => decide (e.key ≠ K.echoConstant)) = true ∧
    t.retainedImage.2.2.1.getLast? = some { kind := 1, key := K.retuneGain, value := 2, seq := 5 } ∧
    [K.retuneGain, K.echoConstant].all (fun k => !([K.lossRecordsIssued, K.lossPending, K.tornPages, K.retainedAccepted, K.retainedDurable, K.railPowerGood] ++
      (List.range 8).flatMap (fun sub => [K.dramRankState0 sub, K.dramRankState1 sub, K.dramSpareHalfState sub])).contains k
      && decide (k / 256 ≠ 0xD000 + 1176)) = true := by decide +kernel
theorem witness_ColdCommands_end :
    let v : Vigil := { trigger := 1, fromState := 0, startedAt := 0, d0 := 0, s1 := none, inflight := [], extra := [], outcomeBuilt := false, failSeq := 0,
                       nextSeq := 0, ordinal := 0, queued := 0, usedA := 0, usedExtra := 0 }
    let e : VigilEntry := { number := 0, designation := 0, addr := 0, marks := [0, 1, 2, 3, 4] }
    let s : State := { objs [(K.deviceMode, 5)] with pw := { vigil := some v }, nv := { vigilEntry := some e } }
    s.pw.vigil = some v ∧ s.nv.vigilEntry = some e ∧ s.mode = 5 ∧ s.vigilStepMet v 9 = true ∧ s.ev.wedged = [] ∧ s.pw.supplyLow = false := by decide

/-! ## Group -/

/-- A manager past start-up with member 3. -/
def manager (l : List (Nat × Nat) := []) : State := service ([(K.role, 1), (K.rosterEntry 3, 2 * 2 ^ 37)] ++ l)
theorem witness_GroupCommands : manager.isManager = true ∧ manager.pastStep3 = true ∧
    (manager.rosterMembers.any (fun k => k ≠ 0 && manager.rosterState k ≠ 3)) = true ∧ (3 : Fin 16).val ≠ 0 ∧ manager.rosterState 3 = 2 ∧
    service.isManager = false ∧ (service [(K.groupState, 2)]).get K.groupState = 2 ∧ (service [(K.groupState, 2)]).isMember = true ∧
    service.mode ≠ 0 ∧ service.mode ≠ 5 ∧ service.grp.joining = false ∧ 2 ≤ (service [(K.barrierState, 3)]).get K.barrierState ∧
    service.grp.rearm = false ∧ ({ service [(K.groupState, 2)] with grp := { rearm := true } } : State).grp.rearm = true ∧
    (service [(K.barrierState, 2)]).get K.barrierState = 2 ∧ (service [(K.snapshotState, 1)]).get K.snapshotState = 1 ∧
    (service [(K.snapshotState, 1)]).get K.snapshotSequence ≤ (service [(K.snapshotState, 1)]).get K.journalDurable ∧
    ({ service with grp := { preparing := true } } : State).isDrained = true ∧ ({ service with grp := { preparing := true } } : State).grp.reported = false ∧
    (service [(K.resetState, 1)]).get K.resetState = 1 ∧ ({ service with grp := { joining := true } } : State).grp.joining = true ∧
    ({ manager with grp := { preparing := true } } : State).isDrained = true := by decide +kernel
theorem witness_GroupCommands_relay :
    let s : State := { service with grp := { relays := [(pathCode .urvan, (4, 3))] } }
    Path.urvan ≠ .peer ∧ Path.urvan ≠ .stranger ∧ SMap.find? s.grp.relays (pathCode .urvan) = some (4, 3) ∧ (3 : Nat) ≠ 0x1F ∧
    SMap.find? ({ service with grp := { relays := [(pathCode .urvan, (4, 0x1F))] } } : State).grp.relays (pathCode .urvan) = some (4, 0x1F) ∧
    (let t : State := { service [(K.transferUnits, 4)] with grp := { xfer := some (1, []) } }
     t.grp.xfer = some (1, []) ∧ 1 < t.get K.transferUnits ∧ t.fetches = true) := by decide

/-- A control packet to the manager. -/
def hdr : PeerHdr :=
  { byteCount := 26, tag := 0, status := 0, source := 3, dest := 0, broadcast := false, west := false, hops := 1, generation := 0, argument := 2 ^ 20 + 5, duo1 := 9 }
theorem witness_PeerPacketsTaken : (1 : Fin 3) ≠ 0 ∧ manager.mode ≠ 0 ∧ manager.mode ≠ 5 ∧ manager.get K.powerState = 0 ∧ hdr.broadcast = false ∧
    (if hdr.dest = 0 then manager.isManager else decide (manager.get K.deviceNumber = hdr.dest.toNat) && manager.isMember) = true := by decide
/-- A worker of the group, and a control packet that names it. -/
def worker (l : List (Nat × Nat) := []) : State := service ([(K.deviceNumber, 6), (K.groupState, 2)] ++ l)
def toWorker (arg : BitVec 32) : PeerHdr := { hdr with source := 0, dest := 6, argument := arg }
theorem witness_PeerPacketsTaken_transaction : (transactionOf (transactionBytes 4) [0, 0, 0, 0]).isSome = true ∧ worker.get K.groupState ≠ 4 ∧
    worker.broadcastFresh { hdr with broadcast := true } = true ∧ manager.broadcastFresh { hdr with broadcast := true } = true := by decide
theorem witness_PeerPacketsTaken_worker :
    let s := service [(K.deviceNumber, 6), (K.groupState, 2)]; let h := { hdr with dest := 6 }
    (if h.dest = 0 then s.isManager else decide (s.get K.deviceNumber = h.dest.toNat) && s.isMember) = true := by decide
theorem witness_PeerPacketEffects_manager :
    let m := manager [(K.groupState, 2), (K.resetState, 1)]; let u := heardFrom hdr m
    (broadcastHeard 1 { hdr with broadcast := true } 0x13 0x01 [] m).isManager = true ∧
    (exitPower 3 1 (broadcastHeard 1 { hdr with broadcast := true } 0x12 0 [] { m with grp := { relays := [(0, (0, 0x1F))] } })).relayOf 0 0x1F = some 0 ∧ hdr.dest = 0 ∧
    u.isManager = true ∧ u.pastStep3 = true ∧ u.chooseNumber 0 0 false 1 15 = some 1 ∧
    ((u.set (K.rosterEntry 1) (2 * 2 ^ 37)).modGrp (fun g => { g with heard := SMap.insert g.heard 1 u.now })).get K.groupState = 2 ∧
    u.rosterState 3 ≠ 0 ∧ (5 : BitVec 32).toNat.testBit 20 = false ∧ (setRoster 3 23 3 0 (setRoster 3 26 3 0 u)).rosterState 3 = 2 ∧
    ({ u with grp := { u.grp with relays := [(0, (0, 3))] } } : State).relayOf hdr.tag.toNat hdr.source.toNat = some 0 ∧
    u.get K.resetState = 1 ∧ u.get K.groupState ≠ 4 := by decide +kernel
theorem witness_PeerPacketEffects_worker :
    let h := { toWorker 64 with broadcast := true }
    let u := broadcastHeard 1 h 0x13 0x05 [] worker
    u.isManager = false ∧ u.isMember = true ∧ u.get K.groupState = 2 ∧ (heardFrom (toWorker 64) worker).answers (sourcePath (toWorker 64)) = true ∧
    (exitPower 3 1 (broadcastHeard 1 h 0x12 0 [0, 2 ^ 18, 1, 0, 7] worker)).answers (sourcePath h) = true ∧
    (let z := broadcastHeard 1 h 0x13 0x01 [] (service [(K.deviceNumber, 6)])
     z.isManager = false ∧ z.seeksPlace = true) ∧
    (transactionOf (transactionBytes 5) [0, 2 ^ 18, 1, 0, 7]).map (fun x => x.1) = some 1 ∧
    (worker [(K.barrierState, 1), (K.barrierNumber, 9)]).arriveOk 9 = true ∧
    (worker [(K.snapshotNumber, 5), (K.snapshotState, 1)]).get K.snapshotNumber = 5 ∧ (worker [(K.snapshotState, 1)]).get K.snapshotState = 1 := by
  decide +kernel
theorem witness_PeerPacketEffects_transfer :
    let s := worker [(K.setState 0, 1), (K.setLogicalUnits 0, 9)]; let h := { toWorker 0 with duo1 := 5 }
    let y : XferUnit := { source := 0, port := 1, set := 0, lui := 5, entry := 0, empty := false, frames := [(0, 0)] }
    s.get (K.setState 0) ≠ 0 ∧ h.duo1.toNat / 2 ^ 37 = 0 ∧ h.duo1.toNat % 2 ^ 35 < s.get (K.setLogicalUnits 0) ∧ s.get K.groupState ≠ 3 ∧ h.status = 0 ∧
    s.grp.arriving = [] ∧ y.complete = false ∧ [5, 6].contains 5 = true ∧ [5, 6].erase 5 ≠ [] := by decide +kernel
theorem witness_PeerPacketEffects : hdr.argument.toNat.testBit 20 = true ∧
    hdr.argument.toNat % 1048576 = (manager [(K.snapshotNumber, 5)]).get K.snapshotNumber ∧ hdr.source ≠ 0 ∧ manager.rosterState hdr.source.toNat ≠ 0 ∧
    2 ≤ ({ hdr with hops := 2 } : PeerHdr).hops.toNat ∧ hdr.hops.toNat ≤ 1 ∧
    (let s : State := { objs [(K.deviceMode, 1)] with grp := { asked := true } }
     s.seeksPlace = true ∧ s.grp.asked = true ∧ s.mode = 1 ∧ s.isManager = false) := by decide

/-! ## Sideband, window, calibration, code flash -/

theorem witness_SidebandPorts : service.sbAlive 0 = true ∧ service.sbAlive 1 = true ∧ service.get K.powerState = 0 ∧
    (requestOf (List.replicate 10 0)).isSome = true ∧ (List.replicate 10 (0 : Byte)).length < 256 ∧
    (0x5A : Byte) ≠ pec (service.addressByte 0 0 :: BitVec.ofNat 8 0 :: []) ∧
    (service.sbPort 0).response.getD [] = [] := by decide +kernel
theorem witness_StretchTimeout : service.sbAlive 1 = true := by decide
theorem witness_HostAccess : service.hostReaches = true ∧ (4096 : BitVec 13) ≠ 0 ∧ (4096 : BitVec 13).toNat ≤ 4096 ∧ (0 : Duo).toNat < windowSize ∧
    service.awake.windowOk 0 4096 = true ∧ service.awake.windowOk (windowSize - 1) 2 = false ∧ subPoolBase ≤ (BitVec.ofNat 40 subPoolBase : Duo).toNat ∧
    (BitVec.ofNat 40 subPoolBase : Duo).toNat < subPoolBase + 40 * 262144 := by decide
theorem witness_WindowStores : 0x10000 ≤ 0x20000 ∧ 0x20000 ≠ 0x1FFFF ∧ 0x10000 ≤ 0x1FFFF ∧ State.reset.win.pendingStores = [] ∧ 0x10040 ≤ 0x10040 ∧
    (0x10014 : Nat) < 0x10020 ∧ [((0x20000 : Nat), (7 : Byte)), (0x20001, 8)].Pairwise (fun e f => e.1 ≠ f.1) ∧
    ((0x20001 : Nat), (8 : Byte)) ∈ [((0x20000 : Nat), (7 : Byte)), (0x20001, 8)] := by decide

/-- A DX-32 record of channel 0 for its default settings. -/
def dxRec : DxRec := { rate := 3600, drive := 2, odt := 1, set := { temp := 0, eyeWidth := 320, eyeHeight := 88, ber := 1484, params := [] } }
theorem witness_CalibrationCommands_reapply :
    let z := burn (2048 * calBase0 0) (calHeader 0 { CalRec.empty with rate := 3600, drive := 2, odt := 1 }) (burn (2048 * calBase0 0 + 2016) (dxWords 0 dxRec) State.reset)
    let s : State := { service [(K.chCalSource 0, 2)] with nv := z.nv, cal := { appliedT := [(0, 100)], applied := [(0, [1, 2])], kept := [(0, [1])] } }
    s.get (calSourceKey 0) = 2 ∧ 16 * s.get K.reapplyStep ≤ (s.calTemp 0 - SMap.getD s.cal.appliedT 0 0).natAbs ∧ (0 : Nat) < 120 ∧
    (s.storedSet 0).isSome = true ∧ SMap.getD s.cal.kept 0 [] ≠ [] ∧ (0 : Nat) < 96 := by decide +kernel
/-- Set 0 with the first pages of a closed row block's two word lines on media, on die 0 of channel 0, and surveys of two dies due. -/
def surveyUp : State :=
  let hb : HeaderBody := { kind := 1, set := 0, position := 0, width := 3, index := 0, calends := 0, generation := 0, row := 0, lui := 0, tag := 0, seq := 0 }
  let m : MediaPage := { bits := BitVec.ofNat 147456 ((encodeHeader hb).toNat * 2 ^ 146432), slc := false }
  let s := setUp gens ofSet
  { s with cal := { due := [dieKey 0 0, dieKey 0 1] },
           fl := { media := [(pmaPlace (s.memberPma 0 0 0 0 0), m), (pmaPlace (s.memberPma 0 0 0 1 0), m)] } }
/-- What its two pages count. -/
def ones : List (List (BitVec 16)) := [[0x4800, 0x4800, 0x4800, 0x4800], [0x4800, 0x4800, 0x4800, 0x4800]]
theorem witness_CalibrationCommands :
    let s := surveyUp
    let u := ((s.over ((s.surveyPages 0 0).take 2) (fun s p => surveyRead p s)).add (K.chPageReads 0) 2).modCal (fun x => { x with due := x.due.erase (dieKey 0 0) })
    s.surveyReady 0 0 = true ∧ 2 ≤ (s.surveyPages 0 0).length ∧
    (surveyOffset ((ones.map s.surveyEstimate).take 2)).isSome = true ∧ u.cal.due ≠ [] ∧
    (nth (ones.map s.surveyEstimate) 0 0 - nth (ones.map s.surveyEstimate) 1 0).natAbs ≤ 2 := by decide +kernel
theorem witness_CalibrationCommands_headers : ((surveyUp.surveyPages 0 0).take 2).all surveyUp.surveyHeader = true := by
  set_option maxRecDepth 20000 in decide +kernel
theorem witness_CalibrationCommands_save :
    let s : State := { service [(K.chDiesFitted 0, 1), (K.chState 0, 2), (K.chDieState 0 0, 1)] with dram := { directory := [(0, [0])] } }
    let v : MapSave := { seg := 0, start := 0, began := 0, entries := [] }
    s.serving = true ∧ s.wr.save = none ∧ s.saveDue = true ∧ s.nextSegment = some 0 ∧ v.left = 0 ∧ v.page < savePages ∧ s.saveChannels v.page ≠ [] := by
  decide +kernel

/-- A code-flash operation in progress, and a mailbox request that waits. -/
def cfOp : CfDesc := { slot := 0, opcode := 1, cls := 0, addr := 0, count := 1, sram := 0, data := [], purpose := .raw }
def mailboxAsks (operation kib units : Nat) : State :=
  { service with win := { bytes := [(0x10000, 1), (0x10004, BitVec.ofNat 8 operation), (0x1000C, BitVec.ofNat 8 kib), (0x10010, BitVec.ofNat 8 units)] } }
theorem witness_CodeFlashCommands : service.wardenRuns = true ∧ ({ service with cf := { cur := some cfOp } } : State).cf.cur = some cfOp ∧
    (mailboxAsks 1 128 1).mailboxWaits 1 = true ∧ (mailboxAsks 1 128 1).mailbox 0x10004 = 1 ∧ (mailboxAsks 1 128 1).mailboxIn 128 1 = true ∧
    (mailboxAsks 1 128 1).mailbox 0x1000C = 128 ∧ (mailboxAsks 1 128 1).mailbox 0x10010 = 1 ∧
    (mailboxAsks 1 128 1).mailbox 0x10008 + 1 ≤ 640 ∧ (mailboxAsks 2 127 1).mailboxWaits 2 = true ∧ (mailboxAsks 2 127 1).mailboxIn 127 1 = false ∧ (mailboxAsks 1 127 1).mailboxWaits 1 = true ∧ (mailboxAsks 1 127 1).mailboxIn 127 1 = false ∧
    (mailboxAsks 2 128 1).mailbox 0x10008 + (mailboxAsks 2 128 1).mailbox 0x10010 ≤ 4096 ∧ (mailboxAsks 2 128 1).mailboxWaits 2 = true ∧ (mailboxAsks 2 128 1).cf.cur = none ∧ (mailboxAsks 2 128 1).mailbox 0x10004 = 2 := by decide +kernel
theorem witness_ClearOfAnEventSource : testing.awake.mayWrite .urvan (0xD000 + 1233) 7 1 = true ∧ (5 : Fin 1536).val ≠ 1172 := by decide +kernel
theorem witness_PepperTripsAndWedges : (service [(K.pepperEnable, 1)]).mode ≠ 0 ∧ (service [(K.pepperEnable, 1)]).flag K.pepperEnable = true := by decide

/-! ## Almanac objects: a write or read of each that is no violation -/

/-- A write on the Urvan path with TEST, in Service with some objects set. -/
def may (idx sub v : Nat) (l : List (Nat × Nat) := []) : Bool := (testing l).awake.mayWrite .urvan idx sub v
/-- A read there. -/
def mayGet (idx sub : Nat) : Bool := testing.awake.mayRead .urvan idx sub

theorem witness_AlmanacManagementObjects : may 0x1011 1 0x0DEF0 = true ∧ may 0x1E00 4 1 = true ∧ may 0x1E00 6 1 = true ∧
    (service [(pathKey .urvan 0x1E00 5, 1)]).get (pathKey .urvan 0x1E00 5) = 1 := by decide +kernel
theorem witness_RingObjects : may 0xA000 1 1 [(K.ringEnable 0, 1)] = true ∧ may 0xBFDF 1 0 = true ∧ may 0xC000 1 1 [(K.cringEnable 0, 1)] = true ∧
    may 0xC000 1 0 = true ∧ may 0xA000 14 1 = true := by decide +kernel
theorem witness_ChannelAndMediaObjects : may (0x6003 + 0x40 * 95) 5 1 = true ∧ may (0x6001 + 0x40 * 95) 4 1 = true ∧ may 0x7801 1 5 = true ∧
    may 0x5017 18 1 = true ∧ may 0x5030 3 1 [(K.setState 0, 1)] = true ∧ may 0x5030 6 1 [(K.chDiesFitted 0, 1)] = true ∧
    may 0x5000 5 2 [(K.lossRecordsIssued, 3)] = true ∧ may 0x5010 7 8 [(K.setState 0, 1), (K.setMaxLogicalUnits 0, 9)] = true ∧ may 0x4017 9 1 = true ∧
    ({ testing [(rankStateKey 0 0, 1)] with dram := { trained := true } } : State).awake.mayWrite .urvan 0x4020 10 1 = true := by decide +kernel
theorem witness_LinkAndPowerObjects : may 0x8880 8 1 = true ∧ may 0x8880 9 1 = true ∧ testing.awake.mayWrite .sb0 0x8880 10 1 = true ∧
    may 0x2030 9 1 = true ∧ may 0x2000 6 0x0C01D = true ∧ may 0xE080 3 1 = true := by decide +kernel
/-- A calibration record of channel 0 with no set, as a host writes it (R333). -/
def record : List Sys2Proof.Word :=
  let h : List Sys2Proof.Word := [0x0CA96, 0x21000, 3600, 11, 0, 0, 0]
  h ++ [crc20Words h] ++ List.replicate 85 0xFFFFF
theorem witness_CalibrationAndGroupObjects : may 0x9001 4 1 = true ∧ may 0xF000 7 0x1EA5E = true ∧ may 0xF020 3 1 [(K.role, 1), (pathKey .urvan 0xF020 1, 3)] = true ∧
    may 0xF010 3 7 [(K.barrierState, 1), (K.barrierNumber, 7)] = true ∧ may 0xF010 12 7 [(K.role, 1), (K.barrierState, 1), (K.barrierNumber, 7)] = true ∧
    may 0xF030 1 0x0B0D0 [(K.role, 1)] = true ∧ may 0xF030 1 0x0B0FF [(K.role, 1)] = true ∧ may 0xF040 12 1 = true ∧
    may 0xF3C2 1 3600 [(K.role, 1)] = true ∧ may 0xF3C2 2 1 [(K.role, 1)] = true ∧ may 0xF3C2 3 1 [(K.role, 1)] = true ∧
    may 0xF3D1 1 1600 [(K.role, 1)] = true ∧
    may 0xF040 8 1 [(K.role, 1), (K.rosterEntry 3, 2 * 2 ^ 37), (K.transferDevice, 3), (K.setState 0, 1), (K.setLogicalUnits 0, 8), (K.transferUnits, 4)]
      = true := by decide +kernel
theorem witness_CalibrationImport :
    ((testing [(K.calSelectKind, 1)]).setBlob K.calImportData record).awake.mayWrite .urvan 0x9001 7 1 = true := by decide +kernel
theorem witness_FlashAndFaultObjects : may 0x8000 7 0 = true ∧ may 0x8000 10 1 = true ∧ may 0x8002 3 1 = true ∧ may 0x8002 7 1 = true ∧
    may 0x8002 10 1 = true ∧ may 0x8003 7 0 = true ∧ may 0x8003 9 2 [(K.securityVersion, 4)] = true ∧ may 0xD4D1 7 1 = true ∧ may 0xE000 1 1 = true ∧
    may 0xE000 1 0 = true ∧ may 0xE000 3 1 = true ∧ may 0xE050 5 1 = true := by decide +kernel
/-- An update is refused while no image is staged; which staged image it takes rests on the signature check, which is free. -/
theorem witness_FlashAndFaultObjects_update : testing.awake.updateOk = false := by decide +kernel
theorem witness_FlashAndFaultObjects_taken (s : State) (h : s.imageChecks false s.stagedWord = true) (h0 : s.get K.updateState = 0)
    (hp : s.slotProtected s.standby = false) (hv : s.get K.securityVersion ≤ imgSecurity s.stagedWord) : s.updateOk = true := by
  simp [State.updateOk, h, h0, hp, hv]
/-- A key is burned when CustomerKeyData is the digest of the running image's key, and not while no slot of the row is erased. -/
theorem witness_FlashAndFaultObjects_key (s : State) (h : [0, 1].any s.keyErased = true) (hc : s.customerSlot = none)
    (hd : s.blob K.customerKeyData = digestWords (wordBytes 96 (imgWords (s.slotWord (s.get K.activeSlot)) 104 39))) : s.keyBurnOk = true := by
  simp only [State.keyBurnOk, h, hc, hd]
  simp
theorem witness_FlashAndFaultObjects_noKey : [0, 1].any testing.keyErased = true ∧ testing.customerSlot = none ∧
    ({ testing with nv := { otp := [(91, 0), (111, 0)] } } : State).keyBurnOk = false := by decide +kernel
theorem witness_ReadsThatReset : mayGet (0x6014 + 0x40 * 95) 3 = true ∧ mayGet 0x5800 3 = true ∧ mayGet 0x5900 11 = true ∧ mayGet 0x5900 12 = true ∧
    mayGet (0x3100 + 47) 1 = true := by decide +kernel
theorem witness_AlmanacTransactions_objects : mayGet 0x1002 1 = true ∧ may 0x5030 1 7 = true ∧ (drainStores testing.awake).mayWrite .urvan 0x5030 1 7 = true := by
  decide +kernel
theorem witness_AlmanacTransactions : service.answers .urvan = true ∧ [(0 : Sys2Proof.Word)].length = valueCount (oneHeader 0 0x1010 1 3) ∧
    State.reset.answers .urvan = false ∧ service.mode ≠ 0 ∧ service.mode ≠ 5 ∧ service.get (K.portLinkState 0) = 2 ∧ (headerOf 0 0).1 = 0 ∧
    (BitVec.ofNat 13 (transactionBytes 4)).toNat = transactionBytes 4 ∧ (0 : BitVec 13).toNat ≠ transactionBytes 4 := by decide +kernel
theorem witness_ViolationChangesNothing : service.named .urvan true (oneHeader 0 0x1010 200 3) = none ∧ service.named .urvan false (oneHeader 0 0x1010 200 3) = none ∧
    ({ oneHeader 0 0x1010 1 3 with count := 0 } : Sys2Proof.ReqHeader).count = 0 ∧ 256 < ({ oneHeader 0 0x1010 1 3 with count := 257 } : Sys2Proof.ReqHeader).count.toNat ∧
    (service.pathState .stranger).test = false := by decide +kernel
theorem witness_RestrictedAlmanac : (objs [(K.deviceMode, 5)]).mode = 5 ∧ onSideband .urvan = false ∧ State.reset.mode = 0 ∧
    (oneHeader 0 0x1010 1 3).index.toNat ≠ 0x1E00 := by decide
theorem witness_TestLost : (testing.pathState .urvan).test = true ∧ (service.pathState .urvan).test = false := by decide

/-! ## Values that the manual writes out -/

/-- Channel 37, die 9, plane 2, block 1,234, page 567 (01_architecture.md). -/
theorem test_pma : pmaOf 0 37 9 2 1234 567 = 0x4B3269237 ∧ pmaCh 0x4B3269237 = 37 ∧ pmaDie 0x4B3269237 = 9 ∧ pmaBlock 0x4B3269237 = 1234 := by decide
/-- The sideband read of the state of channel 37 (02_almanac.md). -/
theorem test_request_bytes :
    requestOf [0x48, 0x40, 0x50, 0x9A, 0x04, 0x01, 0x00, 0x00, 0x00, 0x00] = some (0, oneHeader 0x12 0x6941 1 2, []) := by decide +kernel
/-- The state of a channel in service is the value word 2 (02_almanac.md). -/
theorem test_channel_state : (almanacRead .sb0 (oneHeader 0x12 0x6941 1 2) (service [(K.chState 37, 2)])).1 = [2] := by decide +kernel
/-- The READ of LBA 1,000,000 (03_rings.md). -/
theorem test_descriptor :
    let d : Descriptor := BitVec.ofNat 320 (0x0400000ABC + 2 ^ 80 * 0xF4240 + 2 ^ 120 * 4 + 2 ^ 160 * 0x1234000)
    descOpcode d = 1 ∧ descCommandId d = 0xABC ∧ descLba d = 1000000 ∧ descCount d = 4 ∧ descHost d = 0x1234000 ∧ descBarrier d = false := by decide
/-- Its completion (03_rings.md). -/
theorem test_completion :
    (withPhase (completionBits 0 0 5 37 0xABC 0 1 false false false 16384 7) true).toNat
      = 0x8000140025 + 2 ^ 40 * 0x00ABC02000 + 2 ^ 80 * 0x4000 + 2 ^ 120 * 7 := by decide
/-- READ of LBA 1,000,002 with six blocks touches units 250,000 in part and 250,001 whole (05_read_path.md). -/
theorem test_units : unitsOf 1000002 6 = [(250000, false), (250001, true)] := by decide
/-- g·0x2AA and g²·0x0F0 (04_write_path.md). -/
theorem test_symbols : gShift 0x2AA = 0x15D ∧ gShift (gShift 0x0F0) = 0x3C0 ∧ (0x155 ^^^ 0x15D ^^^ 0x3C0 : Nat) = 0x3C8 := by decide
/-- The entry of unit 250,000 in segment 37 (09_dram.md). -/
theorem test_entry_address :
    ({ service with dram := { directory := [(0, [37])] } } : State).entryDa 0 250000 = some 3105034960 := by decide
/-- P and Q of die number 3, row block 100, word line 7 of a set of 12, whole and with position 5 absent (06_redundancy.md). -/
theorem test_parity_positions :
    let g : GenRec := { num := 0, width := 12, firstRow := 0, channels := List.range 12, absent := [], logicalUnits := 0, spare := 48 }
    g.parity 3 100 7 = (2, 3) ∧ g.dataPresent 3 100 7 = [0, 1, 4, 5, 6, 7, 8, 9, 10, 11] ∧
    ({ g with absent := [0, 0, 0, 0, 0, 0xFFFF] } : GenRec).parity 3 100 7 = (0, 1) ∧
    (({ g with absent := [0, 0, 0, 0, 0, 0xFFFF] } : GenRec).dataPresent 3 100 7).length = 9 := by decide
/-- MaxLogicalUnits and RebuildFitUnits of 12 members with 2 Tbit dies and SpareReserve 48 (06_redundancy.md). -/
theorem test_max_units :
    let g : GenRec := { num := 0, width := 12, firstRow := 0, channels := List.range 12, absent := [], logicalUnits := 0, spare := 48 }
    let s := service
    s.maxUnits g = 2537553920 ∧ s.fitUnits g = 2283798528 := by decide +kernel
/-- A skew of 300 ones with RetuneGain 3 moves by −2 (05_read_path.md). -/
theorem test_retune : skewOf 18604 = 300 ∧ retuneMove 3 300 1 = -2 := by decide
/-- The record signature's check is 12; the word cut short reads as a failed check (16_warden_codeflash.md). -/
theorem test_check : cfEncode 0x0CA96 = BitVec.ofNat 26 (12 * 2 ^ 20 + 0x0CA96) ∧ cfDecode (cfEncode 0x0CA96) = some 0x0CA96 ∧
    cfDecode (BitVec.ofNat 26 (14 * 2 ^ 20 + 0x0EA96)) = none := by decide
/-- The stored set at 40.0 °C between 24.0 °C and 51.5 °C (11_calibration.md). -/
theorem test_interpolation : calLerp 640 384 824 118 124 = 121 ∧ calLerp 640 384 824 (-3) (-1) = -2 := by decide
/-- The bank of 9.4 mF (13_power_vigil.md). -/
theorem test_capacitance : (finishTest 33000 32825 service).get K.holdupCapacitance / 10 = 940 := by decide +kernel
/-- EchoConstant on a sideband port (02_almanac.md). -/
theorem test_echo : (almanacRead .sb0 (oneHeader 0 0x1002 1 3) service).1 = [0xA5C35] := by decide +kernel

/-! ## Behaviour, one command at a time -/

/-- What a command leaves, read at one object. -/
def after (c : Sys2Proof.Instr) (s : State) (k : Nat) : Option Nat := match exec c s with | .next t => some (t.get k) | _ => none

/-- R77: a doorbell below the Tail's distance from Head is not accepted. -/
theorem test_doorbell : after (.submissionDoorbell 0 5) ringUp (K.ringTail 0) = some 5 ∧ after (.submissionDoorbell 0 0) ringUp (K.ringTail 0) = some 1 := by decide
/-- R85: the post to the last slot wraps Tail and toggles Phase. -/
theorem test_phase_wraps : (postEntry 0 0 (service [(K.cringSizeLog2 0, 4), (K.cringTail 0, 15), (K.cringPhase 0, 1)])).get (K.cringTail 0) = 0 ∧
    (postEntry 0 0 (service [(K.cringSizeLog2 0, 4), (K.cringTail 0, 15), (K.cringPhase 0, 1)])).get (K.cringPhase 0) = 0 := by decide
/-- R14: a trip in S0 raises VDD_CORE by one step, and at code 9 counts VidLimit. -/
theorem test_vid : after (.handshakeWatchdog 2 5 false) (service [(K.vidCode, 5)]) K.vidCode = some 6 ∧
    after (.handshakeWatchdog 2 5 false) (service [(K.vidCode, 9)]) (K.evCount 1169) = some 1 := by decide +kernel
/-- R350: the fall of MOD_RST_N enters Cold with cause 2. -/
theorem test_cold : after .modRstNFall { service with pw := { resetLow := false } } K.deviceMode = some 0 := by decide +kernel
/-- R403: a stretch that reaches 25 ms resets the port. -/
theorem test_stretch : after (.stretchTimeout 1) service (K.sbPortResets 1) = some 1 := by decide +kernel
/-- R100: the general window is seen by others only once earlier stores are made visible. -/
theorem test_window :
    let s := storeWord [(0x20000, 7), (0x20001, 8)] State.reset
    s.windowByte 0x20001 = 8 ∧ SMap.getD s.win.bytes 0x20001 0 = 0 ∧ SMap.getD (drainStores s).win.bytes 0x20001 0 = 8 := by decide
/-- R321: two edges with 1,049, 3,752 and 11,576 mismatches at 12 to 14 steps. -/
theorem test_residual : residualBer (edgePoints 12 20 [1049, 3752, 11576]) [] = 1484 := by
  set_option maxRecDepth 10000 in decide +kernel


end Sys2Proof.Tests
end

section
/-! SUPPORT. Proofs of the architecture family (01_architecture.md): handshake watchdogs and the VDD_CORE code. -/

namespace Sys2Proof.Machine

/-- The wait of R14 and R362 is over exactly when 10 µs have passed since any last change of the code. -/
theorem State.vidRecent_eq_false_iff (s : State) : s.vidRecent = false ↔ ∀ t, s.ev.vidAt = some t → t + 10 ≤ s.now := by
  cases h : s.ev.vidAt <;> simp [State.vidRecent, h]

/-- Without Pepper no stage's phases are counted down: a trip is its occurrence, its time, and the raise (R14, R484). -/
theorem exec_handshakeWatchdog_unforced (cls : Fin 8) (stage : Fin 4096) (s : State) :
    exec (.handshakeWatchdog cls stage false) s
      = .next (vidRaise cls ((occur (1152 + cls) stage s).modEv (fun e => { e with tripAt := some (occur (1152 + cls) stage s).now }))) := by
  simp [exec, execHandshakeWatchdog]

/-- A code that a mode or a power state asked for comes before a pending raise (R362; log entry 166). -/
theorem exec_vidStepWaitEnd_of_target {s : State} {code : Nat} (htarget : s.ev.vidTarget = some code) :
    exec .vidStepWaitEnd s = .next (vidSet code s) := by
  simp [exec, execVidStepWaitEnd, htarget]

/-- With no code asked for, a pending raise takes effect and is counted (R14). -/
theorem exec_vidStepWaitEnd_of_pending {s : State} (htarget : s.ev.vidTarget = none) (hpending : s.ev.vidPending = true)
    (hcode : s.get K.vidCode < 9) :
    exec .vidStepWaitEnd s = .next (vidSet (s.get K.vidCode + 1) (s.inc K.vidRaises)) := by
  have hbelow : ¬ 9 ≤ s.get K.vidCode := Nat.not_le.mpr hcode
  simp [exec, execVidStepWaitEnd, htarget, hpending, hbelow]

/-- The code falls by one step once both conditions of R15 hold and the change may be made (R362). -/
theorem exec_vidLower_of_quiet {s : State} (hserving : s.serving = true) (hstate : s.get K.powerState ≤ 2) (hcode : s.get K.vidCode ≠ 0)
    (htrip : ∀ t, s.ev.tripAt = some t → t + 1000 ≤ s.now) (hrecent : s.vidRecent = false) (hpending : s.ev.vidPending = false)
    (htarget : s.ev.vidTarget = none) :
    exec .vidLower s = .next (vidSet (s.get K.vidCode - 1) (s.inc K.vidLowers)) := by
  cases h : s.ev.tripAt with
  | none => simp [exec, execVidLower, hserving, hstate, hcode, hrecent, hpending, htarget, h]
  | some t =>
    have hlong : ¬ s.now < t + 1000 := Nat.not_lt.mpr (htrip t h)
    simp [exec, execVidLower, hserving, hstate, hcode, hrecent, hpending, htarget, h, hlong]

/-- Settles O27: one lemma per command, with the wait of 10 µs read through `State.vidRecent`. -/
theorem watchdogAndVid : Obligations.WatchdogAndVid := by
  intro s
  refine ⟨fun cls stage => exec_handshakeWatchdog_unforced cls stage s, fun code => exec_vidStepWaitEnd_of_target,
    exec_vidStepWaitEnd_of_pending, ?_⟩
  intro hserving hstate hcode htrip hlast hpending htarget
  have hrecent : s.vidRecent = false := s.vidRecent_eq_false_iff.mpr hlast
  exact exec_vidLower_of_quiet hserving hstate hcode htrip hrecent hpending htarget

end Sys2Proof.Machine
end

section
/-! SUPPORT. Proofs of the Almanac family (02_almanac.md): how a transaction is served, which accesses are violations, and what the objects of the
Almanac's own tables read and do. -/

namespace Sys2Proof.Machine

/-! ## Serving a transaction (R49 to R51, R58, R65) -/

/-- A path that does not answer serves nothing (R58). -/
theorem serve_of_not_answers {s : State} {p : Path} (op : Nat) (r : ReqHeader) (ws : List Word) (h : s.answers p = false) :
    serve p op r ws s = s := by
  simp [serve, h]

/-- A path that answers hands on a transaction whose words are as many as its header calls for (R65). -/
theorem serve_eq_serveWith {s : State} {p : Path} {op : Nat} {r : ReqHeader} {ws : List Word} (h : s.answers p = true)
    (hl : op = 1 ∨ op = 2 → ws.length = valueCount r) : serve p op r ws s = serveWith (respond p op r) p op r ws s := by
  have hcount : ¬ ((op = 1 ∨ op = 2) ∧ ws.length ≠ valueCount r) := fun hc => hc.2 (hl hc.1)
  rw [serve, if_neg (by simp [h]), if_neg hcount]

theorem serve_read {s : State} {p : Path} {r : ReqHeader} (h : s.answers p = true) :
    serve p 0 r [] s = respond p 0 r (almanacRead p r s.awake).1 (almanacRead p r s.awake).2 := by
  rw [serve_eq_serveWith h (by simp)]
  rfl

theorem serve_write {s : State} {p : Path} {r : ReqHeader} {ws : List Word} (h : s.answers p = true) (hl : ws.length = valueCount r) :
    serve p 1 r ws s = afterWrite r.index.toNat (almanacWrite p r ws s.awake).1 (respond p 1 r [] (almanacWrite p r ws s.awake).2) := by
  rw [serve_eq_serveWith h (fun _ => hl)]
  rfl

theorem orderStores_ordered (p : Path) (s : State) : orderStores p 2 s = if p = .urvan then drainStores s else s := by
  cases p <;> rfl

theorem serve_orderedWrite {s : State} {p : Path} {r : ReqHeader} {ws : List Word} (h : s.answers p = true) (hl : ws.length = valueCount r) :
    serve p 2 r ws s = afterWrite r.index.toNat (almanacWrite p r ws (if p = .urvan then drainStores s.awake else s.awake)).1
      (respond p 2 r [] (almanacWrite p r ws (if p = .urvan then drainStores s.awake else s.awake)).2) := by
  rw [serve_eq_serveWith h (fun _ => hl), ← orderStores_ordered]
  rfl

theorem serve_rsvd {s : State} {p : Path} {r : ReqHeader} (h : s.answers p = true) : serve p 3 r [] s = respond p 3 r [] s.awake := by
  rw [serve_eq_serveWith h (by simp)]
  rfl

/-! ## Violations (R58, R63, R64) -/

theorem named_eq_none_of_mode {s : State} {p : Path} {w : Bool} {r : ReqHeader} (h : s.modeAllows r.index.toNat w = false) :
    s.named p w r = none := by
  simp [State.named, h]

theorem named_eq_none_of_elemsOf {r : ReqHeader} (h : elemsOf r = none) (s : State) (p : Path) (w : Bool) : s.named p w r = none := by
  simp [State.named, h]

/-- A Count of 0 or above 256 names no elements (R48; log entry 16). -/
theorem elemsOf_eq_none_of_count {r : ReqHeader} (h : r.count.toNat = 0 ∨ 256 < r.count.toNat) : elemsOf r = none := by
  simp only [elemsOf, if_pos h]

/-- An access that names elements names at least one (R48). -/
theorem elemsOf_ne_nil {r : ReqHeader} {es : List Elem} (h : elemsOf r = some es) : es ≠ [] := by
  rintro rfl
  unfold elemsOf at h
  extract_lets idx sub n at h
  split at h
  case isTrue => cases h
  case isFalse hcount =>
    obtain ⟨m, hm⟩ : ∃ m, n = m + 1 := Nat.exists_eq_succ_of_ne_zero (fun h0 => hcount (.inl h0))
    cases ho : objAt idx sub with
    | none => simp [ho] at h
    | some e =>
      simp only [ho, hm, List.range_succ_eq_map, List.mapM_cons] at h
      split at h
      · split at h <;> cases h
      · split at h
        · cases h
        · simp [Option.bind_eq_some_iff] at h

/-- An access of which no element is allowed on the path is a violation (R40, R63). -/
theorem named_eq_none_of_not_allows {s : State} {p : Path} {w : Bool} {r : ReqHeader}
    (h : ∀ e, s.allows p r.index.toNat r.typ.toNat w e = false) : s.named p w r = none := by
  unfold State.named
  split
  · rfl
  · cases he : elemsOf r with
    | none => rfl
    | some es =>
      obtain ⟨e, rest, rfl⟩ := List.exists_cons_of_ne_nil (elemsOf_ne_nil he)
      simp [h e]

/-- A path without a class of its own, that holds no TEST, may access nothing (R40, R41). -/
theorem allows_stranger {s : State} (h : (s.pathState .stranger).test = false) (idx typ : Nat) (w : Bool) (e : Elem) :
    s.allows .stranger idx typ w e = false := by
  simp [State.allows, State.classes, h]

theorem almanacWrite_of_violation {s : State} {p : Path} {r : ReqHeader} (h : s.named p true r = none) (ws : List Word) :
    almanacWrite p r ws s = ([], s) := by
  simp [almanacWrite, h]

theorem almanacRead_of_violation {s : State} {p : Path} {r : ReqHeader} (h : s.named p false r = none) :
    almanacRead p r s = (List.replicate (valueCount r) 0, s) := by
  simp [almanacRead, h]

/-- Settles O58: a violation is read off `State.named`; a bad Count names no element, and a path without classes allows none. -/
theorem violationChangesNothing : Obligations.ViolationChangesNothing := by
  intro p r ws s
  refine ⟨fun h => almanacWrite_of_violation h ws, almanacRead_of_violation, fun hcount => ?_, ?_⟩
  · have hnone : elemsOf r = none := elemsOf_eq_none_of_count (hcount.imp_left (fun h => by simp [h]))
    exact ⟨named_eq_none_of_elemsOf hnone s p true, named_eq_none_of_elemsOf hnone s p false⟩
  · rintro rfl htest
    exact named_eq_none_of_not_allows (allows_stranger htest _ _ true)

/-! ## What each mode admits (R58, R350) -/

theorem availability_vigil {s : State} (h : s.mode = 5) : s.availability = 3 := by
  simp [State.availability, h]

/-- In Cold the Almanac is served in the restricted form at most (R58). -/
theorem availability_cold {s : State} (h : s.mode = 0) : s.availability = if s.bootRuns then 1 else 0 := by
  simp [State.availability, h]

theorem modeAllows_vigil_write {s : State} (h : s.mode = 5) (idx : Nat) : s.modeAllows idx true = false := by
  simp [State.modeAllows, availability_vigil h]

theorem modeAllows_cold_write {s : State} (h : s.mode = 0) {idx : Nat} (hi : idx ≠ 0x1E00) : s.modeAllows idx true = false := by
  unfold State.modeAllows
  rw [availability_cold h]
  cases s.bootRuns <;> simp [hi]

/-- The Urvan link and the peer ring carry no transaction in Cold and in Vigil (R58; log entry 30). -/
theorem answers_off_sideband {s : State} {p : Path} (hp : onSideband p = false) (h : s.mode = 0 ∨ s.mode = 5) : s.answers p = false := by
  rcases h with h | h <;> simp [State.answers, hp, h]

/-- Settles O59: `State.modeAllows` for the writes, `State.answers` for the paths. -/
theorem restrictedAlmanac : Obligations.RestrictedAlmanac := by
  intro s p r
  exact ⟨fun h => named_eq_none_of_mode (modeAllows_vigil_write h _), fun h hp => answers_off_sideband hp (.inr h),
    fun h hp => answers_off_sideband hp (.inl h), fun h hi => named_eq_none_of_mode (modeAllows_cold_write h hi)⟩

/-! ## TEST on a path (R41, R43) -/

theorem evKey_ne_of_sub {n a b : Nat} (h : a ≠ b) : key (0xD000 + n) a ≠ key (0xD000 + n) b := by
  unfold key
  omega

/-- An occurrence without its log record counts its source (R472). -/
theorem occurQuiet_count (n arg : Nat) (s : State) : (occurQuiet n arg s).get (K.evCount n) = s.get (K.evCount n) + 1 := by
  have p2 : K.evCount n ≠ K.evLastArgument n := evKey_ne_of_sub (by decide)
  have p3 : K.evCount n ≠ K.evLastUptime n := evKey_ne_of_sub (by decide)
  have p4 : K.evCount n ≠ K.evLatched n := evKey_ne_of_sub (by decide)
  have p5 : K.evCount n ≠ K.evPending n := evKey_ne_of_sub (by decide)
  unfold occurQuiet
  extract_lets s1 s2 s3 s4
  have h3 : s3.get (K.evCount n) = s.get (K.evCount n) + 1 :=
    (State.get_set_ne _ _ p3).trans ((State.get_set_ne _ _ p2).trans (State.get_set_self _ _ _))
  have h4 : s4.get (K.evCount n) = s3.get (K.evCount n) := by
    show (ite _ _ _ : State).get _ = _
    split
    · rfl
    · unfold State.when
      split <;> exact State.get_set_ne _ _ p4
  rw [← h3, ← h4]
  split
  · split
    · rfl
    · exact State.get_set_ne _ _ p5
  · rfl

/-- An occurrence counts its source once (R472); LogThrottled, which a log record may raise, is another source. -/
theorem occur_count {n : Nat} (hn : n ≠ 1172) (arg : Nat) (s : State) : (occur n arg s).get (K.evCount n) = s.get (K.evCount n) + 1 := by
  have hkey : K.evCount n / 256 ≠ 0xD000 + 1172 := by
    show (256 * (0xD000 + n) + 4) / 256 ≠ _
    omega
  unfold occur
  extract_lets logged u
  unfold State.when
  split
  · exact (logEvent_get n arg _ hkey).trans (occurQuiet_count n arg s)
  · exact occurQuiet_count n arg s

/-- A path's TestState is no object of an event source (R42, R60). -/
theorem testStateKey_div_ne (p : Path) {n : Nat} (hn : n < 1536) : pathKey p 0x1E00 5 / 256 ≠ 0xD000 + n := by
  show (256 * 0x1E00 + 5 + (pathCode p + 1) * 4294967296) / 256 ≠ _
  omega

/-- Settles O60: what `loseTest` sets stays so through the occurrence of TestUnlocked that may follow. -/
theorem testLost : Obligations.TestLost := by
  intro p s
  have hsource : pathKey p 0x1E00 5 / 256 ≠ 0xD000 + 1232 := testStateKey_div_ne p (by decide)
  have hthrottled : pathKey p 0x1E00 5 / 256 ≠ 0xD000 + 1172 := testStateKey_div_ne p (by decide)
  have hcount : K.evCount 1232 ≠ pathKey p 0x1E00 5 := (evKey_ne (by decide) hsource).symm
  unfold loseTest
  extract_lets held verifying t u
  have hpath : (u.pathState p).test = false := by
    show (t.pathState p).test = false
    rw [State.pathState_modPath_self]
  have hstate : u.get (pathKey p 0x1E00 5) = 0 := State.get_set_self _ _ _
  have hkept : u.get (K.evCount 1232) = s.get (K.evCount 1232) := State.get_set_ne t 0 hcount
  unfold State.when
  split
  case isTrue hheld =>
    refine ⟨?_, ?_, ?_⟩
    · rw [State.pathState, occur_paths]
      exact hpath
    · rw [occur_get _ _ _ hsource hthrottled, hstate]
    · rw [occur_count (by decide), hkept]
  case isFalse hheld => exact ⟨hpath, hstate, hkept⟩

/-- A write to a write-only object below 0x2000 is answered after its effect (R38, R49). -/
theorem serve_write_command {s t : State} {p : Path} (tag : BitVec 8) {idx sub typ inst : Nat} {r : ObjRow} {v : Word}
    (hm : s.awake.mayWrite p idx sub v.toNat = true) (ho : objAt idx sub = some (inst, r)) (hi : idx < 0x2000) (hs : sub < 256)
    (hc : r.ty.code = typ) (ht : typ < 5) (hw : r.wordwise = false) (ha : r.acc = .wo)
    (heff : (if idx = 0x1011 then restoreDefaults p s.awake else writeEffect p idx sub inst (v.toNat &&& r.keep) s.awake) = t) :
    serve p 1 (oneHeader tag idx sub typ) [v] s = respond p 1 (oneHeader tag idx sub typ) [] t := by
  have hlen : typeWords typ = 1 := by
    unfold typeWords
    rw [if_neg (by omega)]
  rw [← wordsNat_one v] at hm heff
  rw [serve_write_one tag hm ho (by omega) hs hc (by omega) hw (by simp [hlen]), if_neg (by omega), writeObj_wo _ _ _ _ _ _ ha,
    afterEffect_none _ _ _ _ (by omega) (by omega) (by omega), heff]

theorem objAt_restoreDefaults :
    objAt 0x1011 1 = some (0, ⟨"RestoreDefaults", 1, 1, .w20, .wo, 3, .lit 0, .oneOf [0x0DEF0], allOnes40, 1⟩) := rfl

/-- Settles O50: the three command objects are writes of one element; TEST_VERIFY_DONE is no transaction. -/
theorem almanacManagementObjects : Obligations.AlmanacManagementObjects := by
  intro p tag s
  refine ⟨fun v hv => ?_, fun hv => ?_, fun hv => ?_, fun hstate hpeer hstranger => ?_⟩
  · exact congrArg Host.Outcome.next
      (serve_write_command tag hv objAt_restoreDefaults (by decide) (by decide) rfl (by decide) rfl rfl (if_pos rfl))
  · exact congrArg Host.Outcome.next (serve_write_command (v := 1) tag hv rfl (by decide) (by decide) rfl (by decide) rfl rfl rfl)
  · exact congrArg Host.Outcome.next (serve_write_command (v := 1) tag hv rfl (by decide) (by decide) rfl (by decide) rfl rfl rfl)
  · have hcond : s.get (pathKey p 0x1E00 5) = 1 ∧ p ≠ .peer ∧ p ≠ .stranger := ⟨hstate, hpeer, hstranger⟩
    simp only [exec, execTestVerifyDone, if_pos hcond]

/-! ## What an object reads as (R44, R62) -/

/-- Only the objects of a stripe set and the manager's may be hidden (R143, R197, R253, R444). -/
theorem hidden_eq_none {idx : Nat} (h : idx < 0x5010 ∨ (0x5800 ≤ idx ∧ idx < 0x5810) ∨ (0x5900 ≤ idx ∧ idx < 0x7810)) (s : State)
    (sub inst : Nat) (r : ObjRow) : s.hidden idx sub inst r = none := by
  have hman : managerOnly idx sub = false := by
    unfold managerOnly
    simp only [Bool.or_eq_false_iff, Bool.and_eq_false_iff, beq_eq_false_iff_ne, ne_eq]
    omega
  unfold State.hidden
  extract_lets none_
  rw [hman, if_neg (by simp)]
  iterate 4 rw [if_neg (by omega)]

/-- Objects that may not be hidden read as their number. -/
theorem readElem_shown {idx sub : Nat} (h : idx < 0x5010 ∨ (0x5800 ≤ idx ∧ idx < 0x5810) ∨ (0x5900 ≤ idx ∧ idx < 0x7810)) (hsub : sub ≠ 0)
    (s : State) (p : Path) (inst : Nat) (r : ObjRow) :
    s.readElem p idx sub inst r = valueWords r.ty (key idx sub) (s.readRaw p idx sub inst) := by
  simp [State.readElem, hidden_eq_none h, hsub]

theorem ownMoves_eq_false {idx : Nat} (h : idx < 0xA000) (sub : Nat) : ownMoves idx sub = false := by
  have h1 : ¬ 0xA000 + 8160 ≤ idx := by omega
  have h2 : ¬ 0xC000 + 4080 ≤ idx := by omega
  simp [ownMoves, h1, h2]

theorem pathKey_eq_key {idx : Nat} (h : 0x1E00 < idx ∧ idx < 0xF020) (p : Path) (sub : Nat) : pathKey p idx sub = key idx sub := by
  have hpp : perPathIndex idx = false := by
    unfold perPathIndex
    simp only [Bool.or_eq_false_iff, beq_eq_false_iff_ne, ne_eq]
    omega
  rw [pathKey, if_neg (by simp [hpp])]

/-- PinCurrentPeak of a channel reads as it stands (R222). -/
theorem readRaw_pinCurrentPeak (c : Fin 96) (p : Path) (s : State) :
    s.readRaw p (0x6014 + 0x40 * c.val) 3 c.val = s.get (key (0x6014 + 0x40 * c.val) 3) := by
  have hc := c.isLt
  have hmod : (0x6014 + 0x40 * c.val - 0x6000) % 0x40 ≠ 0x19 := by omega
  unfold State.readRaw
  extract_lets stored
  have hstored : stored = s.get (key (0x6014 + 0x40 * c.val) 3) := by rw [← pathKey_eq_key (by omega) p]
  split
  case h_18 => rw [ownMoves_eq_false (by omega), if_neg (by simp), if_pos (by omega), if_neg hmod, hstored]
  all_goals omega

/-- Sample of an input is computed at its read (R393). -/
theorem readRaw_sample (i : Fin 48) (p : Path) (s : State) : s.readRaw p (0x3100 + i.val) 1 i.val = s.sampleDuo i := by
  have hi := i.isLt
  unfold State.readRaw
  extract_lets stored
  split
  case h_18 =>
    rw [ownMoves_eq_false (by omega), if_neg (by simp)]
    iterate 5 rw [if_neg (by omega)]
    rw [if_pos (by omega)]
    rfl
  all_goals omega

theorem readRaw_hostSlotsPeak (p : Path) (s : State) : s.readRaw p 0x5800 3 0 = s.get K.hostSlotsPeak := rfl

theorem readRaw_softQueuePeak (p : Path) (s : State) : s.readRaw p 0x5900 11 0 = s.get K.softQueuePeak := rfl

theorem readRaw_reorderPeak (p : Path) (s : State) : s.readRaw p 0x5900 12 0 = s.get K.reorderPeak := rfl

theorem readEffect_hostSlotsPeak (s : State) : readEffect 0x5800 3 s = s.set K.hostSlotsPeak s.wr.hostSlots.length := rfl

theorem readEffect_softQueuePeak (s : State) : readEffect 0x5900 11 s = s.set K.softQueuePeak s.fl.softQ.length := rfl

theorem readEffect_reorderPeak (s : State) : readEffect 0x5900 12 s = s.set K.reorderPeak (s.fl.dlBuffers + s.fl.buffers) := rfl

theorem readEffect_pinCurrentPeak (c : Fin 96) (s : State) :
    readEffect (0x6014 + 0x40 * c.val) 3 s = s.set (key (0x6014 + 0x40 * c.val) 3) 0 := by
  have hc := c.isLt
  unfold readEffect
  iterate 3 rw [if_neg (by omega)]
  rw [if_pos (by omega)]

theorem readEffect_sample (i : Fin 48) (s : State) :
    readEffect (0x3100 + i.val) 1 s = s.set (K.adcSample i) (if (s.get (K.adcSample i)).testBit 3 then s.get (K.adcSample i) - 8
      else s.get (K.adcSample i)) := by
  have hi := i.isLt
  unfold readEffect
  iterate 4 rw [if_neg (by omega)]
  rw [if_pos (by omega)]

/-- A read of one object that may not be hidden is answered with its number (R49). -/
theorem serve_read_shown {s t : State} {p : Path} (tag : BitVec 8) {idx sub typ inst n : Nat} {r : ObjRow}
    {ty : VType} (hm : s.awake.mayRead p idx sub = true) (ho : objAt idx sub = some (inst, r))
    (h : idx < 0x5010 ∨ (0x5800 ≤ idx ∧ idx < 0x5810) ∨ (0x5900 ≤ idx ∧ idx < 0x7810)) (h0 : sub ≠ 0) (hs : sub < 256) (hty : r.ty = ty)
    (hc : ty.code = typ) (ht : typ < 16) (hw : r.wordwise = false) (hn : s.awake.readRaw p idx sub inst = n) (heff : readEffect idx sub s.awake = t) :
    serve p 0 (oneHeader tag idx sub typ) [] s = respond p 0 (oneHeader tag idx sub typ) (valueWords ty (key idx sub) n) t := by
  subst hty
  rw [serve_read_one tag hm ho (by omega) hs hc ht hw, readElem_shown h h0, hn, heff]

theorem chPinCurrentPeak_eq (c : Nat) : K.chPinCurrentPeak c = key (0x6014 + 0x40 * c) 3 := by
  show 256 * (0x6000 + 0x40 * c + 20) + 3 = 256 * (0x6014 + 0x40 * c) + 3
  omega

theorem objAt_pinCurrentPeak (c : Fin 96) :
    objAt (0x6014 + 0x40 * c.val) 3 = some (c.val, ⟨"PinCurrentPeak", 3, 3, .s20, .ro, 15, .lit 0, .full, allOnes40, 1⟩) :=
  objAt_channel c (off := 0x14) (by decide) (by decide) rfl rfl

/-- Settles O56: each is a read of one object that starts its own object again. -/
theorem readsThatReset : Obligations.ReadsThatReset := by
  intro p tag s
  refine ⟨fun c hm => congrArg Host.Outcome.next ?_, fun hm => congrArg Host.Outcome.next ?_, fun hm => congrArg Host.Outcome.next ?_,
    fun hm => congrArg Host.Outcome.next ?_, fun i hm => congrArg Host.Outcome.next ?_⟩
  · have hc := c.isLt
    rw [chPinCurrentPeak_eq]
    exact serve_read_shown tag hm (objAt_pinCurrentPeak c) (by omega) (by decide) (by decide) rfl rfl (by decide) rfl
      (readRaw_pinCurrentPeak c p _) (readEffect_pinCurrentPeak c _)
  · exact serve_read_shown tag hm rfl (by decide) (by decide) (by decide) rfl rfl (by decide) rfl
      (readRaw_hostSlotsPeak p _) (readEffect_hostSlotsPeak _)
  · exact serve_read_shown tag hm rfl (by decide) (by decide) (by decide) rfl rfl (by decide) rfl
      (readRaw_softQueuePeak p _) (readEffect_softQueuePeak _)
  · exact serve_read_shown tag hm rfl (by decide) (by decide) (by decide) rfl rfl (by decide) rfl
      (readRaw_reorderPeak p _) (readEffect_reorderPeak _)
  · have hi := i.isLt
    exact serve_read_shown tag hm (objAt_sample i (by decide) rfl) (by omega) (by decide) (by decide) rfl rfl (by decide) rfl
      (readRaw_sample i p _) (readEffect_sample i _)

/-! ## Transactions (R49, R55, R64, R65) -/

/-- A read that is no violation comes over a path that answers (R58). -/
theorem answers_of_mayRead {s : State} {p : Path} {idx sub : Nat} (h : s.mayRead p idx sub = true) : s.answers p = true := by
  unfold State.mayRead at h
  cases ho : objAt idx sub with
  | none => simp [ho] at h
  | some e =>
    simp only [ho, Bool.and_eq_true] at h
    obtain ⟨⟨⟨hans, -⟩, -⟩, -⟩ := h
    exact hans

/-- A write to an RW object takes the value, and its effect follows (R38, R45). -/
theorem writeObj_rw (p : Path) {idx sub : Nat} (inst : Nat) {r : ObjRow} (v : Nat) (s : State) (ha : r.acc = .rw)
    (hself : selfSet idx sub = false) (hi : idx < 0xE010) :
    writeObj p idx sub inst r v s = writeEffect p idx sub inst (v &&& r.keep) (s.set (pathKey p idx sub) (v &&& r.keep)) := by
  have hpepper : ¬ 0xE010 ≤ idx := Nat.not_le.mpr hi
  simp [writeObj, ha, hself, hpepper, State.when]

theorem objAt_planSet : objAt 0x5030 1 = some (0, ⟨"PlanSet", 1, 1, .u8, .rw, 3, .lit 0, .upTo 0 7, allOnes40, 1⟩) := rfl

/-- A write of PlanSet that is no violation sets it and does no more (R192). -/
theorem almanacWrite_planSet {s : State} {p : Path} (tag : BitVec 8) (v : Fin 8) (hm : s.mayWrite p 0x5030 1 v = true) :
    ∃ e, almanacWrite p (oneHeader tag 0x5030 1 2) [BitVec.ofNat 20 v] s = ([e], s.set (pathKey p 0x5030 1) v) := by
  have hv : wordsNat [BitVec.ofNat 20 v] = v := by
    rw [wordsNat_one, BitVec.toNat_ofNat]
    omega
  have hkeep : v.val &&& allOnes40 = v.val := (Nat.and_two_pow_sub_one_eq_mod v 40).trans (Nat.mod_eq_of_lt (by omega))
  have hw := almanacWrite_one (typ := 2) tag (hv.symm ▸ hm) objAt_planSet (by decide) (by decide) rfl (by decide) rfl rfl
  rw [hv, if_neg (by decide), if_neg (by decide)] at hw
  refine ⟨_, hw.trans (congrArg _ ?_)⟩
  rw [writeObj_rw _ _ _ _ rfl rfl (by decide), hkeep]
  rfl

/-- Nothing follows the response of a write to PlanSet. -/
theorem afterWrite_planSet (e : Elem × Nat) (s : State) : afterWrite 0x5030 [e] s = s :=
  afterEffect_none (idx := 0x5030) e.1.sub e.1.inst e.2 s (by decide) (by decide) (by decide)

/-- Settles O57: one lemma per Op on a path that answers, the two objects as transactions on one element, and a packet of the link by
its byte count. -/
theorem almanacTransactions : Obligations.AlmanacTransactions := by
  intro p r ws s
  refine ⟨fun h => congrArg Host.Outcome.next (serve_read h), fun h hl => congrArg Host.Outcome.next (serve_write h hl),
    fun h hl => congrArg Host.Outcome.next (serve_orderedWrite h hl), fun h => congrArg Host.Outcome.next (serve_rsvd h), ?_, ?_, ?_, ?_, ?_⟩
  · intro tag hm
    exact congrArg Host.Outcome.next (serve_read_shown tag hm rfl (by decide) (by decide) (by decide) rfl rfl (by decide) rfl rfl rfl)
  · intro tag v hm
    obtain ⟨e, he⟩ := almanacWrite_planSet tag v hm
    have hans : s.answers p = true := (mayWrite_parts hm objAt_planSet).1
    have hserve := serve_write (ws := [BitVec.ofNat 20 v]) hans (valueCount_one tag 0x5030 1 (by decide : 2 < 16)).symm
    rw [he] at hserve
    exact congrArg Host.Outcome.next (hserve.trans (afterWrite_planSet e _))
  · rintro tag v rfl hm
    obtain ⟨e, he⟩ := almanacWrite_planSet tag v hm
    have hans : s.answers .urvan = true := (mayWrite_parts hm objAt_planSet).1
    have hserve := serve_orderedWrite (ws := [BitVec.ofNat 20 v]) hans (valueCount_one tag 0x5030 1 (by decide : 2 < 16)).symm
    rw [if_pos rfl, he] at hserve
    exact congrArg Host.Outcome.next (hserve.trans (afterWrite_planSet e _))
  · intro h
    exact ⟨congrArg Host.Outcome.next (serve_of_not_answers 0 r [] h), congrArg Host.Outcome.next (serve_of_not_answers 1 r ws h),
      congrArg Host.Outcome.next (serve_of_not_answers 2 r ws h), congrArg Host.Outcome.next (serve_of_not_answers 3 r [] h)⟩
  · intro n d0 d1 hcold hvigil hup hop
    have hcarried : ¬ (s.mode = 0 ∨ s.mode = 5 ∨ s.get (K.portLinkState 0) ≠ 2) := by simp [hcold, hvigil, hup]
    constructor <;> intro hn <;> simp [exec, execMgmtRequest, hcarried, hop, hn]

/-! ## The state at reset (R44, R343) -/

theorem rowOf_dataRate (c : Fin 96) :
    rowOf (0x6002 + 0x40 * c.val) 1 = some (c.val, ⟨"DataRate", 1, 1, .w20, .rwp, 3, .lit 3600, .oneOf [1600, 2400, 3200, 3600], allOnes40, 1⟩) :=
  objAt_channel c (off := 2) (sub := 1) (by decide) (by decide) rfl rfl

/-- The default of an object is that of its row (R44). -/
theorem objDefault_key {idx sub inst : Nat} {r : ObjRow} (hi : idx < 65536) (hs : sub < 256) (h : rowOf idx sub = some (inst, r)) :
    objDefault (key idx sub) = dfltOf inst r.dflt := by
  have hmod : key idx sub % pathStride = key idx sub := Nat.mod_eq_of_lt (by unfold key pathStride; omega)
  have hidx : key idx sub / 256 = idx := by unfold key; omega
  have hsub : key idx sub % 256 = sub := by unfold key; omega
  unfold objDefault
  extract_lets b
  rw [show b = key idx sub from hmod, hidx, hsub, h]

/-- Settles O38: State.reset lists no object, so that each reads as its row's default. -/
theorem resetState : Obligations.ResetState := by
  refine ⟨State.reset_get, rfl, rfl, rfl, rfl, fun c hc => ?_, rfl, rfl, rfl, rfl, rfl⟩
  have hkey : K.chDataRate c = key (0x6002 + 0x40 * c) 1 := by
    show 256 * (0x6000 + 0x40 * c + 2) + 1 = 256 * (0x6002 + 0x40 * c) + 1
    omega
  rw [State.reset_get, hkey, objDefault_key (by omega) (by decide) (rowOf_dataRate ⟨c, hc⟩)]
  rfl

end Sys2Proof.Machine
end

section
/-! SUPPORT. Proofs of the write-path family (04_write_path.md): WRITE, its admission and its acknowledgement, and the taking of staged units
into rows. -/

namespace Sys2Proof.Machine

/-! ## WRITE (R115, R116, R118, R119) -/

/-- A ready WRITE with no fenced stage is a replay, waits for its tag, or joins admission, in this order (R116, R118, R119). -/
theorem exec_write_of_ready {ring : Fin 8192} {slot : Fin 65536} {s : State} {o : Op} (hready : s.readyOp ring slot 0x02 = some o)
    (hfence : s.fencedFor o = false) :
    exec (.write ring slot) s = .next (if s.isReplay o then finishReplay o s
      else if s.tagBusy o then s.modOp ring slot (fun o => { o with phase := .tagWait }) else joinAdmission o s) := by
  simp only [exec, execWrite, hready, hfence, Bool.false_eq_true, if_false]

/-- A WRITE that waited for its tag goes on once that is free (R119). -/
theorem exec_tagWaitRelease_of_free {ring : Fin 8192} {slot : Fin 65536} {s : State} {o : Op} (hop : s.op ring slot = some o)
    (hwait : o.phase = .tagWait) (hfree : s.tagBusy o = false) :
    exec (.tagWaitRelease ring slot) s = .next (if s.isReplay o then finishReplay o s else joinAdmission o s) := by
  have hgo : o.phase = .tagWait ∧ s.tagBusy o = false := ⟨hwait, hfree⟩
  simp only [exec, execTagWaitRelease, hop, if_pos hgo]

/-- The front of the admission queue is admitted when nothing holds it back (R115, R371; log entry 153). -/
theorem exec_writeAdmission_of_room {ring slot : Nat} {s : State} {o : Op} {rest : List (Nat × Nat)}
    (hfront : s.wr.admission = (ring, slot) :: rest) (hop : s.op ring slot = some o) (hbehind : s.admissionBehind o = false)
    (hslots : (admittedUnits o).length ≤ s.hostFree)
    (hroom : (unitsOf (descLba o.desc) (descCount o.desc)).length ≤ s.journalRoom) (hfetch : s.fetches = true)
    (hstop : s.wr.admitStop = false) (hentries : (admittedUnits o).any (fun u => s.entryWaits (s.setOf ring) u.1) = false) :
    exec .writeAdmission s = .next (takeUnits ring slot rest o s) := by
  simp only [exec, execWriteAdmission, hfront, hop, hbehind, hslots, hroom, hfetch, hstop, hentries, Bool.false_eq_true, if_false, and_self, if_true]

/-- A WRITE or partial TRIM whose data is all there first merges from media what it does not cover, and is acknowledged when nothing is left
to merge (R116, R117). -/
theorem exec_writeAcknowledge_of_gathered {ring : Fin 8192} {slot : Fin 65536} {s : State} {g : Gather} {o : Op}
    (hgather : s.gather ring slot = some g) (hop : s.op ring slot = some o) (hslots : g.slots ≠ [])
    (hdata : s.wr.hostReads.any (fun r => r.ring = ring.val && r.slot = slot.val) = false)
    (hshadow : g.slots.any (fun e => partialUnit g e.1 && s.shadowWaits g.set e.1) = false) :
    exec (.writeAcknowledge ring slot) s = .next (if mergeNeeds g s ≠ [] then startMerges g s else acknowledge g o s) := by
  simp only [exec, execWriteAcknowledge, hgather, hop, hdata, hslots, hshadow, decide_false, Bool.or_self, Bool.false_eq_true, if_false]

/-- Settles O14: one lemma per command, whose remaining branches the conditions of each clause decide. -/
theorem writeCommands : Obligations.WriteCommands := by
  intro ring slot s o g rest
  refine ⟨fun hready hfence hreplay => ?_, fun hready hfence hreplay hbusy => ?_, fun hready hfence hreplay hbusy => ?_,
    exec_tagWaitRelease_of_free, exec_writeAdmission_of_room, fun hgather hop hslots hdata hshadow hwhole => ?_,
    fun hgather hop hslots hdata hshadow hmerge => ?_⟩
  · rw [exec_write_of_ready hready hfence, if_pos hreplay]
  · rw [exec_write_of_ready hready hfence, if_neg (by simp [hreplay]), if_pos hbusy]
  · rw [exec_write_of_ready hready hfence, if_neg (by simp [hreplay]), if_neg (by simp [hbusy])]
  · rw [exec_writeAcknowledge_of_gathered hgather hop hslots hdata hshadow, if_neg (not_not_intro hwhole)]
  · rw [exec_writeAcknowledge_of_gathered hgather hop hslots hdata hshadow, if_pos hmerge]

/-! ## Rows (R127, R128) -/

/-- With a unit queued, a row that takes data members and room for a member's shadows: 16 queued units are taken once the die is free, and
fewer only by an early close (R127, R128, R137). -/
theorem exec_memberProgramTake_of_row {set : Fin 8} {s u : State} {r : Row} {g : GenRec} {ps : List Nat} (bad : Option (Fin 16))
    (hset : s.get (K.setState set) ≠ 0) (hqueue : (s.sset set).queue ≠ []) (hu : ensureRow set s = u)
    (hrow : u.takingRow set = some (r, g, ps)) (hshadows : u.shadowsFree = true) :
    exec (.memberProgramTake ⟨set, bad⟩) s = .next (
      if 16 ≤ (u.rowQueue set r).length then
        if u.dieFreeFor (nth g.channels (nth ps r.taken 0) 127) r.die then
          openNext set (takeMember r g ps ((u.rowQueue set r).take 16) (bad.map Fin.val) u)
        else u
      else if ((u.sset set).flushes ≠ [] ∨ u.wr.admitStop ∨ u.grp.preparing) ∧ u.mayClose set ∧ u.closeRoom then
        closeEarly (bad.map Fin.val) set u
      else u) := by
  subst hu
  simp only [exec, execMemberProgramTake, hset, hqueue, hrow, hshadows, false_and, false_or, Bool.true_eq_false, if_false]

theorem exec_rowCloseDelay_of_mayClose {set : Fin 8} {s : State} (hclose : s.mayClose set = true) (hroom : s.closeRoom = true) :
    exec (.rowCloseDelay set) s = .next (closeEarly none set s) := by
  have hgo : s.mayClose set = true ∧ s.closeRoom = true := ⟨hclose, hroom⟩
  simp only [exec, execRowCloseDelay, if_pos hgo]

/-! ## Journal pages (R125) -/

theorem exec_journalPageTimer_of_open {s : State} (hopen : s.wr.jOpened.isSome = true) :
    exec .journalPageTimer s = .next (programJournalPage s) := by
  obtain ⟨t, ht⟩ := Option.isSome_iff_exists.mp hopen
  simp only [exec, execJournalPageTimer, ht]

/-- A page that holds records, and that a channel can take, is listed with its copies, and none is open after it (R125). -/
theorem programJournalPage_wr {s : State} (hrecords : s.wr.jFirst < s.get K.journalSequence)
    (hchans : ((List.range 96).filter s.slcReady).take 2 ≠ []) :
    (programJournalPage s).wr.jOpened = none ∧ (programJournalPage s).wr.jFirst = s.get K.journalSequence ∧
    (programJournalPage s).wr.jPages.getLast? = some
      { first := s.wr.jFirst, n := s.get K.journalSequence - s.wr.jFirst, left := (((List.range 96).filter s.slcReady).take 2).length,
        copies := (((List.range 96).filter s.slcReady).take 2).length } := by
  unfold programJournalPage
  extract_lets first n chans ps t
  have hgo : ¬ (n = 0 ∨ chans = []) := not_or.mpr ⟨Nat.sub_ne_zero_of_lt hrecords, hchans⟩
  rw [if_neg hgo]
  exact ⟨rfl, Nat.add_sub_cancel' (Nat.le_of_lt hrecords), List.getLast?_concat⟩

/-! ## Background slots (R139) -/

/-- A free slot goes first to the next returning unit (R139). -/
theorem exec_backgroundSlotFree_of_returning {s : State} {u : SUnit} {j : Option Nat} {r : List (SUnit × Option Nat)}
    (hfree : s.backFree ≠ 0) (hreturn : s.wr.returning = (u, j) :: r) :
    exec .backgroundSlotFree s = .next ((placeReturned u j (s.modWr (fun w => { w with returning := r }))).getD s) := by
  simp only [exec, execBackgroundSlotFree, if_neg hfree, hreturn]

/-- With no unit returning it goes to the next waiting unit (R139). -/
theorem exec_backgroundSlotFree_of_waiting {s t : State} {u : SUnit} {r : List SUnit} {k : Nat} (hfree : s.backFree ≠ 0)
    (hreturn : s.wr.returning = []) (hwait : s.wr.waitingUnits = u :: r)
    (htake : takeBackSlot u { s with wr := { s.wr with waitingUnits := r } } = some (k, t)) :
    exec .backgroundSlotFree s = .next t := by
  simp only [hreturn] at htake
  simp only [exec, execBackgroundSlotFree, if_neg hfree, hreturn, hwait, htake]

/-- With none waiting either, the transfers that have arrived whole may take it (R139). -/
theorem exec_backgroundSlotFree_of_none {s : State} (hfree : s.backFree ≠ 0) (hreturn : s.wr.returning = [])
    (hwait : s.wr.waitingUnits = []) : exec .backgroundSlotFree s = .next (commitTransfers s) := by
  simp only [exec, execBackgroundSlotFree, if_neg hfree, hreturn, hwait]

/-- Settles O17: the two outcomes of a take, the early close, the journal page by what `programJournalPage` leaves, and the three turns of a
background slot. -/
theorem rowCommands : Obligations.RowCommands := by
  intro set s
  refine ⟨fun r g ps bad hset hqueue hrow hshadows hunits hdie => ?_,
    fun r g ps bad hset hqueue hrow hshadows hfew hflush hclose hroom => ?_, exec_rowCloseDelay_of_mayClose,
    exec_journalPageTimer_of_open, ?_, fun _ _ _ => exec_backgroundSlotFree_of_returning,
    fun _ _ _ _ => exec_backgroundSlotFree_of_waiting, exec_backgroundSlotFree_of_none⟩
  · rw [exec_memberProgramTake_of_row bad hset hqueue rfl hrow hshadows, if_pos hunits, if_pos hdie]
  · rw [exec_memberProgramTake_of_row bad hset hqueue rfl hrow hshadows, if_neg (Nat.not_le.mpr hfew),
      if_pos ⟨.inl hflush, hclose, hroom⟩]
  · rintro c rfl hopen hrecords hcopies
    have hchans : ((List.range 96).filter s.slcReady).take 2 ≠ [] := fun h => hcopies (congrArg List.length h)
    exact ⟨_, exec_journalPageTimer_of_open hopen, programJournalPage_wr hrecords hchans⟩

end Sys2Proof.Machine
end

section
/-! SUPPORT. Proofs of the read-path family (05_read_path.md): READ and RAW_READ, a frame that the soft pool fails, and the turns of a die and of its
channel's bus. -/

namespace Sys2Proof.Machine

/-! ## READ and RAW_READ (R144, R166) -/

/-- A ready READ ends where a stage that it needs is fenced, waits for a recovery, or is issued, in this order (R144, R277, R483; log entry 53). -/
theorem exec_read_of_ready {ring : Fin 8192} {slot : Fin 65536} {s : State} {o : Op} (hready : s.readyOp ring slot 0x01 = some o) :
    exec (.read ring slot) s = .next (if s.fencedFor o then endRead o 1 0 0 s
      else if (unitsOf (descLba o.desc) (descCount o.desc)).any (fun u => s.entryWaits (s.setOf o.ring) u.1 || s.shadowWaits (s.setOf o.ring) u.1) then s
      else (s.modOp ring slot (fun o => { o with phase := .issued, left := descCount o.desc })).over
        (unitsOf (descLba o.desc) (descCount o.desc)) (fun s u => readUnit o u.1 s)) := by
  simp only [exec, execRead, hready]

/-- A ready RAW_READ of a page that is not torn reads it once, with its header, for the frames selected (R166). -/
theorem exec_rawRead_of_whole {ring : Fin 8192} {slot : Fin 65536} {s : State} {o : Op} (hready : s.readyOp ring slot 0x10 = some o)
    (hfence : s.fencedFor o = false) (hwhole : SMap.getD s.fl.torn (pmaPlace (descDuo o.desc 2)) false = false) :
    exec (.rawRead ring slot) s = .next (freshRead (.op ring slot 0) (descDuo o.desc 2) o.cls
      ((List.range 4).filter (fun f => (descDuo o.desc 3).testBit f)) true
      (s.modOp ring slot (fun x =>
        { x with phase := .issued, detail := descDuo o.desc 2,
                 left := ((List.range 4).filter (fun f => (descDuo o.desc 3).testBit f)).length + (if (descDuo o.desc 3).testBit 4 then 1 else 0) }))) := by
  simp only [exec, execRawRead, hready, hfence, State.modOp_fl, hwhole, Bool.false_eq_true, if_false]

/-- Settles O18: the three turns of a ready READ, and RAW_READ of a whole page. -/
theorem readCommands : Obligations.ReadCommands := by
  intro ring slot s o
  refine ⟨fun hready hfence hclear => ?_, fun hready hfence hwaits => ?_, exec_rawRead_of_whole, fun hready hfence => ?_⟩
  · rw [exec_read_of_ready hready, hfence, hclear, if_neg Bool.false_ne_true, if_neg Bool.false_ne_true]
  · rw [exec_read_of_ready hready, hfence, if_neg Bool.false_ne_true, if_pos hwaits]
  · rw [exec_read_of_ready hready, if_pos hfence]

/-! ## A frame that the soft pool fails (R156, R162, R164) -/

/-- Buffers of a deadline read go back to those of deadline reads, of any other read to the others, and nothing else of the flash changes (R151). -/
@[simp] theorem freeBuffers_fl (cls n : Nat) (s : State) :
    (freeBuffers cls n s).fl = { s.fl with dlBuffers := s.fl.dlBuffers - (if cls = 0 then n else 0),
                                           buffers := s.fl.buffers - (if cls = 0 then 0 else n) } := by
  unfold freeBuffers
  by_cases h : cls = 0 <;> simp [h]

/-- Whether a read serves a RAW_READ rests on the operations alone. -/
theorem State.rawRead_congr {s t : State} (h : t.rings = s.rings) (o : ReadOwner) : t.rawRead o = s.rawRead o := by
  cases o <;> simp only [State.rawRead, State.op, h]

/-- No frame passes whose syndrome is not zero (R155). -/
theorem State.framePasses_false (s : State) (r : PageRead) (f : Nat) : s.framePasses r f false = false := rfl

/-- A frame has left the soft pool: its read goes on without it, or is over, and two of its three buffers are free (R151, R156). -/
def leaveSoftPool (e : FrameRef) (r : PageRead) (s : State) : State :=
  freeBuffers r.cls 2 (s.modFl (fun x =>
    { x with reads := if r.pending.erase e.frame = [] then SMap.erase x.reads e.read
                      else SMap.insert x.reads e.read { r with pending := r.pending.erase e.frame, held := r.held - 3 } }))

/-- The read of a frame that left the soft pool is over once no frame of it is left. -/
theorem find?_reads_leaveSoftPool (e : FrameRef) (r : PageRead) (s : State) :
    SMap.find? (leaveSoftPool e r s).fl.reads e.read
      = if r.pending.erase e.frame = [] then none else some { r with pending := r.pending.erase e.frame, held := r.held - 3 } := by
  unfold leaveSoftPool
  by_cases h : r.pending.erase e.frame = [] <;> simp [h]

/-- The entry of a frame that waits for its stripe (R164); with EccStep 5 one that Pepper forces fails there too (R487). -/
def stripeWait (e : FrameRef) (r : PageRead) (s : State) : Recon :=
  { owner := r.owner, pma := r.pma, frame := e.frame, cls := r.cls, degraded := false,
    forced := r.forced.contains e.frame && decide (s.get K.eccStep = 5) }

/-- A frame that fails step 3 waits for its stripe, unless a RAW_READ asked for it (R162, R166). -/
theorem softDecoded_of_fails (e : FrameRef) (r : PageRead) (s : State) (hraw : s.rawRead r.owner = false) :
    softDecoded e r false s = (leaveSoftPool e r s).modFl (fun x => { x with recon := x.recon ++ [stripeWait e r s] }) := by
  have hraw' : (leaveSoftPool e r s).rawRead r.owner = false := (State.rawRead_congr rfl r.owner).trans hraw
  unfold leaveSoftPool at hraw' ⊢
  unfold stripeWait
  simp only [softDecoded, State.framePasses_false, Bool.false_and, Bool.false_eq_true, if_false, hraw']
  cases r.owner <;> rfl

/-- Settles O20: a failed frame leaves the soft pool and joins those that wait for their stripes. -/
theorem softDecodedFrame : Obligations.SoftDecodedFrame := by
  intro e r s hraw
  rw [softDecoded_of_fails e r s hraw]
  refine ⟨?_, ?_, ?_, rfl, rfl, rfl, find?_reads_leaveSoftPool e r s⟩ <;> simp [leaveSoftPool, stripeWait]

/-! ## A die's queue (R149) -/

/-- A die that takes an operation takes its next job where that goes before its reads (R149). -/
theorem exec_dieQueueIssue_of_job {c : Fin 96} {d : Fin 16} {s : State} {j : DieJob} (htakes : s.dieTakes c d = true)
    (hjob : s.nextJob c d = some j) (hfirst : (s.die c d).forced = true ∨ s.leadRead c d = none ∨ s.tablesBack = false) :
    exec (.dieQueueIssue c d) s = .next
      (issueJob c d j (s.modDie c d (fun x => { x with progs := x.progs.eraseP (fun e => decide (e.1 = j)) }))) := by
  have hgo : (s.die c d).forced = true ∨ (if s.tablesBack then s.leadRead c d else none).isNone = true := by
    rcases hfirst with hforced | hlead | htables
    · exact .inl hforced
    · simp [hlead]
    · simp [htables]
  simp only [exec, execDieQueueIssue, htakes, hjob, Bool.not_true, Bool.false_eq_true, if_false, if_pos hgo]

/-- Else it takes its next reads, once the tables that they need are back (R149, R206, R359). -/
theorem exec_dieQueueIssue_of_reads {c : Fin 96} {d : Fin 16} {s : State} {l : Nat × PageRead} (htakes : s.dieTakes c d = true)
    (htables : s.tablesBack = true) (hfree : (s.die c d).forced = false ∨ s.nextJob c d = none) (hlead : s.leadRead c d = some l) :
    exec (.dieQueueIssue c d) s = .next (issueReads c d (s.mergeSet c d l) s) := by
  cases hjob : s.nextJob c d with
  | none => simp [exec, execDieQueueIssue, htakes, htables, hlead, hjob]
  | some j =>
    have hforced : (s.die c d).forced = false := hfree.resolve_right (by simp [hjob])
    simp [exec, execDieQueueIssue, htakes, htables, hlead, hjob, hforced]

theorem exec_programHoldoff_of_queued {c : Fin 96} {d : Fin 16} {s : State} (hprogs : (s.die c d).progs ≠ []) :
    exec (.programHoldoff c d) s = .next (s.modDie c d (fun x => { x with forced := true })) := by
  simp only [exec, execProgramHoldoff, if_neg hprogs]

/-! ## Bus grants (R207) -/

/-- The bus goes to the transfer picked, unless it is withheld (R207, R487). -/
theorem exec_busGrant_of_pick {c : Fin 96} {f : Framing} {b : Option FabricStage} {s : State} {x : Xfer} {aged : Bool}
    (hdrivers : (s.chan c).driversOff = false) (hbus : s.busWithheld c = false) (hpick : s.pickXfer c = some (x, aged)) :
    exec (.busGrant c f b) s = .next
      (let u := s.modChan c (fun ch => { ch with xfers := ch.xfers.erase x, lastAged := aged })
       match x.read with
       | some id => grantRead c x id f b u
       | none => grantDataIn c x b u) := by
  cases hread : x.read <;> simp only [exec, execBusGrant, hdrivers, hbus, hpick, hread, Bool.false_eq_true, or_self, if_false]

/-! ## Status polls (R210, R212) -/

section
variable {c : Fin 96} {d : Fin 16} {s : State} {j : DieJob} (hcur : (s.die c d).cur = some j) (harray : (s.die c d).inArray = true)
  (hdrivers : (s.chan c).driversOff = false)
include hcur harray hdrivers

/-- A status that shows the operation ended ends it, unless Pepper stretches its time (R210, R487). -/
theorem exec_statusPoll_of_ended {u : State} (ok : Bool) (hlines : (s.chan c).linesOff.contains (d.val / 4) = false)
    (hpower : s.unpowered c = false) (hstretch : stretched c d j (s.emit (.dieCommand c d 0x78 0)) = (false, u)) :
    exec (.statusPoll c d (if ok then .pass else .fail)) s = .next (programEnded (opEnded c d j ok
      (let v := u.modDie c d (fun x => { x with inArray := false, stretch := none })
       v.when (v.get (K.chDieState c d) = 2) (fun v => v.set (K.chDieState c d) 1)))) := by
  cases ok <;>
    simp only [exec, execStatusPoll, hcur, harray, hdrivers, hlines, hpower, hstretch, Bool.true_eq_false, Bool.false_eq_true, or_self, if_false, if_true]

theorem exec_statusPoll_busy (hlines : (s.chan c).linesOff.contains (d.val / 4) = false) (hpower : s.unpowered c = false) :
    exec (.statusPoll c d .busy) s = .next (s.emit (.dieCommand c d 0x78 0)) := by
  simp only [exec, execStatusPoll, hcur, harray, hdrivers, hlines, hpower, Bool.true_eq_false, Bool.false_eq_true, or_self, if_false]

/-- A busy timeout is one also of a die that does not answer, to which no poll is sent (R81, R212, R386). -/
theorem exec_statusPoll_timeout (chipOpen : Bool) :
    exec (.statusPoll c d (.timeout chipOpen)) s = .next (busyTimeout c d j chipOpen
      (if (s.chan c).linesOff.contains (d.val / 4) = true ∨ s.unpowered c = true then s else s.emit (.dieCommand c d 0x78 0))) := by
  simp only [exec, execStatusPoll, hcur, harray, hdrivers, Bool.true_eq_false, Bool.false_eq_true, or_self, if_false]
  by_cases hmute : (s.chan c).linesOff.contains (d.val / 4) = true ∨ s.unpowered c = true
  · rw [if_pos hmute, if_pos hmute]
  · rw [if_neg hmute, if_neg hmute]

end

/-- Settles O23: one lemma per command and outcome of its poll. -/
theorem dieAndBusCommands : Obligations.DieAndBusCommands := by
  intro c d s
  refine ⟨fun _ => exec_dieQueueIssue_of_job, fun _ => exec_dieQueueIssue_of_reads, exec_programHoldoff_of_queued,
    fun _ _ _ _ => exec_busGrant_of_pick,
    fun _ _ ok hcur harray hdrivers => exec_statusPoll_of_ended hcur harray hdrivers ok, fun hcur harray hdrivers => ?_,
    fun _ chipOpen hcur harray hdrivers => exec_statusPoll_timeout hcur harray hdrivers chipOpen⟩
  obtain ⟨j, hj⟩ := Option.isSome_iff_exists.mp hcur
  exact exec_statusPoll_busy hj harray hdrivers

end Sys2Proof.Machine
end

section
/-! SUPPORT. Proofs of the redundancy family (06_redundancy.md): the loss of a member, the scan that follows it, and the turns of a walk. -/

namespace Sys2Proof.Machine

/-! ## Loss of a member, and its scan (R180, R190, R191) -/

/-- A defined set takes its pending losses, after which a power state may no longer be held (R180, R341; log entry 165). -/
theorem exec_memberLoss_of_pending {set : Fin 8} {s : State} (hlost : (s.sset set).lossPending ≠ []) (hset : s.get (K.setState set) ≠ 0) :
    exec (.memberLoss set) s = .next (leaveUnheld (takeLosses set (s.sset set).lossPending s)) := by
  have hgo : ¬ ((s.sset set).lossPending = [] ∨ s.get (K.setState set) = 0) := not_or.mpr ⟨hlost, hset⟩
  simp only [exec, execMemberLoss, if_neg hgo]

/-- A scan whose records may all be issued declares them and ends (R190, R191). -/
theorem exec_lossScanEnd_of_room {set : Fin 8} {s : State} (hscan : s.get (K.setState set) = 4)
    (hroom : (s.scanRecords set).length ≤ s.lossRoom) :
    exec (.lossScanEnd set) s = .next (chooseWalk set (declareLoss ((s.scanRecords set).map (fun e => e.2)) s)) := by
  have hall : (s.scanRecords set).take s.lossRoom = s.scanRecords set := List.take_of_length_le hroom
  have hnext : (s.scanRecords set)[s.lossRoom]? = none := List.getElem?_eq_none hroom
  simp only [exec, execLossScanEnd, if_neg (not_not_intro hscan), hall, hnext]

/-- A scan stops at the first record that may not be issued, and goes on from its entry (R190, R191). -/
theorem exec_lossScanEnd_of_held {set : Fin 8} {s : State} {e : Nat × LossRec} (hscan : s.get (K.setState set) = 4)
    (hnext : (s.scanRecords set)[s.lossRoom]? = some e) :
    exec (.lossScanEnd set) s = .next ((declareLoss (((s.scanRecords set).take s.lossRoom).map (fun e => e.2)) s).modSet set
      (fun x => { x with scanAt := e.1 })) := by
  simp only [exec, execLossScanEnd, if_neg (not_not_intro hscan), hnext]

/-! ## The next stripe of a walk (R182, R184) -/

/-- The stripe that a walk moves next in a row: where the walk stands, in the row that it stands in, else the row's first (R182). -/
def walkStripeAt (w : Walk) (row : Nat) (rb : RowBlock) (g : GenRec) (wl : Nat) : Stripe :=
  { rb := rb, gen := g, wl := wl, page := if row = w.next / 16 then w.next % 16 else 0 }

/-- A walk that nothing holds back stands after its next stripe, whose live units it moves (R182; log entry 130 for the row's programs). -/
theorem exec_walkStripe_of_room {set : Fin 8} {s : State} {w : Walk} {row : Nat} {rb : RowBlock} {g : GenRec} {wl : Nat} {os : List PageOutcome}
    (hwalk : (s.sset set).walk = some w) (hstate : s.get (K.setState set) = 2 ∨ s.get (K.setState set) = 3) (hserving : s.serving = true)
    (hpower : s.get K.powerState = 0) (hrow : s.nextWalkRow set w = some (row, rb, g, wl)) (hprogs : s.rowInProgram set row = false)
    (hroom : s.roomForWalk set = true)
    (hreads : s.stripeWaits (walkStripeAt w row rb g wl) (s.stripeReads (walkStripeAt w row rb g wl) os) = false) :
    exec (.walkStripe set os) s = .next (relocateStripe .walk (walkStripeAt w row rb g wl) os (s.modSet set (fun t =>
      { t with walk := t.walk.map (fun v => { v with next := 16 * row + (walkStripeAt w row rb g wl).page + 1 }) }))) := by
  unfold walkStripeAt at hreads ⊢
  have hruns : (decide (s.get (K.setState set) = 2) || decide (s.get (K.setState set) = 3)) = true := by simpa using hstate
  simp [exec, execWalkStripe, hwalk, hruns, hserving, hpower, hrow, hprogs, hroom, hreads]

/-! ## A walk or a generation that waits (R176, R184) -/

/-- What a generation waits for comes before the walk: with a record free it begins (R176, R184). -/
theorem exec_walkResume_of_owed {set : Fin 8} {s : State} {l : List Nat} {follow : Nat} (howed : (s.sset set).owed = some (l, follow))
    (hfree : s.gensFull set = false) : exec (.walkResume set) s = .next (beginGeneration set l follow (freeGens set s)) := by
  simp only [exec, execWalkResume, howed, hfree, Bool.false_eq_true, if_false]

/-- A blocked walk goes on where there is room for it, or a substitution gives it (R184). -/
theorem exec_walkResume_of_room {set : Fin 8} {s : State} {w : Walk} (howed : (s.sset set).owed = none) (hwalk : (s.sset set).walk = some w)
    (hstate : s.get (K.setState set) = 5)
    (hroom : s.roomForWalk set = true ∨ (s.curGen set).any (fun g => (s.canSubstitute set g).isSome) = true) :
    exec (.walkResume set) s = .next (setActivity set (if w.kind = 1 then 2 else 3) (s.set (K.setBlockReason set) 0)) := by
  have hgo : s.get (K.setState set) = 5 ∧ (s.roomForWalk set || (s.curGen set).any (fun g => (s.canSubstitute set g).isSome)) = true :=
    ⟨hstate, Bool.or_eq_true_iff.mpr hroom⟩
  simp only [exec, execWalkResume, howed, hwalk, if_pos hgo]

/-! ## The boundary of a walk (R193) -/

theorem exec_boundaryAdvance_of_none {set : Fin 8} {s : State} (hwalk : (s.sset set).walk = none) :
    exec (.boundaryAdvance set) s = .next (releaseWalked set s) := by
  simp only [exec, execBoundaryAdvance, hwalk]

/-- Where a walk's boundary comes to: its lowest stripe with a move under way, or where it stands, once its records are durable (R193; log entry
129). -/
def walkBoundary (w : Walk) (s : State) : Nat :=
  if w.needSeq ≤ s.get K.journalDurable then max w.boundary (w.moving.foldl (fun a m => min a m.1) w.next) else w.boundary

theorem walkBoundary_of_done {w : Walk} {s : State} (hmoving : w.moving = []) (hneed : w.needSeq ≤ s.get K.journalDurable) :
    walkBoundary w s = max w.boundary w.next := by
  rw [walkBoundary, if_pos hneed, hmoving, List.foldl_nil]

/-- A walk with its boundary at b: RowsLeft counts its rows that the boundary has yet to pass (R193). -/
def walkAtBoundary (set : Nat) (w : Walk) (b : Nat) (s : State) : Walk :=
  { w with boundary := b, rowsLeft := ((s.walkRows set w).filter (fun r => decide (b < 16 * r.1 + 16))).length }

/-- The boundary advances and is shown; then the walk ends, or a checkpoint is due, or neither (R193, R194). -/
theorem exec_boundaryAdvance_of_walk {set : Fin 8} {s u : State} {w w' : Walk} (hwalk : (s.sset set).walk = some w)
    (hw : w' = walkAtBoundary set w (walkBoundary w s) s) (hu : u = showWalk set w' (s.modSet set (fun t => { t with walk := some w' }))) :
    exec (.boundaryAdvance set) s = .next (releaseWalked set (
      if w'.moving = [] ∧ (u.nextWalkRow set w').isNone ∧ w'.needSeq ≤ u.get K.journalDurable then endWalk set w' u
      else if w'.lastCheckpoint + 256 ≤ w'.boundary then checkpoint set w' u else u)) := by
  subst hu hw
  simp only [exec, execBoundaryAdvance, hwalk]
  rfl

/-- With no move under way, its records durable and no row left, a walk ends where it stands (R193; log entry 129). -/
theorem exec_boundaryAdvance_of_done {set : Fin 8} {s u : State} {w w' : Walk} (hwalk : (s.sset set).walk = some w) (hmoving : w.moving = [])
    (hneed : w.needSeq ≤ s.get K.journalDurable) (hw : w' = walkAtBoundary set w (max w.boundary w.next) s)
    (hu : u = showWalk set w' (s.modSet set (fun t => { t with walk := some w' }))) (hlast : (u.nextWalkRow set w').isNone = true)
    (hdurable : w.needSeq ≤ u.get K.journalDurable) :
    exec (.boundaryAdvance set) s = .next (releaseWalked set (endWalk set w' u)) := by
  have hmoving' : w'.moving = [] := (congrArg Walk.moving hw).trans hmoving
  have hdurable' : w'.needSeq ≤ u.get K.journalDurable := Nat.le_trans (Nat.le_of_eq (congrArg Walk.needSeq hw)) hdurable
  rw [← walkBoundary_of_done hmoving hneed] at hw
  rw [exec_boundaryAdvance_of_walk hwalk hw hu, if_pos ⟨hmoving', hlast, hdurable'⟩]

/-- Settles O32: one lemma per command and outcome; the stripe and the walk that the statement writes out are `walkStripeAt` and
`walkAtBoundary`. -/
theorem redundancyCommands : Obligations.RedundancyCommands := by
  intro set s
  refine ⟨exec_memberLoss_of_pending, exec_lossScanEnd_of_room, fun _ => exec_lossScanEnd_of_held, ?_, fun _ _ => exec_walkResume_of_owed,
    fun _ => exec_walkResume_of_room, exec_boundaryAdvance_of_none, ?_⟩
  · rintro w row rb g wl os x hwalk hstate hserving hpower hrow hprogs hroom rfl hreads
    exact exec_walkStripe_of_room hwalk hstate hserving hpower hrow hprogs hroom hreads
  · intro w w' u hwalk hmoving hneed hw hu hlast hdurable
    exact exec_boundaryAdvance_of_done hwalk hmoving hneed hw hu hlast hdurable

end Sys2Proof.Machine
end

section
/-! SUPPORT. Proofs of the flash channel family (07_flash_channels.md): the upkeep of a channel, and writes to the command objects of channels,
sets and DRAM. -/

namespace Sys2Proof.Machine

/-! ## Command objects of channels, sets and DRAM (R38, R49) -/

theorem wordsNat_natWords_duo (v : Duo) : wordsNat (natWords 2 v.toNat) = v.toNat := by
  simp only [natWords, wordsNat, BitVec.toNat_ofNat]
  omega

theorem wordsNat_lt (ws : List Word) : wordsNat ws < 2 ^ (20 * ws.length) := by
  induction ws with
  | nil => simp [wordsNat]
  | cons w ws ih =>
    have hpow : 2 ^ (20 * (ws.length + 1)) = 1048576 * 2 ^ (20 * ws.length) := by rw [Nat.mul_succ, Nat.pow_add, Nat.mul_comm]
    have hw := w.isLt
    rw [wordsNat, List.length_cons, hpow]
    omega

/-- The words of one value hold no bit beyond the 40 that such an object keeps (R37, R38). -/
theorem wordsNat_and_allOnes40 {ws : List Word} {typ : Nat} (hl : ws.length = typeWords typ) : wordsNat ws &&& allOnes40 = wordsNat ws := by
  have hlen : 20 * ws.length ≤ 40 := by
    have := typeWords_le typ
    omega
  have hlt : wordsNat ws < 2 ^ 40 := Nat.lt_of_lt_of_le (wordsNat_lt ws) (Nat.pow_le_pow_right (by decide) hlen)
  exact (Nat.and_two_pow_sub_one_eq_mod _ 40).trans (Nat.mod_eq_of_lt hlt)

/-- A type code below that of TEXT is that of a single value (R36, R37). -/
theorem ObjRow.wordwise_eq_false {r : ObjRow} (h : r.ty.code < 8) : r.wordwise = false := by
  cases hty : r.ty <;> simp [VType.code, ObjRow.wordwise, hty] at h ⊢

section
variable {s t : State} {p : Path} {idx sub typ inst v : Nat} {ws : List Word}

/-- A write to an object of the channels, the sets or DRAM is answered after its effect, and nothing follows the response (R49). -/
theorem serve_write_media {r : ObjRow} (tag : BitVec 8) (hv : wordsNat ws = v) (hm : s.awake.mayWrite p idx sub v = true)
    (ho : objAt idx sub = some (inst, r)) (hi : 0x4000 ≤ idx ∧ idx < 0x8800) (hs : sub < 256) (hc : r.ty.code = typ) (ht : typ < 8)
    (hl : ws.length = typeWords typ) (heff : writeObj p idx sub inst r v s.awake = t) :
    serve p 1 (oneHeader tag idx sub typ) ws s = respond p 1 (oneHeader tag idx sub typ) [] t := by
  subst hv
  rw [serve_write_one tag hm ho (by omega) hs hc (by omega) (ObjRow.wordwise_eq_false (hc ▸ ht)) hl, if_neg (by omega), if_neg (by omega),
    afterEffect_none _ _ _ _ (by omega) (by omega) (.inl hi.2), heff]

variable {name : String} {lo hi mask words : Nat} {ty : VType} {dflt : Dflt} {range : Range}

/-- A write to a write-only object there has its effect alone (R38). -/
theorem serve_write_media_wo (tag : BitVec 8) (hv : wordsNat ws = v) (hm : s.awake.mayWrite p idx sub v = true)
    (ho : objAt idx sub = some (inst, ⟨name, lo, hi, ty, .wo, mask, dflt, range, allOnes40, words⟩)) (hi : 0x4000 ≤ idx ∧ idx < 0x8800)
    (hs : sub < 256) (hc : ty.code = typ) (ht : typ < 8) (hl : ws.length = typeWords typ) (heff : writeEffect p idx sub inst v s.awake = t) :
    serve p 1 (oneHeader tag idx sub typ) ws s = respond p 1 (oneHeader tag idx sub typ) [] t := by
  refine serve_write_media tag hv hm ho hi hs hc ht hl ?_
  rw [writeObj_wo _ _ _ _ _ _ rfl, ← hv, wordsNat_and_allOnes40 hl, hv, heff]

/-- A write to an RW object there sets it, and its effect follows (R38, R45). -/
theorem serve_write_media_rw (tag : BitVec 8) (hv : wordsNat ws = v) (hm : s.awake.mayWrite p idx sub v = true)
    (ho : objAt idx sub = some (inst, ⟨name, lo, hi, ty, .rw, mask, dflt, range, allOnes40, words⟩)) (hi : 0x4000 ≤ idx ∧ idx < 0x8800)
    (hs : sub < 256) (hc : ty.code = typ) (ht : typ < 8) (hl : ws.length = typeWords typ)
    (heff : writeEffect p idx sub inst v (s.awake.set (pathKey p idx sub) v) = t) :
    serve p 1 (oneHeader tag idx sub typ) ws s = respond p 1 (oneHeader tag idx sub typ) [] t := by
  have hself : selfSet idx sub = false := by
    have hring : ¬ 0xA000 ≤ idx := by omega
    have hpepper : idx ≠ 0xE000 := by omega
    simp [selfSet, hring, hpepper]
  refine serve_write_media tag hv hm ho hi hs hc ht hl ?_
  rw [writeObj_rw _ _ _ _ rfl hself (by omega), ← hv, wordsNat_and_allOnes40 hl, hv, heff]

end

theorem objAt_recalibrate (c : Fin 96) :
    objAt (0x6003 + 0x40 * c.val) 5 = some (c.val, ⟨"Recalibrate", 5, 5, .bool, .wo, 3, .lit 0, .full, allOnes40, 1⟩) :=
  objAt_channel c (off := 3) (by decide) (by decide) rfl rfl

theorem objAt_adminIsolate (c : Fin 96) :
    objAt (0x6001 + 0x40 * c.val) 4 = some (c.val, ⟨"AdminIsolate", 4, 4, .bool, .rw, 3, .lit 0, .full, allOnes40, 1⟩) :=
  objAt_channel c (off := 1) (by decide) (by decide) rfl rfl

theorem objAt_rebuildStart (set : Fin 8) :
    objAt (0x5010 + set.val) 18 = some (set.val, ⟨"RebuildStart", 18, 18, .bool, .wo, 3, .lit 0, .full, allOnes40, 1⟩) :=
  objAt_set set (by decide) rfl

theorem objAt_logicalUnits (set : Fin 8) :
    objAt (0x5010 + set.val) 7 = some (set.val, ⟨"LogicalUnits", 7, 7, .w40, .rw, 3, .lit 0, .full, allOnes40, 1⟩) :=
  objAt_set set (by decide) rfl

theorem objAt_retireRank (sub : Fin 8) :
    objAt (0x4010 + sub.val) 9 = some (sub.val, ⟨"RetireRank", 9, 9, .u8, .wo, 3, .lit 0, .upTo 0 1, allOnes40, 1⟩) :=
  objAt_dsub sub (by decide) rfl

theorem writeEffect_rebuildStart (p : Path) (set : Fin 8) (s : State) :
    writeEffect p (0x5010 + set.val) 18 set 1 s = rebuildStartEffect set s :=
  writeEffect_set p 18 set 1 s (by omega) (by omega)

theorem writeEffect_logicalUnits (p : Path) (set : Fin 8) (v : Nat) (s : State) :
    writeEffect p (0x5010 + set.val) 7 set v s = logicalUnitsEffect set v s :=
  writeEffect_set p 7 set v s (by omega) (by omega)

theorem writeEffect_retireRank (p : Path) (sub : Fin 8) (v : Nat) (s : State) :
    writeEffect p (0x4010 + sub.val) 9 sub v s = retireRankEffect sub v s :=
  writeEffect_dsub p 9 sub v s (by omega) (by omega)

/-- Settles O52: each is a write of one element to a write-only object or to an RW one, whose effect is read off `writeEffect`. -/
theorem channelAndMediaObjects : Obligations.ChannelAndMediaObjects := by
  intro p tag s
  refine ⟨fun c hm => congrArg Host.Outcome.next ?recalibrate, fun c hm => congrArg Host.Outcome.next ?adminIsolate,
    fun v hm => congrArg Host.Outcome.next ?calendsNow, fun set hm => congrArg Host.Outcome.next ?rebuildStart,
    fun hm => congrArg Host.Outcome.next ?planCommit, fun hm => congrArg Host.Outcome.next ?retireCommit,
    fun v hm => congrArg Host.Outcome.next ?lossAck, fun set v hm => congrArg Host.Outcome.next ?logicalUnits,
    fun sub v hm => congrArg Host.Outcome.next ?retireRank, fun hm => congrArg Host.Outcome.next ?helperStart⟩
  case recalibrate =>
    exact serve_write_media_wo tag rfl hm (objAt_recalibrate c) (by omega) (by decide) rfl (by decide) rfl (writeEffect_recalibrate p c _ _)
  case adminIsolate =>
    exact serve_write_media_rw tag rfl hm (objAt_adminIsolate c) (by omega) (by decide) rfl (by decide) rfl (writeEffect_isolate p c _ _)
  case calendsNow => exact serve_write_media_rw tag (wordsNat_natWords_duo v) hm rfl (by decide) (by decide) rfl (by decide) rfl rfl
  case rebuildStart =>
    exact serve_write_media_wo tag rfl hm (objAt_rebuildStart set) (by omega) (by decide) rfl (by decide) rfl (writeEffect_rebuildStart p set _)
  case planCommit => exact serve_write_media_wo tag rfl hm rfl (by decide) (by decide) rfl (by decide) rfl rfl
  case retireCommit => exact serve_write_media_wo tag rfl hm rfl (by decide) (by decide) rfl (by decide) rfl rfl
  case lossAck => exact serve_write_media_wo tag (wordsNat_natWords_duo v) hm rfl (by decide) (by decide) rfl (by decide) rfl rfl
  case logicalUnits =>
    exact serve_write_media_rw tag (wordsNat_natWords_duo v) hm (objAt_logicalUnits set) (by omega) (by decide) rfl (by decide) rfl
      (writeEffect_logicalUnits p set _ _)
  case retireRank =>
    have hv : wordsNat [BitVec.ofNat 20 v.val] = v := by
      rw [wordsNat_one, BitVec.toNat_ofNat]
      omega
    exact serve_write_media_wo tag hv hm (objAt_retireRank sub) (by omega) (by decide) rfl (by decide) rfl (writeEffect_retireRank p sub _ _)
  case helperStart => exact serve_write_media_wo tag rfl hm rfl (by decide) (by decide) rfl (by decide) rfl rfl

/-! ## Upkeep of a channel (R216, R217, R223, R227, R396) -/

/-- A die with no array operation, at full power and with its lines driven, takes a temperature readout (R217). -/
theorem exec_dieTemperatureRead_of_idle {c : Fin 96} {d : Fin 16} {s : State} (t : BitVec 20) (hfitted : s.fitted c d = true)
    (harray : (s.die c d).inArray = false) (hdrivers : (s.chan c).driversOff = false)
    (hlines : (s.chan c).linesOff.contains (d.val / 4) = false) (hpower : s.get K.powerState = 0) :
    exec (.dieTemperatureRead c d t) s
      = .next (updateThrottle c (((s.modDie c d (fun x => { x with tempAt := some s.now })).emit
          (.dieCommand c d 0xD4 (match ((s.modDie c d (fun x => { x with tempAt := some s.now })).chan c).profile with
            | some x => x.tempFeature.toNat | none => 0))).set (K.chDieTemperature c d) t.toNat)) :=
  congrArg Host.Outcome.next (if_pos ⟨hfitted, harray, hdrivers, hlines, hpower⟩)

/-- A target none of whose dies has an array operation is calibrated, for the temperatures of the moment (R223). -/
theorem exec_zqCalibrationShort_of_idle {c : Fin 96} {k : Fin 4} {s : State} (hserving : s.serving = true) (hpower : s.get K.powerState = 0)
    (hdrivers : (s.chan c).driversOff = false) (htraining : (s.chan c).training = none)
    (hidle : ((List.range 4).map (fun i => 4 * k.val + i)).all (fun d => !(s.die c d).inArray) = true) :
    exec (.zqCalibrationShort c k) s = .next
      ((s.over ((List.range 4).map (fun i => 4 * k.val + i))
        (fun s d => s.modDie c d (fun x => { x with zqTemp := s.get (K.chDieTemperature c d) }))).emit (.dieCommand c (4 * k.val) 0xD9 0)) :=
  congrArg Host.Outcome.next (if_pos ⟨hdrivers, Option.isNone_iff_eq_none.mpr htraining, hidle, hserving, hpower⟩)

/-- A write check of an idle die of a running channel is sent and timed, and one that fails starts a retrain (R223). -/
theorem exec_writeCheck_of_idle {c : Fin 96} {d : Fin 16} {s : State} (ok : Bool) (hfitted : s.fitted c d = true)
    (hidle : (s.die c d).cur = none) (hstate : s.get (K.chState c) = 2) (hpower : s.get K.powerState = 0) :
    exec (.writeCheck c d ok) s = .next
      (let u := (s.modChan c (fun x => { x with writeCheckAt := s.now })).emit (.onfiTraining c d 2)
       if ok then u else startTraining c u) :=
  congrArg Host.Outcome.next (if_pos ⟨hfitted, Option.isNone_iff_eq_none.mpr hidle, hstate, hpower⟩)

/-- A sample above the peak raises it, where the channel's sensor is not faulty (R396). -/
theorem exec_pinCurrentPeakSample_of_above {c : Fin 96} {s : State} (i : BitVec 20) (hsensor : SMap.getD s.mon.faultyCh c false = false)
    (habove : s20 (s.get (K.chPinCurrentPeak c)) < s20 i.toNat) :
    exec (.pinCurrentPeakSample c i) s = .next (s.set (K.chPinCurrentPeak c) i.toNat) := by
  simp only [exec, execPinCurrentPeakSample, hsensor, Bool.false_eq_true, if_false, if_pos habove]

section
variable {c : Fin 96} {l : BitVec 17} {i : BitVec 20} {s u w : State} (hdrivers : (s.chan c).driversOff = false) (hlines : l ≠ 0)
  (hu : u = (if SMap.getD s.mon.faultyCh c false = false ∧ s20 (s.get (K.chPinCurrentPeak c)) < s20 i.toNat
    then s.set (K.chPinCurrentPeak c) i.toNat else s))
  (hw : w = chEvent c 2 (l.toNat + 2 ^ 17) (u.set (K.chShortMask c) (u.get (K.chShortMask c) ||| (l.toNat % 1024))))
include hdrivers hlines hu hw

/-- A trip of driven lines: with the peak raised and the lines reported, what follows turns on which lines tripped (R227). -/
theorem exec_pinCurrentTrip_of_driven :
    exec (.pinCurrentTrip c l i) s = .next (
      if l.toNat % 1024 ≠ 0 ∨ l.toNat / 16384 ≠ 0 then isolate c 1 w
      else w.over (List.range 4) (fun s k => s.when (l.toNat.testBit (10 + k)) (fun s => lineLost c k 6
        (s.modChan c (fun x => { x with linesOff := if x.linesOff.contains k then x.linesOff else x.linesOff ++ [k] }))))) := by
  have hgo : ¬ ((s.chan c).driversOff = true ∨ l = 0) := not_or.mpr ⟨by simp [hdrivers], hlines⟩
  subst hu hw
  exact congrArg Host.Outcome.next (if_neg hgo)

/-- A data or control line (bits 0 to 9, and 14 to 16 for WE_N, CLE and ALE) among those that tripped isolates the channel (R227). -/
theorem exec_pinCurrentTrip_of_shared (hshared : l.toNat % 1024 ≠ 0 ∨ l.toNat / 16384 ≠ 0) :
    exec (.pinCurrentTrip c l i) s = .next (isolate c 1 w) := by
  rw [exec_pinCurrentTrip_of_driven hdrivers hlines hu hw, if_pos hshared]

/-- Chip-enable lines alone are turned off, and their dies are lost (R227). -/
theorem exec_pinCurrentTrip_of_chipEnables (hdata : l.toNat % 1024 = 0) (hcontrol : l.toNat / 16384 = 0) :
    exec (.pinCurrentTrip c l i) s = .next
      (w.over (List.range 4) (fun s k => s.when (l.toNat.testBit (10 + k)) (fun s => lineLost c k 6
        (s.modChan c (fun x => { x with linesOff := if x.linesOff.contains k then x.linesOff else x.linesOff ++ [k] }))))) := by
  rw [exec_pinCurrentTrip_of_driven hdrivers hlines hu hw, if_neg (not_or.mpr ⟨not_not_intro hdata, not_not_intro hcontrol⟩)]

end

theorem exec_dieCountSave_of_saves {s : State} (hsaves : s.savesTables = true) : exec .dieCountSave s = .next (cfSave .dieCounts s) :=
  congrArg Host.Outcome.next (if_pos hsaves)

/-- Settles O22: one lemma per command, and one for each kind of line that trips. -/
theorem channelUpkeep : Obligations.ChannelUpkeep := by
  intro c d s
  refine ⟨exec_dieTemperatureRead_of_idle, fun _ => exec_zqCalibrationShort_of_idle, exec_writeCheck_of_idle,
    exec_pinCurrentPeakSample_of_above, ?_, exec_dieCountSave_of_saves⟩
  intro l i u w hdrivers hlines hu hw
  exact ⟨exec_pinCurrentTrip_of_shared hdrivers hlines hu hw, exec_pinCurrentTrip_of_chipEnables hdrivers hlines hu hw⟩

end Sys2Proof.Machine
end

section
/-! SUPPORT. Proofs of the media management family (08_media_management.md): the minute clock and the saves, a set's victim, wear, and scrub. -/

namespace Sys2Proof.Machine

/-! ## The minute clock and the saves (R236, R239, R247, R251) -/

/-- A minute that passes: in the clock, and in the temperature bin of each die (R236, R251). -/
def passMinute (s : State) : State :=
  (s.inc K.calendsNow).over (s.inc K.calendsNow).allDies (fun s k =>
    s.modFl (fun x => { x with hist := SMap.modify x.hist (8 * k + tempBin (s.dieTemp (k / 16) (k % 16))) 0 (fun n => n + 1) }))

/-- While the clock runs a minute passes, after which the health flags are derived (R236, R251, R252; log entry 11 for the moment). -/
theorem exec_calendsAdvance_of_runs {s : State} (hruns : s.clockRuns = true) :
    exec .calendsAdvance s = .next (updateHealth (passMinute s)) :=
  congrArg Host.Outcome.next (if_neg (by simp [hruns]))

theorem exec_calendsSave_of_awake {s : State} (hawake : s.serving = true ∨ s.mode = 1) : exec .calendsSave s = .next (cfSave .calends s) :=
  congrArg Host.Outcome.next (if_pos hawake)

section
variable {s : State} (hsaves : s.savesTables = true)
include hsaves

theorem exec_harvestTableSave_of_saves : exec .harvestTableSave s = .next (cfSave .harvest s) := congrArg Host.Outcome.next (if_pos hsaves)

theorem exec_scrubPositionSave_of_saves : exec .scrubPositionSave s = .next (cfSave .scrub s) := congrArg Host.Outcome.next (if_pos hsaves)

theorem exec_healthSave_of_saves : exec .healthSave s = .next (cfSave .health s) := congrArg Host.Outcome.next (if_pos hsaves)

end

/-! ## A set's victim (R241, R243) -/

/-- A row block becomes the victim of its set: it and its members are marked, its copy starts at the first stripe, and a Reclaim ahead of need counts
(R241, R243 step 1). -/
def takeVictim (set : Fin 8) (rb : RowBlock) (g : GenRec) (ahead : Bool) (s : State) : State :=
  (((overMembers rb g (fun h => if h.state = 4 then h else { h with state := 3 })
    (s.modRowBlock set rb.die rb.block (fun r => { r with victim := true }))).modSet set
    (fun t => { t with victim := some (rb.die, rb.block, 0), victimSeq := 0 })).set (K.setCurrentVictim set) (rb.die * 4096 + rb.block)).when ahead
    (fun s => s.inc K.reclaimsAhead)

section
variable {set : Fin 8} {s : State} (hruns : s.harvests set = true) (hpaused : s.paused = false)
include hruns hpaused

/-- The guard that holds back the copy and the erase of a victim is open where Harvest runs and no power entry pauses it (R242, R357). -/
theorem not_harvestHeld : ¬ ((!s.harvests set) = true ∨ s.paused = true) := by simp [hruns, hpaused]

/-- The guard of a selection is open where, besides, the set has no victim (R241). -/
theorem not_selectionHeld (hnone : (s.sset set).victim = none) :
    ¬ ((!s.harvests set) = true ∨ s.paused = true ∨ (s.sset set).victim.isSome = true) := by simp [hruns, hpaused, hnone]

/-- With 64 erased row blocks on every die no victim is selected (R241). -/
theorem exec_selectVictim_of_enough (hnone : (s.sset set).victim = none) (henough : 64 ≤ s.erasedLowest set) :
    exec (.selectVictim set) s = .next s := by
  simp only [exec, execSelectVictim, if_neg (not_selectionHeld hruns hpaused hnone), if_pos henough]

/-- With fewer, the row block that is picked becomes the victim (R241, R243 step 1). -/
theorem exec_selectVictim_of_few {rb : RowBlock} {g : GenRec} {ahead : Bool} (hnone : (s.sset set).victim = none)
    (hfew : s.erasedLowest set < 64) (hpick : s.pickVictim set = some (rb, g, ahead)) :
    exec (.selectVictim set) s = .next (takeVictim set rb g ahead s) := by
  simp only [exec, execSelectVictim, if_neg (not_selectionHeld hruns hpaused hnone), if_neg (Nat.not_le.mpr hfew), hpick, takeVictim]

/-- The copy of a victim that holds live units moves its next stripe once the reads find room (R243 steps 2 and 3). -/
theorem exec_harvestCopy_of_room {d b i : Nat} {rb : RowBlock} {g : GenRec} {wl page : Nat} {os : List PageOutcome} {x : Stripe}
    (hvictim : (s.sset set).victim = some (d, b, i)) (hblock : s.rowBlock set d b = some rb) (hgen : s.genRec set rb.gen = some g)
    (hstripe : (s.stripesOf rb)[i]? = some (wl, page)) (hlive : s.blockValid rb g ≠ 0)
    (hx : x = { rb := rb, gen := g, wl := wl, page := page }) (hroom : s.stripeWaits x (s.stripeReads x os ++ s.headerReads x) = false) :
    exec (.harvestCopy set os) s = .next (relocateStripe .harvest x os (s.modSet set (fun t => { t with victim := some (d, b, i + 1) }))) := by
  subst hx
  simp only [exec, execHarvestCopy, hvictim, if_neg (not_harvestHeld hruns hpaused), hblock, hgen, hstripe, hlive, hroom, Bool.false_eq_true,
    or_self, if_false]

/-- A victim that may be erased is (R243 step 4). -/
theorem exec_victimErase_of_ready {rb : RowBlock} {g : GenRec} (hvictim : s.victimOf set = some (rb, g))
    (hready : s.victimReady set rb g = true) : exec (.victimErase set) s = .next (eraseRowBlock rb g s) := by
  simp only [exec, execVictimErase, if_neg (not_harvestHeld hruns hpaused), hvictim, if_pos hready]

end

/-! ## Wear (R246) -/

/-- A check that is due marks the row block that is worn most, which keeps an earlier mark (R246). -/
theorem exec_wearCheck_of_due {set : Fin 8} {s : State} {g : GenRec} {rb : RowBlock} (hgen : s.curGen set = some g)
    (hdue : s.wearDue set = true) (hworn : s.wornBlock set = some rb) :
    exec (.wearCheck set) s = .next ((s.modSet set (fun t => { t with wearAt := some s.now })).modRowBlock set rb.die rb.block
      (fun r => { r with wearAt := some (r.wearAt.getD s.now) })) := by
  simp only [exec, execWearCheck, hgen, hdue, hworn, State.modSet_now]

/-! ## Scrub (R247) -/

section
variable {set : Fin 8} {s : State} (henable : s.get K.scrubEnable ≠ 0) (hruns : s.harvests set = true) (hpaused : s.paused = false)
include henable hruns hpaused

theorem not_scrubHeld : ¬ (s.get K.scrubEnable = 0 ∨ (!s.harvests set) = true ∨ s.paused = true) :=
  not_or.mpr ⟨henable, not_harvestHeld hruns hpaused⟩

/-- Scrub reads its next stripe once the reads find room: in the row that it stands in, the page where it stands, else the row's first (R247). -/
theorem exec_scrubRead_of_room {row : Nat} {rb : RowBlock} {g : GenRec} {wl : Nat} {os : List PageOutcome} {x : Stripe}
    (hnext : s.nextScrub set = some (row, rb, g, wl))
    (hx : x = { rb := rb, gen := g, wl := wl, page := if row = (s.sset set).scrub / 16 then (s.sset set).scrub % 16 else 0 })
    (hroom : s.stripeWaits x (s.scrubReads x) = false) :
    exec (.scrubRead set os) s = .next (showScrub (scrubStripe set row x os s)) := by
  subst hx
  simp only [exec, execScrubRead, if_neg (not_scrubHeld henable hruns hpaused), hnext, hroom, Bool.false_eq_true, if_false]

/-- With no stripe left in any set the pass ends, and the next starts at the first row of every set (R247). -/
theorem exec_scrubRead_of_passEnd {os : List PageOutcome} (hlast : ∀ k, k < 8 → s.nextScrub k = none) :
    exec (.scrubRead set os) s = .next
      ((s.over (List.range 8) (fun s k => s.modSet k (fun t => { t with scrub := 0 }))).set K.scrubProgress 0) := by
  have hnone : (List.range 8).any (fun k => (s.nextScrub k).isSome) = false :=
    List.any_eq_false.mpr (fun k hk => by simp [hlast k (List.mem_range.mp hk)])
  simp only [exec, execScrubRead, if_neg (not_scrubHeld henable hruns hpaused), hlast set set.isLt, hnone, Bool.false_eq_true, if_false]

end

/-- Settles O31: one lemma per command and outcome; the minute and the selection that the statement writes out are `passMinute` and
`takeVictim`. -/
theorem mediaCommands : Obligations.MediaCommands := by
  intro set s
  refine ⟨exec_calendsAdvance_of_runs, exec_calendsSave_of_awake, ?saves, exec_selectVictim_of_enough, ?select, ?copy, ?erase,
    fun _ _ => exec_wearCheck_of_due, ?scrub, ?passEnd⟩
  case saves =>
    exact fun hsaves => ⟨exec_harvestTableSave_of_saves hsaves, exec_scrubPositionSave_of_saves hsaves, exec_healthSave_of_saves hsaves⟩
  case select => exact fun _ _ _ hruns hpaused => exec_selectVictim_of_few hruns hpaused
  case copy =>
    intro d b i rb g wl page os hvictim hruns hpaused hblock hgen hstripe hlive hroom
    exact exec_harvestCopy_of_room hruns hpaused hvictim hblock hgen hstripe hlive rfl hroom
  case erase => exact fun _ _ hruns hpaused => exec_victimErase_of_ready hruns hpaused
  case scrub =>
    intro row rb g wl os x henable hruns hpaused hnext hx hroom
    exact exec_scrubRead_of_room henable hruns hpaused hnext hx hroom
  case passEnd => exact fun _ henable hruns hpaused => exec_scrubRead_of_passEnd henable hruns hpaused

end Sys2Proof.Machine
end

section
/-! SUPPORT. Proofs of the DRAM family (09_dram.md): commands to a rank and their upkeep, the copy to a spare half, helper runs, the patrol, picks,
and recovery by region. -/

namespace Sys2Proof.Machine

/-! ## Commands to a rank (R264, R273) -/

theorem rankCommand_of_match {sub : Nat} {q : RankCommand} (op a : Nat) (s : State) (hmatch : q.mismatch = false) :
    rankCommand sub q op a s = s.emit (.dramCommand sub q.rank op a) := by
  rw [rankCommand, hmatch, State.when_false]

/-- A mismatch counts, and the command is sent again (R273). -/
theorem rankCommand_of_mismatch {sub : Nat} {q : RankCommand} (op a : Nat) (s : State) (hmismatch : q.mismatch = true) :
    rankCommand sub q op a s = (dramChecked sub q.rank a .commandParity (s.emit (.dramCommand sub q.rank op a))).emit
      (.dramCommand sub q.rank op a) := by
  rw [rankCommand, hmismatch, State.when_true]

/-! ## Refresh and idle states (R269, R270, R271) -/

section
variable {sub : Fin 8} {q : RankCommand} {s : State} (hserves : s.rankServes sub q.rank = true)
include hserves

section
variable (hawake : (s.drank sub q.rank).selfRefresh = false)
include hawake

/-- A refresh that falls due on a rank that refreshes on command is postponed, or is sent with those postponed (R269). -/
theorem exec_refresh_of_awake :
    exec (.refresh sub q) s = .next (
      if (s.dsub sub).queue.any (fun r => decide (s.rankFor sub r.da = q.rank) && decide (r.cls ≠ 5)) = true ∧ (s.drank sub q.rank).postponed < 4
      then s.modDrank sub q.rank (fun x => { x with postponed := x.postponed + 1 })
      else rankCommand sub q 3 0 ((s.modDrank sub q.rank (fun x => { x with postponed := 0 })).over
        (List.range (s.drank sub q.rank).postponed) (fun s _ => s.emit (.dramCommand sub q.rank 3 0)))) := by
  have hgo : ¬ ((!s.rankServes sub q.rank || (s.drank sub q.rank).selfRefresh) = true) := by simp [hserves, hawake]
  exact congrArg Host.Outcome.next (if_neg hgo)

/-- With no request that presses, or four refreshes postponed, it is sent with those postponed (R269). -/
theorem exec_refresh_of_due
    (hdue : (s.dsub sub).queue.any (fun r => decide (s.rankFor sub r.da = q.rank) && decide (r.cls ≠ 5)) = true →
      4 ≤ (s.drank sub q.rank).postponed) :
    exec (.refresh sub q) s = .next (rankCommand sub q 3 0 ((s.modDrank sub q.rank (fun x => { x with postponed := 0 })).over
      (List.range (s.drank sub q.rank).postponed) (fun s _ => s.emit (.dramCommand sub q.rank 3 0)))) := by
  rw [exec_refresh_of_awake hserves hawake, if_neg (fun ⟨hpending, hfew⟩ => Nat.not_lt.mpr (hdue hpending) hfew)]

/-- While requests are pending up to four refreshes are postponed (R269). -/
theorem exec_refresh_of_pending (hfew : (s.drank sub q.rank).postponed < 4)
    (hpending : (s.dsub sub).queue.any (fun r => decide (s.rankFor sub r.da = q.rank) && decide (r.cls ≠ 5)) = true) :
    exec (.refresh sub q) s = .next (s.modDrank sub q.rank (fun x => { x with postponed := x.postponed + 1 })) := by
  rw [exec_refresh_of_awake hserves hawake, if_pos ⟨hpending, hfew⟩]

end

/-- A rank with no request, that is no unused spare half, enters self-refresh where SelfRefreshIdle is not 0 (R270). -/
theorem exec_selfRefreshEntry_of_idle (henable : s.get K.selfRefreshIdle ≠ 0) (hused : q.rank = 2 → s.get (K.dramSpareHalfState sub) ≠ 1)
    (hheld : (s.dsub sub).held = []) (hidle : (s.dsub sub).queue.any (fun r => s.rankFor sub r.da = q.rank) = false)
    (hawake : (s.drank sub q.rank).selfRefresh = false) :
    exec (.selfRefreshEntry sub q) s = .next (rankCommand sub q 5 0 (s.modDrank sub q.rank (fun x => { x with selfRefresh := true }))) := by
  have hspare : ¬ (q.rank = 2 ∧ s.get (K.dramSpareHalfState sub) = 1) := not_and.mpr hused
  simp only [exec, execSelfRefreshEntry, henable, hserves, hspare, hheld, hidle, hawake, ne_eq, not_true_eq_false, Bool.true_eq_false,
    Bool.false_eq_true, or_self, if_false]

theorem exec_mr4Read_of_serves (doubled : Bool) :
    exec (.mr4Read sub q doubled) s = .next (rankCommand sub q 7 4 (s.modDrank sub q.rank (fun x => { x with doubled := doubled }))) :=
  congrArg Host.Outcome.next (if_pos hserves)

/-- DQS tracking keeps the drift, and reports it when it first passes 8 steps (R278; log entry 90 for the event once). -/
theorem exec_dqsTracking_of_serves (n : BitVec 20) {u : State}
    (hu : u = (rankCommand sub q 7 46 (s.modDrank sub q.rank (fun x => { x with drift := (s20 n.toNat).natAbs }))).emit
      (.dramCommand sub q.rank 7 47)) :
    exec (.dqsTracking sub q n) s = .next (if 8 < (s20 n.toNat).natAbs ∧ (s.drank sub q.rank).drift ≤ 8
      then occur 1196 (rankArg sub q.rank + 32 * min (s20 n.toNat).natAbs 255) u else u) := by
  subst hu
  simp only [exec, execDqsTracking, hserves, Bool.not_true, Bool.false_eq_true, if_false, State.when, Bool.and_eq_true, decide_eq_true_eq]

theorem exec_dramZqCalibration_of_serves : exec (.dramZqCalibration sub q) s = .next (rankCommand sub q 8 0 s) :=
  congrArg Host.Outcome.next (if_pos hserves)

end

/-! ## Copy to the spare half (R274) -/

section
variable {sub : Fin 8} {s : State} {r : Nat} (hrank : s.migratingRank sub = some r) (hmode : s.mode ≠ 5)
include hrank hmode

/-- A bank-row before the last that is copied without error advances the progress; the first also queues the record of the retirement. -/
theorem exec_rankCopy_of_row {m : Nat} {u : State} (hrow : (s.dsub sub).copyRow = m) (hlast : m + 1 < 2097152)
    (hu : u = ((copyBankRow sub r m s).modDsub sub (fun x => { x with copyRow := m + 1 })).set (K.dramMigrationProgress sub)
      ((m + 1) * 10000 / 2097152)) :
    exec (.rankCopy sub [] []) s = .next (if m = 0 then cfSave (.rank sub r) u else u) := by
  subst hu
  have hmore : m ≠ 2097152 := by omega
  simp only [exec, execRankCopy, hrank, if_neg hmode, hrow, if_neg hmore, State.over, List.foldl_nil, State.when, decide_eq_true_eq,
    decide_eq_false (Nat.ne_of_lt hlast), Bool.false_and, Bool.false_eq_true, if_false]

/-- With every bank-row copied and its retirement recorded the rank is retired. -/
theorem exec_rankCopy_of_recorded (hrow : (s.dsub sub).copyRow = 2097152) (hsaved : s.retirementSaved sub r = true) :
    exec (.rankCopy sub [] []) s = .next (rankRetired sub r s) := by
  simp only [exec, execRankCopy, hrank, if_neg hmode, hrow, if_true, hsaved, State.when_true]

end

/-! ## Helper runs (R279) -/

/-- A run that ends reports its state, its count of bursts, and, where no burst missed, HelperFirstFail all ones. -/
theorem exec_helperRunEnd_of_running {s : State} {h : Nat × Nat} (first : Option HelperMiss) (rest : List HelperMiss)
    (hrun : s.dram.helper = some h) :
    ∃ t, exec (.helperRunEnd first rest) s = .next t ∧ t.get K.helperState = 2 ∧ t.get K.helperBurstsDone = s.get K.helperBursts ∧
      t.dram.helper = none ∧ (first = none → rest = [] → t.get K.helperFirstFail = 0xFFFFFFFFFF) := by
  simp only [exec, execHelperRunEnd, hrun]
  refine ⟨_, rfl, State.get_set_self _ _ _, ?done, rfl, ?firstFail⟩
  case done => exact (State.get_set_ne _ _ (by decide)).trans (State.get_set_self _ _ _)
  case firstFail =>
    rintro rfl rfl
    exact (State.get_set_ne _ _ (by decide)).trans ((State.get_set_ne _ _ (by decide)).trans (State.get_set_self _ _ _))

/-! ## The check of a burst, and the patrol (R261, R262) -/

theorem badComponents_nil : badComponents [] = [] := by decide

theorem burstCheck_of_noErrors : burstCheck (.symbols []) = .good := by rw [burstCheck, badComponents_nil]

/-- Errors within one component are corrected (R261). -/
theorem burstCheck_of_oneComponent {errs : List SymbolError} {k : Fin 10} (hone : badComponents errs = [k]) :
    burstCheck (.symbols errs) = .corrected := by rw [burstCheck, hone]

/-- A patrol read with a good burst moves the patrol on, and at the end of the regions counts a pass (R262). -/
theorem exec_patrolScrub_of_good {c : BurstRead} {s u : State} (hmode : s.mode ≠ 5) (htrained : s.dram.trained = true)
    (hqueue : (s.dsub (daSub (64 * s.dram.patrol))).queue = []) (hheld : (s.dsub (daSub (64 * s.dram.patrol))).held = [])
    (hrecovers : s.dram.recoveries.contains (64 * s.dram.patrol) = false) (hgood : burstCheck c = .good)
    (hu : u = issueDram (daSub (64 * s.dram.patrol))
      { cls := 5, write := false, rmw := false, da := 64 * s.dram.patrol, src := .plain } s) :
    exec (.patrolScrub c) s = .next (let w := u.modDram (fun x => { x with patrol := u.patrolNext s.dram.patrol })
      if u.patrolNext s.dram.patrol = 0 then w.inc K.patrolPasses else w) := by
  subst hu
  simp only [exec, execPatrolScrub, hmode, htrained, hqueue, hheld, hrecovers, hgood, ne_eq, not_true_eq_false, Bool.true_eq_false,
    Bool.false_eq_true, reduceCtorEq, or_self, if_false, dramChecked, State.when, decide_eq_true_eq]

/-! ## Picks (R264) -/

section
variable {sub : Fin 8} {s : State} {r : DramReq} (hpick : (enterHeld sub s).dramNext sub = some r)
include hpick

/-- A command that is picked and meets a parity mismatch is counted, and its request stays (R273). -/
theorem exec_dramPick_of_mismatch :
    exec (.dramPick sub .commandParity) s
      = .next (dramChecked sub ((enterHeld sub s).rankFor sub r.da) r.da .commandParity (enterHeld sub s)) := by
  simp only [exec, execDramPick, hpick, burstCheck, if_true]

/-- A request that is picked and whose burst is good leaves its queue and is served (R264). -/
theorem exec_dramPick_of_good {c : BurstRead} (hgood : burstCheck c = .good) :
    exec (.dramPick sub c) s = .next (fetched r.src (issueDram sub r ((enterHeld sub s).modDsub sub (fun x =>
      { x with queue := x.queue.erase r, last := daTurn r.da, writing := r.write, run := if x.writing = r.write then x.run + 1 else 1,
               panicRun := if x.queue.all (fun e => e.cls ≠ 1) || (decide (r.cls = 2) && !r.write) then 0 else x.panicRun + 1 })))) := by
  simp only [exec, execDramPick, hpick, hgood, reduceCtorEq, decide_false, Bool.and_false, Bool.false_and, Bool.false_eq_true, if_false,
    dramChecked, State.when, ite_self, ne_eq, decide_not, Bool.not_eq_true', decide_eq_false_iff_not, ite_not]

end

/-! ## Recovery by region (R277) -/

/-- The region of an address turns on the density and on the directories alone (R259, R277). -/
theorem State.daRegion_congr {s t : State} (hdensity : t.density = s.density) (hdirectory : t.dram.directory = s.dram.directory) (a : Nat) :
    t.daRegion a = s.daRegion a := by
  unfold State.daRegion State.mapSegments State.segmentsUsed
  rw [hdensity, hdirectory]

/-- The density is read from the channels' objects, which stand above those of the DRAM controller (R202). -/
theorem State.density_set_of_lt (s : State) {k : Nat} (v : Nat) (hk : k < K.chDiesFitted 0) : (s.set k v).density = s.density := by
  unfold K.chDiesFitted key at hk
  have hfitted (c : Nat) : (s.set k v).get (K.chDiesFitted c) = s.get (K.chDiesFitted c) :=
    s.get_set_ne v (by unfold K.chDiesFitted key; omega)
  have hcode (c : Nat) : (s.set k v).get (K.chDieDensity c) = s.get (K.chDieDensity c) :=
    s.get_set_ne v (by unfold K.chDieDensity key; omega)
  simp only [State.density, hfitted, hcode]

theorem State.daRegion_set_of_lt (s : State) {k : Nat} (v a : Nat) (hk : k < K.chDiesFitted 0) : (s.set k v).daRegion a = s.daRegion a :=
  State.daRegion_congr (s.density_set_of_lt v hk) rfl a

theorem State.daRegion_modDrank (s : State) (n r a : Nat) (f : DramRank → DramRank) : (s.modDrank n r f).daRegion a = s.daRegion a := rfl

theorem State.daRegion_emit (s : State) (a : Nat) (o : Out) : (s.emit o).daRegion a = s.daRegion a := rfl

theorem activate_daRegion (sub r bank row a : Nat) (s : State) : (activate sub r bank row s).daRegion a = s.daRegion a := by
  unfold activate
  extract_lets l hit l' t
  have ht : t.daRegion a = s.daRegion a := s.daRegion_modDrank sub r a _
  cases hit with
  | false => exact ht
  | true =>
    rw [State.when_true, State.inc, State.add, State.daRegion_set_of_lt _ _ _ (by decide),
      over_keeps (State.daRegion · a) _ (fun s _ => s.daRegion_emit a _), ht]

theorem wakeRank_daRegion (sub k a : Nat) (s : State) : (wakeRank sub k s).daRegion a = s.daRegion a := by
  unfold wakeRank State.when
  split <;> rfl

/-- A column command moves no address to another region. -/
theorem columnCommand_daRegion (sub k op b a : Nat) (s : State) : (columnCommand sub k op b s).daRegion a = s.daRegion a := by
  rw [columnCommand, activate_daRegion, State.daRegion_emit, wakeRank_daRegion]

/-- The i-th recovery in progress is taken off the list (R277). -/
def endRecovery (i : Nat) (s : State) : State :=
  (s.modDram (fun x => { x with recoveries := s.dram.recoveries.eraseIdx i })).set K.recoveriesPending (s.dram.recoveries.eraseIdx i).length

theorem endRecovery_daRegion (i a : Nat) (s : State) : (endRecovery i s).daRegion a = s.daRegion a :=
  State.daRegion_set_of_lt _ _ a (by decide)

theorem endRecovery_rankFor (i sub a : Nat) (s : State) : (endRecovery i s).rankFor sub a = s.rankFor sub a := by
  have hreplaces : (endRecovery i s).get (K.dramSpareReplaces sub) = s.get (K.dramSpareReplaces sub) :=
    State.get_set_ne _ _ (by unfold K.dramSpareReplaces K.recoveriesPending key; omega)
  have hhalf : (endRecovery i s).get (K.dramSpareHalfState sub) = s.get (K.dramSpareHalfState sub) :=
    State.get_set_ne _ _ (by unfold K.dramSpareHalfState K.recoveriesPending key; omega)
  have hcopied : (endRecovery i s).dsub sub = s.dsub sub := rfl
  rw [State.rankFor, hreplaces, hhalf, hcopied, State.rankFor]

/-- What is recovered, of neither program shadows nor the loss index, is written to its place, and what was held for it commits. -/
theorem exec_regionRecoveryDone_of_entry {i a : Nat} {s : State} (hmode : s.mode ≠ 5) (hburst : s.dram.recoveries[i]? = some a)
    (hshadow : s.daRegion a ≠ 3) (hloss : s.daRegion a ≠ 5) :
    exec (.regionRecoveryDone i) s
      = .next (commitTransfers (commitHeld (columnCommand (daSub a) (s.rankFor (daSub a) a) 2 a (endRecovery i s)))) := by
  simp only [exec, execRegionRecoveryDone, if_neg hmode, hburst]
  rw [← endRecovery, endRecovery_rankFor, columnCommand_daRegion, endRecovery_daRegion]
  split
  · contradiction
  · contradiction
  · rfl

/-- Settles O24: one lemma per command and outcome; the clear of the activate tables is what its arm says, and the recovery that the statement
writes out is `endRecovery`. -/
theorem dramCommands : Obligations.DramCommands := by
  intro sub q s
  refine ⟨fun op a => ⟨rankCommand_of_match op a s, rankCommand_of_mismatch op a s⟩, exec_refresh_of_due, exec_refresh_of_pending, rfl,
    fun henable hserves => exec_selfRefreshEntry_of_idle hserves henable, fun b hserves => exec_mr4Read_of_serves hserves b,
    fun n u hserves => exec_dqsTracking_of_serves hserves n, exec_dramZqCalibration_of_serves,
    fun r m u hrank hmode => exec_rankCopy_of_row hrank hmode, fun r hrank hmode => exec_rankCopy_of_recorded hrank hmode,
    fun h first rest => exec_helperRunEnd_of_running first rest, fun c u => exec_patrolScrub_of_good, burstCheck_of_noErrors,
    fun errs k => burstCheck_of_oneComponent, fun r => exec_dramPick_of_mismatch, fun r c hpick => exec_dramPick_of_good hpick,
    fun i a => exec_regionRecoveryDone_of_entry⟩

end Sys2Proof.Machine
end

section
/-! SUPPORT. Proofs of the link family (10_urvan_link.md): packets handed to a port, host data and the raw writes, the link's own commands, power states
below S0, and writes to the command objects of ports, the bank and the device. -/

namespace Sys2Proof.Machine

/-! ## Handing a packet to a port (R297, R309, R310, R314) -/

theorem sendPacket_of_dropped {p : Nat} {k : Packet} {s : State} (hdrop : s.mode = 0 ∨ s.mode = 5) : sendPacket p k s = s :=
  if_pos hdrop.symm

/-- A transmitter that does not run sends nothing (R297, R301). -/
theorem pumpOnce_of_not_portRuns {p : Nat} {s : State} (hruns : s.portRuns p = false) : pumpOnce p s = s :=
  if_neg (fun hgo => Bool.false_ne_true (hruns.symm.trans hgo.1))

/-- With nothing to forward it takes nothing in either (R421). -/
theorem pump_of_not_portRuns {p : Nat} {s : State} (hruns : s.portRuns p = false) (hthrough : (s.port p).through = []) : pump p s = s := by
  rw [pump, pumpOnce_of_not_portRuns hruns, hthrough]
  rfl

/-- Outside Cold and Vigil it waits with the port until that sends (R297; log entry 124). -/
theorem sendPacket_of_not_portRuns {p : Nat} {k : Packet} {s : State} (hcold : s.mode ≠ 0) (hvigil : s.mode ≠ 5) (hruns : s.portRuns p = false)
    (hthrough : (s.port p).through = []) :
    sendPacket p k s = s.modPort p (fun pt => { pt with waiting := joinWaiting k pt.waiting }) := by
  have hmode : ¬ (s.mode = 5 ∨ s.mode = 0) := not_or.mpr ⟨hvigil, hcold⟩
  have hjoined : ((s.modPort p (fun pt => { pt with waiting := joinWaiting k pt.waiting })).port p).through = [] := by
    rw [State.port_modPort_self, hthrough]
  rw [sendPacket, if_neg hmode]
  exact pump_of_not_portRuns hruns hjoined

/-- Read data alone may go ahead of what waits (R171, R310). -/
theorem joinWaiting_of_not_memWrite {k : Packet} (hread : ∀ o c b a n v, k ≠ .memWrite o c b a n v) (l : List Packet) :
    joinWaiting k l = l ++ [k] := by
  cases k with
  | memWrite o c b a n v => exact absurd rfl (hread o c b a n v)
  | _ => rfl

/-- A port that sends changes no other port. -/
theorem pumpOnce_port_ne {p q : Nat} (s : State) (hport : q ≠ p) : (pumpOnce p s).port q = s.port q := by
  unfold pumpOnce
  extract_lets pt
  split
  · generalize pumpGo _ _ _ _ _ _ = r
    obtain ⟨pt', sent⟩ := r
    have hset : (s.modPort p (fun _ => pt')).port q = s.port q := s.port_modPort_ne _ hport
    exact hset
  · rfl

theorem pump_port_ne {p q : Nat} (s : State) (hport : q ≠ p) : (pump p s).port q = s.port q :=
  (over_keeps (State.port · q) (fun s _ => pumpOnce p (s.modPort p acceptThrough))
    (fun s _ => (pumpOnce_port_ne _ hport).trans (s.port_modPort_ne _ hport)) _ _).trans (pumpOnce_port_ne s hport)

theorem sendPacket_port_ne {p q : Nat} (k : Packet) (s : State) (hport : q ≠ p) : (sendPacket p k s).port q = s.port q := by
  unfold sendPacket
  split
  · rfl
  · exact (pump_port_ne _ hport).trans (s.port_modPort_ne _ hport)

/-- Settles O26: what a port that does not send leaves of `pump`, and the frame of a packet handed to any port. -/
theorem sentPacket : Obligations.SentPacket := by
  intro p k s
  exact ⟨sendPacket_of_dropped,
    fun hcold hvigil hruns hthrough =>
      ⟨sendPacket_of_not_portRuns hcold hvigil hruns hthrough, fun hread => joinWaiting_of_not_memWrite hread _⟩,
    fun _ => sendPacket_get p k s, fun _ => sendPacket_port_ne k s, sendPacket_rings p k s, sendPacket_win p k s, sendPacket_fl p k s,
    sendPacket_wr p k s⟩

/-! ## Host data, TRIM, and the raw writes (R81, R83, R308) -/

section
variable {tag n : BitVec 13} {v : BitVec 32768} {s : State} {r : HostRead}

/-- Data of a read outstanding ends its operation if it is poisoned, is malformed if it is more than the read lacks, and is gathered otherwise (R308). -/
theorem exec_memReadData_of_answered (poisoned : Bool) (hread : s.wr.hostReads.find? (fun r => decide (r.tag = tag.toNat)) = some r) :
    exec (.memReadData tag n poisoned v) s = .next (if poisoned then hostReadBad r s
      else if r.left < n.toNat then s.inc (K.portMalformedPackets 0) else takeHostData r n.toNat v.toNat s) := by
  simp only [exec, execMemReadData, hread]

theorem exec_memReadData_of_unasked (poisoned : Bool) (hread : s.wr.hostReads.find? (fun r => decide (r.tag = tag.toNat)) = none) :
    exec (.memReadData tag n poisoned v) s = .next (s.inc (K.portMalformedPackets 0)) := by
  simp only [exec, execMemReadData, hread]

theorem exec_memReadTimeout_of_outstanding (hread : s.wr.hostReads.find? (fun r => decide (r.tag = tag.toNat)) = some r) :
    exec (.memReadTimeout tag) s = .next (hostReadBad r s) := by
  simp only [exec, execMemReadTimeout, hread]

end

section
variable {ring : Fin 8192} {slot : Fin 65536} {s : State} {o : Op}

/-- A ready TRIM whose entries are all there is carried out at once, where journal room allows, if it covers whole units only; otherwise it joins
admission for its zero blocks (R83, R277; log entry 153). -/
theorem exec_trim_of_ready (hready : s.readyOp ring slot 0x03 = some o) (hfence : s.fencedFor o = false)
    (hentries : (unitsOf (descLba o.desc) (descCount o.desc)).any (fun u => s.entryWaits (s.setOf o.ring) u.1) = false) :
    exec (.trim ring slot) s = .next (if (unitsOf (descLba o.desc) (descCount o.desc)).all (fun u => u.2) then
        if s.journalRoom < (unitsOf (descLba o.desc) (descCount o.desc)).length then s
        else finishOp o 0 (s.fullLength o.desc) 0
          (s.over (unitsOf (descLba o.desc) (descCount o.desc)) (fun s u => trimUnit (s.setOf o.ring) u.1 s))
      else joinAdmission o s) := by
  simp only [exec, execTrim, hready, hfence, hentries, Bool.false_eq_true, if_false, State.fullLength]

/-- A ready RAW_PROGRAM gathers its data from the host (R81); its length does not depend on the state (R92). -/
theorem exec_rawProgram_of_ready (hready : s.readyOp ring slot 0x11 = some o) (hfence : s.fencedFor o = false) :
    exec (.rawProgram ring slot) s = .next (startHostReads ring slot (descHost o.desc) (s.fullLength o.desc)
      ((s.modWr (fun w => { w with gathers := w.gathers ++
        [{ ring := ring, slot := slot, set := 0, lba := 0, count := 0, tag := 0, trim := false, slots := [], data := [], merged := [],
           poisoned := false }] })).modOp ring slot (fun o => { o with phase := .issued }))) := by
  simp only [exec, execRawProgram, hready, hfence, Bool.false_eq_true, if_false, State.fullLength]

/-- A ready RAW_ERASE queues the planes selected, and one of none has nothing left to do (R81). -/
theorem exec_rawErase_of_ready (hready : s.readyOp ring slot 0x12 = some o) (hfence : s.fencedFor o = false) :
    exec (.rawErase ring slot) s = .next (if descDuo o.desc 3 % 16 = 0 then
        finishOp o 0 0 0 (s.modOp ring slot (fun o => { o with phase := .issued }))
      else pushErase (pmaCh (descDuo o.desc 2)) (pmaDie (descDuo o.desc 2)) (pmaBlock (descDuo o.desc 2)) (descDuo o.desc 3 % 16) none
        (some (o.ring, o.slot)) (s.modOp ring slot (fun o => { o with phase := .issued }))) := by
  simp only [exec, execRawErase, hready, hfence, Bool.false_eq_true, if_false]

end

/-- Settles O15: one lemma per command, whose remaining branches the conditions of each clause decide. -/
theorem hostDataAndTrim : Obligations.HostDataAndTrim := by
  intro ring slot tag n v s o r
  refine ⟨fun hread hfits => ?_, fun hread hmore => ?_, fun hread => ⟨?_, exec_memReadTimeout_of_outstanding hread⟩,
    exec_memReadData_of_unasked, fun hready hfence hentries hwhole hroom => ?_, fun hready hfence hentries hpartial => ?_,
    exec_rawProgram_of_ready, fun hready hfence hplanes => ?_, fun hready hfence hplanes => ?_⟩
  · rw [exec_memReadData_of_answered false hread, if_neg Bool.false_ne_true, if_neg (Nat.not_lt.mpr hfits)]
  · rw [exec_memReadData_of_answered false hread, if_neg Bool.false_ne_true, if_pos hmore]
  · rw [exec_memReadData_of_answered true hread, if_pos rfl]
  · rw [exec_trim_of_ready hready hfence hentries, if_pos hwhole, if_neg (Nat.not_lt.mpr hroom)]
  · rw [exec_trim_of_ready hready hfence hentries, hpartial, if_neg Bool.false_ne_true]
  · rw [exec_rawErase_of_ready hready hfence, if_neg hplanes]
  · rw [exec_rawErase_of_ready hready hfence, if_pos hplanes]

/-! ## Received flits (R291 to R300) -/

section
variable {p : Nat} {ctl : FlitCtl} {body : BitVec 1920} {s : State}

/-- With Pepper off no CRC is forced to fail (R487). -/
theorem forceCrc_of_pepperOff (hpepper : s.flag K.pepperEnable = false) : forceCrc p s = (false, s) :=
  if_neg (fun hgo => Bool.false_ne_true (hpepper.symm.trans hgo.1))

/-- A port that is up passes a flit that is taken in order, a payload flit outside Vigil alone, and goes on with what it can send (R298, R358). -/
theorem rxFlit_of_inOrder {kind : Nat} (htakes : s.takesFlit p ctl body kind) (hkind : kind < 4)
    (horder : ctlSeq ctl = ((flitTaken p ctl s).port p).rxSeq) (act : State → State) :
    rxFlit p ctl body kind act s = postHeld (pump p (
      if kind = 1 then
        if (flitTaken p ctl s).mode = 5 then flitTaken p ctl s
        else act ((flitTaken p ctl s).modPort p (fun pt =>
          { pt with rxSeq := (ctlSeq ctl + 1) % 4096, nakAt := none, unreported := pt.unreported + 1 })).awake
      else act (flitTaken p ctl s))) := by
  obtain ⟨hup, hsync, hcrc, hpepper, rfl⟩ := htakes
  have hstandby : s.get (K.portLinkState p) ≠ 5 := by omega
  have hlocked : s.portLocked p = true := decide_eq_true hup
  have hcounted : (s.add (K.portSyncSymbolErrors p) 0).flag K.pepperEnable = false := by
    rw [State.flag, State.add, State.get_set_ne _ _ (by unfold K.pepperEnable K.portSyncSymbolErrors key; omega)]
    exact hpepper
  have hknown : ¬ 4 ≤ ctlKind ctl := Nat.not_le.mpr hkind
  simp only [rxFlit, if_neg hstandby, hlocked, hsync, forceCrc_of_pepperOff hcounted, hcrc, if_neg hknown, Bool.not_true, Bool.or_self,
    Bool.false_eq_true, if_false, if_true, Nat.not_lt_zero]
  rw [← flitTaken, if_pos horder, if_pos horder, ← horder]
  rfl

/-- An in-order flit of another kind than payload has its effect at once (R298). -/
theorem rxFlit_of_inOrder_control {kind : Nat} (htakes : s.takesFlit p ctl body kind) (hkind : kind < 4) (hcontrol : kind ≠ 1)
    (horder : ctlSeq ctl = ((flitTaken p ctl s).port p).rxSeq) (act : State → State) :
    rxFlit p ctl body kind act s = postHeld (pump p (act (flitTaken p ctl s))) := by
  rw [rxFlit_of_inOrder htakes hkind horder, if_neg hcontrol]

end

section
variable {p : Fin 3} {ctl : FlitCtl} {s : State}

/-- An in-order payload flit outside Vigil passes its beats, each with its parity, and is acknowledged where 16 are unreported (R298, R299). -/
theorem exec_payloadFlit_of_inOrder {bs : FlitBeats} {u : State} (htakes : s.takesFlit p ctl (beatsPayload bs.slots) 1)
    (horder : ctlSeq ctl = ((flitTaken p ctl s).port p).rxSeq) (hvigil : (flitTaken p ctl s).mode ≠ 5)
    (hu : u = ((flitTaken p ctl s).modPort p (fun pt =>
      { pt with rxSeq := (ctlSeq ctl + 1) % 4096, nakAt := none, unreported := pt.unreported + 1 })).awake.over (bs.slots.zip (List.range 6))
        (fun s b => (takeBeat p b.1 s).when (bs.parityBad.any (fun k => decide (k.val = b.2))) (beatParity p))) :
    exec (.payloadFlit p ctl bs) s = .next (postHeld (pump p (u.when (decide (16 ≤ (u.port p).unreported)) (sendAck p)))) := by
  subst hu
  simp only [exec, execPayloadFlit]
  rw [rxFlit_of_inOrder htakes (by decide) horder, if_pos rfl, if_neg hvigil]

theorem exec_idleFlit_of_inOrder {body : BitVec 1920} (htakes : s.takesFlit p ctl body 0)
    (horder : ctlSeq ctl = ((flitTaken p ctl s).port p).rxSeq) :
    exec (.idleFlit p ⟨ctl, body⟩) s = .next (postHeld (pump p (flitTaken p ctl s))) :=
  congrArg Host.Outcome.next (rxFlit_of_inOrder_control htakes (by decide) (by decide) horder id)

/-- In a training the Param flit of Role 0 and Width 16 is taken without the control fields of a flit in order (R286, R293, R309). -/
theorem exec_paramFlit_of_training {cp cn : BitVec 12} {reset : Bool} (hstate : s.get (K.portLinkState p) = 1) (hsync : syncDiffs ctl.sync ≤ 1)
    (hcrc : ctlCrcGood ctl (paramPayload cp cn 0 reset 16) = true) (hcredits : creditsSmall p cp.toNat cn.toNat = false) :
    exec (.paramFlit p ctl cp cn 0 reset 16) s = .next
      (((((s.add (K.portSyncSymbolErrors p) (syncDiffs ctl.sync)).inc (K.portFlitsReceived p)).set (K.portPartnerCreditP p) cp.toNat).set
        (K.portPartnerCreditN p) cn.toNat).modPort p (fun pt => { pt with paramSeen := true })) := by
  have hheader : ¬ 1 < syncDiffs ctl.sync := Nat.not_lt.mpr hsync
  have hretrain : ¬ (s.get (K.portLinkState p) = 4 ∧ reset = true) := by simp [hstate]
  simp only [exec, execParamFlit, if_pos (Or.inl hstate), if_neg hheader, hcrc, if_neg hretrain, hcredits]
  rfl

/-! ## Lock, acknowledgement, replay (R295, R296, R299, R300, R301) -/

theorem exec_missedHeader_of_up (hup : s.get (K.portLinkState p) = 2) :
    exec (.missedHeader p) s = .next (linkLosesTest p (((s.set (K.portLinkState p) 3).inc (K.portRealigns p)).modPort p
      (fun pt => { pt with hunting := some s.now }))) :=
  congrArg Host.Outcome.next (if_pos hup)

/-- Lock ends a realign, and counts the symbols that differed (R291, R295). -/
theorem exec_flitLock_of_realign (e : Fin 5) (hrealign : s.get (K.portLinkState p) = 3) :
    exec (.flitLock ⟨p, e⟩) s = .next (postHeld (pump p
      (((s.add (K.portSyncSymbolErrors p) e).set (K.portLinkState p) 2).modPort p (fun pt => { pt with hunting := none })))) := by
  simp only [exec, execFlitLock, hrealign]
  rfl

theorem exec_lockTimeout_of_realign (hrealign : s.get (K.portLinkState p) = 3) : exec (.lockTimeout p) s = .next (startRetrain p 2 s) :=
  congrArg Host.Outcome.next (if_pos hrealign)

theorem exec_ackDue_of_unreported (hunreported : (s.port p).unreported ≠ 0) (hruns : s.portRuns p = true) :
    exec (.ackDue p) s = .next (sendAck p s) :=
  congrArg Host.Outcome.next (if_pos ⟨hunreported, hruns⟩)

theorem exec_replayTimeout_of_portRuns (hruns : s.portRuns p = true) : exec (.replayTimeout p) s = .next (replayAll p s) :=
  congrArg Host.Outcome.next (if_pos hruns)

/-! ## Training and adaptation (R286, R301, R315) -/

theorem exec_portTraining_of_full {r : PortResult} (hvigil : s.mode ≠ 5) (hrecovery : (s.port p).recovery = 2)
    (hfull : (s.port p).fullTraining = true) : exec (.portTraining p r) s = .next (fullTraining p r s) := by
  have hgoes : ¬ ((s.port p).recovery = 0 ∨ s.mode = 5) := by simp [hrecovery, hvigil]
  have hwhole : (s.port p).recovery = 2 ∧ (s.port p).fullTraining = true := ⟨hrecovery, hfull⟩
  simp only [exec, execPortTraining, if_neg hgoes, if_pos hwhole]

/-- A fast retrain ends with the link up, or starts a link reset (R301). -/
theorem exec_portTraining_of_fast {r : PortResult} (hvigil : s.mode ≠ 5) (hrecovery : (s.port p).recovery = 1) :
    exec (.portTraining p r) s
      = .next (if quickPasses p r = true then linkUp p (sendParam p false s) else startLinkReset p 8 true false s) := by
  have hgoes : ¬ ((s.port p).recovery = 0 ∨ s.mode = 5) := by simp [hrecovery, hvigil]
  have hfast : ¬ ((s.port p).recovery = 2 ∧ (s.port p).fullTraining = true) := by simp [hrecovery]
  simp only [exec, execPortTraining, if_neg hgoes, if_neg hfast, if_pos hrecovery]
  cases quickPasses p r with
  | false => rfl
  | true => rfl

theorem exec_linkTrainRetry_of_failed (hretry : (s.port p).retry = true) (hdown : s.get (K.portLinkState p) = 0) (hlow : 1 ≤ s.mode)
    (hhigh : s.mode ≤ 4) :
    exec (.linkTrainRetry p) s = .next (((calStart (120 + p) s).set (K.portLinkState p) 1).modPort p
      (fun pt => { pt with recovery := 2, fullTraining := true, retry := false })) :=
  congrArg Host.Outcome.next (if_pos ⟨hretry, hdown, hlow, hhigh⟩)

/-- Figures above the limits of R288 and of LinkMargin are reported, and nothing follows (R301). -/
theorem exec_serviceAdaptation_of_good {lane : Fin 16} {w h b : Word} (hup : s.get (K.portLinkState p) = 2) (hlane : lane.val < portLanes p)
    (hwidth : 164 ≤ w.toNat) (hheight : 10 ≤ h.toNat) (hber : 1200 ≤ b.toNat) :
    exec (.serviceAdaptation p lane w h b) s = .next (portFigures p
      (((s.set (K.portLaneEyeWidth p lane) w.toNat).set (K.portLaneEyeHeight p lane) h.toNat).set (K.portLaneResidualBer p lane) b.toNat)) := by
  have hserved : ¬ (s.get (K.portLinkState p) ≠ 2 ∨ portLanes p ≤ lane.val) := by simp [hup, hlane]
  have hmargin : ¬ w.toNat < 164 := Nat.not_lt.mpr hwidth
  have hlimits : ¬ w.toNat < 123 ∧ ¬ h.toNat < 10 ∧ ¬ b.toNat < 1200 := by omega
  obtain ⟨hw, hh, hb⟩ := hlimits
  simp only [exec, execServiceAdaptation, if_neg hserved, hmargin, hw, hh, hb, decide_false, Bool.or_self, State.when_false]

end

/-- Settles O25: received flits through `rxFlit_of_inOrder`, and one lemma for each of the port's own commands. -/
theorem linkCommands : Obligations.LinkCommands := by
  intro p ctl s
  refine ⟨fun bs u => exec_payloadFlit_of_inOrder, fun body => exec_idleFlit_of_inOrder, fun cp cn reset => exec_paramFlit_of_training,
    exec_missedHeader_of_up, exec_flitLock_of_realign, exec_lockTimeout_of_realign, exec_ackDue_of_unreported,
    exec_replayTimeout_of_portRuns, fun r => exec_portTraining_of_full, fun r hvigil hrecovery hpasses => ?_,
    fun r hvigil hrecovery hfails => ?_, exec_linkTrainRetry_of_failed, fun lane w h b => exec_serviceAdaptation_of_good⟩
  · rw [exec_portTraining_of_fast hvigil hrecovery, if_pos hpasses]
  · rw [exec_portTraining_of_fast hvigil hrecovery, hfails, if_neg Bool.false_ne_true]

/-! ## Power states below S0 (R313, R356 to R360, R442) -/

section
variable {s : State}

/-- A request held in S0 is met once nothing blocks it; S5 first has its wake image written (R358, R361). -/
theorem exec_powerStateEntry_of_unblocked {k : Nat} (hrequest : s.pw.request = some k) (hawake : s.get K.powerState = 0)
    (hblock : s.powerBlock = 0) :
    exec .powerStateEntry s = .next (if k = 5 ∧ s.get K.wakeImageValid = 0 then (if s.imagePending then s else writeWakeImage s)
      else enterPower k s) := by
  have hgoes : ¬ (s.get K.powerState ≠ 0 ∨ s.powerBlock ≠ 0) := by simp [hawake, hblock]
  simp only [exec, execPowerStateEntry, hrequest, if_neg hgoes]

theorem exec_autoPoise_of_idle (hidle : s.get K.autoPoiseIdle ≠ 0) (hawake : s.get K.powerState = 0) (hrequest : s.pw.request = none)
    (hblock : s.powerBlock = 0) : exec .autoPoise s = .next (enterPower 1 s) :=
  congrArg Host.Outcome.next (if_pos ⟨hidle, hawake, hrequest, hblock⟩)

theorem exec_saveTimer_of_asleep (hlow : 1 ≤ s.get K.powerState) (hhigh : s.get K.powerState ≤ 4) :
    exec .saveTimer s = .next ((cfSave .calends (cfSave .dieCounts s)).set K.wakeCause 4) :=
  congrArg Host.Outcome.next (if_pos ⟨hlow, hhigh⟩)

/-- A request for S1 or S2 is held as it is: a failed wake image stands in the way of S5 alone (R358, R361). -/
theorem requestPower_of_serving {k : Nat} (hshallow : k = 1 ∨ k = 2) (hserving : s.serving = true) (hawake : s.get K.powerState = 0) :
    requestPower k s = { s with pw := { s.pw with request := some k } } := by
  have hheld : s.serving = true ∧ s.get K.powerState = 0 := ⟨hserving, hawake⟩
  have hdeep : ¬ (k = 5 ∧ s.pw.s5Denied = true) := by omega
  rw [requestPower, if_pos hheld, if_neg hdeep]

variable {p : Fin 3}

/-- A pattern that finds the buffer below S0 wakes it: as the link on the Urvan port, and as a peer on the others (R313, R359). -/
theorem exec_wakePattern_of_asleep (hcold : s.mode ≠ 0) (hvigil : s.mode ≠ 5) (hoff : 6 ≤ s.get (K.portLinkState p))
    (hasleep : s.get K.powerState ≠ 0) : exec (.wakePattern p) s = .next (exitPower (if p = 0 then 1 else 3) p s) := by
  have hheard : ¬ (s.mode = 0 ∨ s.mode = 5 ∨ s.get (K.portLinkState p) < 6) := by omega
  simp only [exec, execWakePattern, if_neg hheard, if_pos hasleep]

theorem exec_wakePattern_of_awake (hcold : s.mode ≠ 0) (hvigil : s.mode ≠ 5) (hoff : 6 ≤ s.get (K.portLinkState p))
    (hawake : s.get K.powerState = 0) : exec (.wakePattern p) s = .next (portAwake p s) := by
  have hheard : ¬ (s.mode = 0 ∨ s.mode = 5 ∨ s.get (K.portLinkState p) < 6) := by omega
  simp only [exec, execWakePattern, if_neg hheard, if_neg (not_not_intro hawake)]

end

/-! ### Power flits (R313, R358, R442) -/

section
variable (ctl : FlitCtl) (s : State)

theorem exec_powerEnterS1_urvan : exec (.powerEnterS1 0 ctl) s = .next (rxFlit 0 ctl (powerPayload 1) 3 (requestPower 1) s) := rfl

theorem exec_powerEnterS2_urvan : exec (.powerEnterS2 0 ctl) s = .next (rxFlit 0 ctl (powerPayload 2) 3 (requestPower 2) s) := rfl

theorem exec_powerEnterDeep_urvan :
    exec (.powerEnterDeep 0 ctl) s = .next (rxFlit 0 ctl (powerPayload 3) 3 (fun s => requestPower (s.get K.deepestState) s) s) := rfl

theorem exec_powerAcknowledge (p : Fin 3) :
    exec (.powerAcknowledge p ctl) s = .next (rxFlit p ctl (powerPayload 4) 3 id s) := rfl

variable {p : Fin 3}

theorem exec_powerEnterDeep_peer (hpeer : p ≠ 0) :
    exec (.powerEnterDeep p ctl) s = .next (rxFlit p ctl (powerPayload 3) 3 (peerPowerFlit p 3) s) := by
  simp only [exec, execPowerEnterDeep, if_neg hpeer]

theorem exec_powerVigil_peer (hpeer : p ≠ 0) :
    exec (.powerVigil p ctl) s = .next (rxFlit p ctl (powerPayload 7) 3 (peerPowerFlit p 7) s) := by
  simp only [exec, execPowerVigil, if_neg hpeer]

end

/-- A Power flit in order has the effect of its code (R298, R313). -/
theorem rxFlit_power_of_inOrder {p code : Nat} {ctl : FlitCtl} {s : State} (act : State → State)
    (htakes : s.takesFlit p ctl (powerPayload code) 3) (horder : ctlSeq ctl = ((flitTaken p ctl s).port p).rxSeq) :
    rxFlit p ctl (powerPayload code) 3 act s = postHeld (pump p (act (flitTaken p ctl s))) :=
  rxFlit_of_inOrder_control htakes (by decide) (by decide) horder act

/-- Settles O33: one lemma per command; each Power flit is received as its code says, and one in order has its effect. -/
theorem powerCommands : Obligations.PowerCommands := by
  intro p ctl s
  refine ⟨fun k hrequest hawake hblock himage => ?_, fun hrequest hawake hblock himage hpending => ?_, exec_autoPoise_of_idle,
    exec_saveTimer_of_asleep, fun k => requestPower_of_serving, fun htakes horder => ?_, fun htakes horder => ?_, fun htakes horder => ?_,
    fun htakes horder => ?_, fun hpeer htakes horder => ?_, exec_powerEnterS1_urvan ctl s, exec_powerEnterS2_urvan ctl s,
    exec_powerEnterDeep_urvan ctl s, exec_powerEnterDeep_peer ctl s, exec_powerAcknowledge ctl s p, exec_powerVigil_peer ctl s,
    exec_wakePattern_of_asleep, exec_wakePattern_of_awake⟩
  · have hready : ¬ (k = 5 ∧ s.get K.wakeImageValid = 0) := fun h => himage h.1 h.2
    rw [exec_powerStateEntry_of_unblocked hrequest hawake hblock, if_neg hready]
  · rw [exec_powerStateEntry_of_unblocked hrequest hawake hblock, if_pos ⟨rfl, himage⟩, hpending, if_neg Bool.false_ne_true]
  · exact (exec_powerEnterS1_urvan ctl s).trans (congrArg _ (rxFlit_power_of_inOrder _ htakes horder))
  · exact (exec_powerEnterS2_urvan ctl s).trans (congrArg _ (rxFlit_power_of_inOrder _ htakes horder))
  · exact (exec_powerEnterDeep_urvan ctl s).trans (congrArg _ (rxFlit_power_of_inOrder _ htakes horder))
  · exact (exec_powerAcknowledge ctl s p).trans (congrArg _ (rxFlit_power_of_inOrder _ htakes horder))
  · exact (exec_powerVigil_peer ctl s hpeer).trans (congrArg _ (rxFlit_power_of_inOrder _ htakes horder))

/-! ## Command objects of ports, the bank and the device (R301, R317, R350, R369, R487) -/

section
variable {s t : State} {p : Path} {idx sub typ inst : Nat} {v : Word}
  {name : String} {lo hi mask words : Nat} {ty : VType} {dflt : Dflt} {range : Range}

/-- A write of one word to a write-only object below the broadcast blocks has its effect before the response and what ends the path after it (R38, R49;
log entry 29). -/
theorem serve_write_link (tag : BitVec 8) (hm : s.awake.mayWrite p idx sub v.toNat = true)
    (ho : objAt idx sub = some (inst, ⟨name, lo, hi, ty, .wo, mask, dflt, range, allOnes40, words⟩)) (hi : 0x2000 ≤ idx ∧ idx < 0xF000)
    (hs : sub < 256) (hc : ty.code = typ) (ht : typ < 5) (heff : writeEffect p idx sub inst v.toNat s.awake = t) :
    serve p 1 (oneHeader tag idx sub typ) [v] s
      = afterEffect idx sub inst v.toNat (respond p 1 (oneHeader tag idx sub typ) [] t) := by
  have hlen : [v].length = typeWords typ := by
    unfold typeWords
    rw [if_neg (by omega)]
    rfl
  have hkeep : v.toNat &&& allOnes40 = v.toNat := by
    rw [← wordsNat_one v]
    exact wordsNat_and_allOnes40 hlen
  rw [← wordsNat_one v] at hm
  rw [serve_write_one tag hm ho (by omega) hs hc (by omega) (ObjRow.wordwise_eq_false (Nat.lt_trans (hc ▸ ht) (by decide))) hlen,
    if_neg (by omega), if_neg (by omega), wordsNat_one, writeObj_wo _ _ _ _ _ _ rfl, hkeep, heff]

end

/-- What follows the response of a write of 1 to a command of a port (R301, R317). -/
theorem afterEffect_port (port : Fin 3) (sub inst : Nat) (s : State) :
    afterEffect (0x8800 + 0x40 * port.val) sub inst 1 s = (match sub with
      | 8 => retrainEffect inst s
      | 9 => fullTrainEffect inst s
      | 10 => linkResetEffect inst s
      | _ => s) := by
  have hport : 0x8800 ≤ 0x8800 + 0x40 * port.val ∧ 0x8800 + 0x40 * port.val < 0x88C0 ∧ (0x8800 + 0x40 * port.val - 0x8800) % 0x40 = 0 ∧ 1 = 1 := by
    omega
  unfold afterEffect
  exact (if_neg (by omega)).trans ((if_neg (by omega)).trans (if_pos hport))

/-- A write of 1 to a command of a port is answered, and what that command does follows (R301, R317; log entry 29). -/
theorem serve_write_port {p : Path} {s t : State} (tag : BitVec 8) (port : Fin 3) {sub : Nat} {name : String} {lo hi mask words : Nat} {dflt : Dflt}
    {range : Range} (hm : s.awake.mayWrite p (0x8800 + 0x40 * port.val) sub 1 = true) (h0 : sub ≠ 0) (hs : sub < 256)
    (hrow : rowsPort00.find? (fun r => r.lo ≤ sub ∧ sub ≤ r.hi) = some ⟨name, lo, hi, .bool, .wo, mask, dflt, range, allOnes40, words⟩)
    (heff : afterEffect (0x8800 + 0x40 * port.val) sub port 1
      (respond p 1 (oneHeader tag (0x8800 + 0x40 * port.val) sub 1) [] s.awake) = t) :
    serve p 1 (oneHeader tag (0x8800 + 0x40 * port.val) sub 1) [1] s = t := by
  have ho := objAt_port port (off := 0) (by decide) h0 rfl hrow
  have heffect := writeEffect_port p sub port 1 s.awake (by omega) (by omega : 0x8800 + 0x40 * port.val < 0x88C0)
  exact (serve_write_link (v := 1) (typ := 1) tag hm ho (by omega) hs rfl (by decide) heffect).trans heff

/-- Settles O53: each is a write of one element to a write-only object; the commands of ports, ResetDevice and SupplyLoss act in `afterEffect`. -/
theorem linkAndPowerObjects : Obligations.LinkAndPowerObjects := by
  intro p tag s
  refine ⟨fun port hm => congrArg Host.Outcome.next ?retrain, fun port hm => congrArg Host.Outcome.next ?fullTrain,
    fun port hm => congrArg Host.Outcome.next ?linkReset, fun hm => congrArg Host.Outcome.next ?holdupTest,
    fun hm => congrArg Host.Outcome.next ?resetDevice, fun hm => congrArg Host.Outcome.next ?supplyLoss⟩
  case retrain => exact serve_write_port tag port hm (by decide) (by decide) rfl (afterEffect_port port _ _ _)
  case fullTrain => exact serve_write_port tag port hm (by decide) (by decide) rfl (afterEffect_port port _ _ _)
  case linkReset => exact serve_write_port tag port hm (by decide) (by decide) rfl (afterEffect_port port _ _ _)
  case holdupTest => exact serve_write_link (v := 1) tag hm rfl (by decide) (by decide) rfl (by decide) rfl
  case resetDevice => exact serve_write_link (v := 0x0C01D) tag hm rfl (by decide) (by decide) rfl (by decide) rfl
  case supplyLoss => exact serve_write_link (v := 1) tag hm rfl (by decide) (by decide) rfl (by decide) rfl

end Sys2Proof.Machine
end

section
/-! SUPPORT. Proofs of the calibration family (11_calibration.md): the survey, stored sets taken anew, mapping saves, and the command objects of
calibration and the board group. -/

namespace Sys2Proof.Machine

/-! ## Threshold survey (R324) -/

section
variable {s u : State} {c : Fin 96} {d : Fin 16} {ones : List (List (BitVec 16))} {v : Int}

/-- A survey whose first two estimates agree is complete with them: the die is no longer due, it counts as surveyed, and takes the offset (R324). -/
theorem exec_thresholdSurvey_of_agreeing (hready : s.surveyReady c d = true) (hpages : 2 ≤ (s.surveyPages c d).length)
    (hagree : (nth (ones.map s.surveyEstimate) 0 0 - nth (ones.map s.surveyEstimate) 1 0).natAbs ≤ 2)
    (hheaders : ((s.surveyPages c d).take 2).all s.surveyHeader = true)
    (hoffset : surveyOffset ((ones.map s.surveyEstimate).take 2) = some v)
    (hu : u = ((s.over ((s.surveyPages c d).take 2) (fun s p => surveyRead p s)).add (K.chPageReads c) 2).modCal
      (fun x => { x with due := x.due.erase (dieKey c d) }))
    (hdue : u.cal.due ≠ []) :
    exec (.thresholdSurvey c d ones true) s = .next ((u.inc K.surveyedDies).set (K.chThresholdOffset c d) (to20 v)) := by
  have hused : ((s.surveyPages c d).take 2).length = 2 := List.length_take_of_le hpages
  have hleft : ((u.inc K.surveyedDies).set (K.chThresholdOffset c d) (to20 v)).cal.due ≠ [] := hdue
  subst hu
  simp only [exec, execThresholdSurvey, hready, hagree, hpages, hheaders, hused, hoffset, hleft, decide_true, decide_false, Bool.not_true,
    Bool.false_and, Bool.and_self, Bool.true_eq_false, Bool.false_eq_true, false_and, or_self, if_false, State.when_true, State.when_false]

end

/-! ## Stored sets (R331) -/

section
variable {s : State}

/-- An interface that took fields from its stored set takes them from the set at the temperature now, and keeps its other settings (R331). -/
theorem reapplyStored_of_kept {i : Nat} {c : CalSet} (hset : s.storedSet i = some c) (hkept : SMap.getD s.cal.kept i [] ≠ []) :
    reapplyStored i s =
      (let ps := (List.range (SMap.getD s.cal.applied i []).length).map (fun k => if (SMap.getD s.cal.kept i []).contains k then nth c.params k 0
         else nth (SMap.getD s.cal.applied i []) k 0)
       if 96 ≤ i ∧ i < 120 then applyRank ((i - 96) / 3) ((i - 96) % 3) ps (SMap.getD s.cal.kept i []) s
       else calApply i ps (SMap.getD s.cal.kept i []) s) := by
  simp only [reapplyStored, hset, if_neg hkept]

/-- A stored set is due anew once the temperature has moved by ReapplyStep, at a port in a fast retrain only (R331). -/
theorem exec_reapplyStoredSet_of_moved {i : Fin 123} (hsource : s.get (calSourceKey i) = 2)
    (hmoved : 16 * s.get K.reapplyStep ≤ (s.calTemp i - SMap.getD s.cal.appliedT i 0).natAbs)
    (hport : 120 ≤ i.val → (s.port (i.val - 120)).recovery = 1) :
    exec (.reapplyStoredSet i) s = .next (reapplyStored i s) := by
  have hdue : ¬ (s.get (calSourceKey i) ≠ 2 ∨ (s.calTemp i - SMap.getD s.cal.appliedT i 0).natAbs < 16 * s.get K.reapplyStep ∨
      (120 ≤ i.val ∧ (s.port (i.val - 120)).recovery ≠ 1)) := by
    rintro (h | h | ⟨h, hr⟩)
    · exact h hsource
    · exact Nat.not_lt.mpr hmoved h
    · exact hr (hport h)
  exact congrArg Host.Outcome.next (if_neg hdue)

/-! ## Mapping saves (R347, R348) -/

/-- With no save under way and one due, MAPPING_SAVE begins that of the next segment, and hands out its first page (R347). -/
theorem exec_mappingSave_of_due {k : Nat} (hserving : s.serving = true) (hnone : s.wr.save = none) (hdue : s.saveDue = true)
    (hnext : s.nextSegment = some k) : exec .mappingSave s = .next (issueSavePage (startSave k s)) := by
  simp only [exec, execMappingSave, hserving, hnone, hdue, hnext, Bool.not_true, Bool.false_eq_true, if_false]

theorem exec_mappingSave_of_save {v : MapSave} (hserving : s.serving = true) (hsave : s.wr.save = some v) :
    exec .mappingSave s = .next (issueSavePage s) := by
  simp only [exec, execMappingSave, hserving, hsave, Bool.not_true, Bool.false_eq_true, if_false]

/-- The next page of a save goes to its channels once the programs of the one before have ended (R347; log entry 46). -/
theorem issueSavePage_of_ended {v : MapSave} (hsave : s.wr.save = some v) (hended : v.left = 0) (hpage : v.page < savePages)
    (hchannels : s.saveChannels v.page ≠ []) :
    issueSavePage s = (s.modWr (fun w => { w with save := some { v with page := v.page + 1, left := (s.saveChannels v.page).length } })).over
      (s.saveChannels v.page) (fun s c => programSavePage v c s) := by
  have hgoes : ¬ (v.left ≠ 0 ∨ savePages ≤ v.page ∨ s.saveChannels v.page = []) := by
    rintro (h | h | h)
    · exact h hended
    · exact Nat.not_le.mpr hpage h
    · exact hchannels h
  simp only [issueSavePage, hsave, if_neg hgoes]

end

/-- Settles O45: one lemma per command; a stored set and the next page of a save through the operation that the command calls. -/
theorem calibrationCommands : Obligations.CalibrationCommands := by
  intro s
  refine ⟨fun c d ones v u hready hpages hagree hheaders => exec_thresholdSurvey_of_agreeing hready hpages hagree hheaders, ?_,
    fun k => exec_mappingSave_of_due, fun v hserving hsave hended hpage hchannels => ?_⟩
  · rintro i c ps hsource hmoved hport hset hkept rfl
    rw [exec_reapplyStoredSet_of_moved hsource hmoved hport, reapplyStored_of_kept hset hkept]
  · rw [exec_mappingSave_of_save hserving hsave, issueSavePage_of_ended hsave hended hpage hchannels]

/-! ## Command objects of calibration and the board group (R334, R335, R424, R426, R429, R434 to R436, R439, R444) -/

section
variable {s t : State} {p : Path} {idx sub typ inst v : Nat} {ws : List Word}
  {name : String} {lo hi mask keep words : Nat} {ty : VType} {dflt : Dflt} {range : Range}

/-- A write to a write-only object of calibration, or of the board group outside the broadcast blocks, is answered after its effect, and nothing
follows the response (R38, R49). -/
theorem serve_write_group (tag : BitVec 8) (hv : wordsNat ws = v) (hm : s.awake.mayWrite p idx sub v = true)
    (ho : objAt idx sub = some (inst, ⟨name, lo, hi, ty, .wo, mask, dflt, range, keep, words⟩))
    (hi : 0x9000 ≤ idx ∧ idx ≠ 0xE080 ∧ idx < 0xF3C0) (hs : sub < 256) (hc : ty.code = typ) (ht : typ < 8) (hl : ws.length = typeWords typ)
    (heff : writeEffect p idx sub inst (v &&& keep) s.awake = t) :
    serve p 1 (oneHeader tag idx sub typ) ws s = respond p 1 (oneHeader tag idx sub typ) [] t := by
  subst hv
  rw [serve_write_one tag hm ho (by omega) hs hc (by omega) (ObjRow.wordwise_eq_false (hc ▸ ht)) hl, if_neg (by omega), if_neg (by omega),
    afterEffect_none _ _ _ _ (by omega) (by omega) (by omega), writeObj_wo _ _ _ _ _ _ rfl, heff]

/-- A write of one word to an object of the broadcast blocks is answered after every channel has taken it (R426). -/
theorem serve_write_broadcast {v : Word} {r : ObjRow} (tag : BitVec 8) (hm : s.awake.mayWrite p idx sub v.toNat = true)
    (ho : objAt idx sub = some (inst, r)) (hi : idx = 0xF3C2 ∨ idx = 0xF3D1) (hs : sub < 256) (hc : r.ty.code = typ) (ht : typ < 5) :
    serve p 1 (oneHeader tag idx sub typ) [v] s
      = respond p 1 (oneHeader tag idx sub typ) [] (broadcastWrite idx sub v.toNat s.awake) := by
  have hlen : [v].length = typeWords typ := (if_neg (by omega)).symm
  rw [← wordsNat_one v] at hm ⊢
  rw [serve_write_one tag hm ho (by omega) hs hc (by omega) (ObjRow.wordwise_eq_false (by omega)) hlen, if_pos hi,
    afterEffect_none _ _ _ _ (by omega) (by omega) (by omega)]

end

/-- Settles O54: each is a write of one element to a write-only object, whose effect comes before its response, that of BoardReset too
(log entry 29 gives that object the other order). -/
theorem calibrationAndGroupObjects : Obligations.CalibrationAndGroupObjects := by
  intro p tag s
  refine ⟨fun hm => congrArg Host.Outcome.next ?calSelect, fun hm => congrArg Host.Outcome.next ?calImport,
    fun hm => congrArg Host.Outcome.next ?groupLeave, fun hm => congrArg Host.Outcome.next ?relayGo,
    fun v hm => congrArg Host.Outcome.next ?equinoxArrive, fun v hm => congrArg Host.Outcome.next ?startAll,
    fun hm => congrArg Host.Outcome.next ?orderlyReset, fun hm => congrArg Host.Outcome.next ?immediateReset,
    fun hm => congrArg Host.Outcome.next ?transferStart, fun hm => congrArg Host.Outcome.next ?transferStop,
    fun v hm => congrArg Host.Outcome.next ?allDataRate, fun v hm => congrArg Host.Outcome.next ?allDriveCode,
    fun v hm => congrArg Host.Outcome.next ?allOdtCode, fun v hm => congrArg Host.Outcome.next ?allThrottleLimit⟩
  case calSelect | calImport | groupLeave | relayGo | orderlyReset | immediateReset | transferStart | transferStop =>
    exact serve_write_group tag (wordsNat_one _) hm rfl (by decide) (by decide) rfl (by decide) rfl rfl
  case equinoxArrive | startAll =>
    exact serve_write_group tag (wordsNat_natWords_duo v) hm rfl (by decide) (by decide) rfl (by decide) rfl rfl
  case allDataRate | allDriveCode | allOdtCode => exact serve_write_broadcast tag hm rfl (.inl rfl) (by decide) rfl (by decide)
  case allThrottleLimit => exact serve_write_broadcast tag hm rfl (.inr rfl) (by decide) rfl (by decide)

end Sys2Proof.Machine
end

section
/-! SUPPORT. Proofs of what a step leaves, part 1: the operations of the model that leave the queue and the shared window as they were, in the
order of the model's files. -/

namespace Sys2Proof.Machine

/-- What almost every operation carries over unchanged: the queue and the shared window. -/
def State.carried (s : State) : List Instr × Window := (s.pending, s.win)

-- The parentheses keep these two from being rewritten by unfolding, which would have the kernel compare whole states.
@[simp] theorem State.carried_mk (objs blobs pending out now coldAt freeIdx paths ports cf rings win ev wr fl dram cal pw mon sb grp nv) :
    State.carried ⟨objs, blobs, pending, out, now, coldAt, freeIdx, paths, ports, cf, rings, win, ev, wr, fl, dram, cal, pw, mon, sb, grp, nv⟩
      = (pending, win) := (rfl)
@[simp] theorem State.carried_eta (s : State) : (s.pending, s.win) = s.carried := (rfl)

@[simp] theorem State.carried_ite (c : Prop) [Decidable c] (a b : State) :
    State.carried (if c then a else b) = if c then a.carried else b.carried := apply_ite ..

@[simp] theorem State.when_carried (s : State) (c : Bool) (f : State → State) :
    (s.when c f).carried = if c then (f s).carried else s.carried := by
  unfold State.when; split <;> rfl

@[simp] theorem foldl_carried {α : Type} {f : State → α → State} (h : ∀ s x, (f s x).carried = s.carried) (l : List α) (s : State) :
    (l.foldl f s).carried = s.carried := by
  induction l generalizing s with
  | nil => rfl
  | cons x l ih => simp [ih, h]

@[simp] theorem State.over_carried {α : Type} {f : State → α → State} (h : ∀ s x, (f s x).carried = s.carried) (l : List α) (s : State) :
    (s.over l f).carried = s.carried := foldl_carried h l s

@[simp] theorem foldl_snd_carried {α β : Type} {f : β × State → α → β × State} (h : ∀ a x, (f a x).2.carried = a.2.carried) (l : List α)
    (a : β × State) : (l.foldl f a).2.carried = a.2.carried := by
  induction l generalizing a with
  | nil => rfl
  | cons x l ih => simp [ih, h]

/-! ### Objects, outputs and free values (Ops.lean) -/

@[simp] theorem State.set_carried (s : State) (k v : Nat) : (State.set s k v).carried = s.carried := by simp [State.set]
@[simp] theorem State.add_carried (s : State) (k n : Nat) : (State.add s k n).carried = s.carried := by simp [State.add]
@[simp] theorem State.inc_carried (s : State) (k : Nat) : (State.inc s k).carried = s.carried := by simp [State.inc]
@[simp] theorem State.sub_carried (s : State) (k n : Nat) : (State.sub s k n).carried = s.carried := by simp [State.sub]
@[simp] theorem State.inc20_carried (s : State) (k : Nat) : (State.inc20 s k).carried = s.carried := by simp [State.inc20]
@[simp] theorem State.setBlob_carried (s : State) (k : Nat) (ws : List Word) : (State.setBlob s k ws).carried = s.carried := by simp [State.setBlob]
@[simp] theorem State.emit_carried (s : State) (o : Out) : (State.emit s o).carried = s.carried := by simp [State.emit]
@[simp] theorem State.free_carried (s : State) : (State.free s).2.carried = s.carried := by simp [State.free]
@[simp] theorem State.modSet_carried (s : State) (n : Nat) (f : StripeSet → StripeSet) : (State.modSet s n f).carried = s.carried := by
  simp [State.modSet]
@[simp] theorem State.modPort_carried (s : State) (p : Nat) (f : Port → Port) : (State.modPort s p f).carried = s.carried := by simp [State.modPort]
@[simp] theorem State.modPath_carried (s : State) (p : Path) (f : PathState → PathState) : (State.modPath s p f).carried = s.carried := by
  simp [State.modPath]
@[simp] theorem State.modDie_carried (s : State) (c d : Nat) (f : Die → Die) : (State.modDie s c d f).carried = s.carried := by simp [State.modDie]
@[simp] theorem State.modChan_carried (s : State) (c : Nat) (f : Channel → Channel) : (State.modChan s c f).carried = s.carried := by
  simp [State.modChan]
@[simp] theorem State.modWr_carried (s : State) (f : WritePath → WritePath) : (State.modWr s f).carried = s.carried := by simp [State.modWr]
@[simp] theorem State.modFl_carried (s : State) (f : Flash → Flash) : (State.modFl s f).carried = s.carried := by simp [State.modFl]
@[simp] theorem State.modRings_carried (s : State) (f : Rings → Rings) : (State.modRings s f).carried = s.carried := by simp [State.modRings]
@[simp] theorem State.modCf_carried (s : State) (f : CodeFlash → CodeFlash) : (State.modCf s f).carried = s.carried := by simp [State.modCf]
@[simp] theorem State.modEv_carried (s : State) (f : Events → Events) : (State.modEv s f).carried = s.carried := by simp [State.modEv]
@[simp] theorem State.modNv_carried (s : State) (f : Nv → Nv) : (State.modNv s f).carried = s.carried := by simp [State.modNv]

/-! ### Packets, code-flash work, completions and events (Fabric.lean) -/

@[simp] theorem pumpOnce_carried (p : Nat) (s : State) : (pumpOnce p s).carried = s.carried := by simp [pumpOnce]
@[simp] theorem sendControlFlit_carried (p : Nat) (o : Port → Out) (s : State) : (sendControlFlit p o s).carried = s.carried := by
  simp [sendControlFlit]
@[simp] theorem pump_carried (p : Nat) (s : State) : (pump p s).carried = s.carried := by simp [pump]
@[simp] theorem sendPacket_carried (p : Nat) (k : Packet) (s : State) : (sendPacket p k s).carried = s.carried := by simp [sendPacket]
@[simp] theorem hostWrite_carried (op cls : Nat) (buf : Bool) (addr n v : Nat) (s : State) :
    (hostWrite op cls buf addr n v s).carried = s.carried := by
  simp [hostWrite]
@[simp] theorem cfNext_carried (s : State) : (cfNext s).carried = s.carried := by simp only [cfNext]; (repeat' split) <;> simp
@[simp] theorem cfPush_carried (opcode cls addr count sram : Nat) (data : List Word) (why : CfPurpose) (s : State) :
    (cfPush opcode cls addr count sram data why s).carried = s.carried := by
  simp [cfPush]
@[simp] theorem cfAppend_carried (a : Area) (cls : Nat) (ws : List Word) (why : CfPurpose) (s : State) :
    (cfAppend a cls ws why s).carried = s.carried := by
  simp [cfAppend]
@[simp] theorem cfSave_carried (k : SaveKind) (s : State) : (cfSave k s).carried = s.carried := by simp [cfSave]
@[simp] theorem sendNotice_carried (m : Nat) (s : State) : (sendNotice m s).carried = s.carried := by simp [sendNotice]
@[simp] theorem postEntry_carried (m : Nat) (c : Completion) (s : State) : (postEntry m c s).carried = s.carried := by simp [postEntry]
@[simp] theorem occurQuiet_carried (n arg : Nat) (s : State) : (occurQuiet n arg s).carried = s.carried := by simp [occurQuiet]
@[simp] theorem logThrottled_carried (s : State) : (logThrottled s).carried = s.carried := by simp [logThrottled]
@[simp] theorem logWrite_carried (n arg : Nat) (s : State) : (logWrite n arg s).carried = s.carried := by simp [logWrite]
@[simp] theorem logEvent_carried (n arg : Nat) (s : State) : (logEvent n arg s).carried = s.carried := by simp [logEvent]
@[simp] theorem occur_carried (n arg : Nat) (s : State) : (occur n arg s).carried = s.carried := by simp [occur]
@[simp] theorem digestChanged_carried (s : State) : (digestChanged s).carried = s.carried := by simp [digestChanged]
@[simp] theorem State.report_carried (s : State) (k v : Nat) : (State.report s k v).carried = s.carried := by simp [State.report]
@[simp] theorem changeMode_carried (m : Nat) (s : State) : (changeMode m s).carried = s.carried := by simp [changeMode]
@[simp] theorem deriveMode_carried (s : State) : (deriveMode s).carried = s.carried := by simp [deriveMode]
@[simp] theorem loseTest_carried (p : Path) (s : State) : (loseTest p s).carried = s.carried := by simp [loseTest]
@[simp] theorem startDump_carried (s : State) : (startDump s).carried = s.carried := by simp [startDump]
@[simp] theorem faultDump_carried (s : State) : (faultDump s).carried = s.carried := by simp [faultDump]
@[simp] theorem chEvent_carried (c k arg : Nat) (s : State) : (chEvent c k arg s).carried = s.carried := by simp [chEvent]
@[simp] theorem integrityError_carried (cls stage : Nat) (s : State) : (integrityError cls stage s).carried = s.carried := by simp [integrityError]
@[simp] theorem pepperChanged_carried (was : Bool) (s : State) : (pepperChanged was s).carried = s.carried := by simp [pepperChanged]
@[simp] theorem pepperDefaults_carried (ks : List Nat) (s : State) : (pepperDefaults ks s).carried = s.carried := by simp [pepperDefaults]
@[simp] theorem vidSet_carried (code : Nat) (s : State) : (vidSet code s).carried = s.carried := by simp [vidSet]
@[simp] theorem vidMove_carried (code : Nat) (s : State) : (vidMove code s).carried = s.carried := by simp [vidMove]
@[simp] theorem vidDue_carried (s : State) : (vidDue s).carried = s.carried := by unfold vidDue; split <;> simp

/-! ### DRAM (Dram.lean) -/

@[simp] theorem State.modDram_carried (s : State) (f : Dram → Dram) : (State.modDram s f).carried = s.carried := by simp [State.modDram]
@[simp] theorem State.modDsub_carried (s : State) (n : Nat) (f : DramSub → DramSub) : (State.modDsub s n f).carried = s.carried := by
  simp [State.modDsub]
@[simp] theorem State.modDrank_carried (s : State) (n r : Nat) (f : DramRank → DramRank) : (State.modDrank s n r f).carried = s.carried := by
  simp [State.modDrank]
@[simp] theorem fillDirectory_carried (set n : Nat) (s : State) : (fillDirectory set n s).carried = s.carried := by simp [fillDirectory]
@[simp] theorem dramAccess_carried (cls : Nat) (write : Bool) (first n : Nat) (src : DramSrc) (s : State) :
    (dramAccess cls write first n src s).carried = s.carried := by
  simp [dramAccess]
@[simp] theorem enterHeld_carried (n : Nat) (s : State) : (enterHeld n s).carried = s.carried := by simp [enterHeld]
@[simp] theorem countSpares_carried (s : State) : (countSpares s).carried = s.carried := by simp [countSpares]
@[simp] theorem writeMode_carried (sub r reg part : Nat) (contents : ModeContents) (s : State) :
    (writeMode sub r reg part contents s).carried = s.carried := by
  simp [writeMode]
@[simp] theorem setVrefDq_carried (sub : Nat) (code : Nat → ModeContents) (s : State) : (setVrefDq sub code s).carried = s.carried := by
  simp [setVrefDq]
@[simp] theorem restoreVrefDq_carried (sub : Nat) (s : State) : (restoreVrefDq sub s).carried = s.carried := by simp [restoreVrefDq]
@[simp] theorem stopHelper_carried (sub r : Nat) (s : State) : (stopHelper sub r s).carried = s.carried := by simp [stopHelper]
@[simp] theorem retire_carried (sub r cause : Nat) (s : State) : (retire sub r cause s).carried = s.carried := by simp [retire]
@[simp] theorem activate_carried (sub r bank row : Nat) (s : State) : (activate sub r bank row s).carried = s.carried := by simp [activate]
@[simp] theorem wakeRank_carried (sub k : Nat) (s : State) : (wakeRank sub k s).carried = s.carried := by simp [wakeRank]
@[simp] theorem columnCommand_carried (sub k op a : Nat) (s : State) : (columnCommand sub k op a s).carried = s.carried := by simp [columnCommand]
@[simp] theorem issueDram_carried (sub : Nat) (r : DramReq) (s : State) : (issueDram sub r s).carried = s.carried := by simp [issueDram]
@[simp] theorem startRecovery_carried (a : Nat) (s : State) : (startRecovery a s).carried = s.carried := by simp [startRecovery]
@[simp] theorem dramChecked_carried (sub r a : Nat) (c : BurstCheck) (s : State) : (dramChecked sub r a c s).carried = s.carried := by
  unfold dramChecked; split <;> simp
@[simp] theorem writeShadow_carried (j c : Nat) (s : State) : (writeShadow j c s).carried = s.carried := by simp [writeShadow]
@[simp] theorem raisePanic_carried (j c : Nat) (s : State) : (raisePanic j c s).carried = s.carried := by simp [raisePanic]
@[simp] theorem rankCommand_carried (sub : Nat) (c : RankCommand) (op addr : Nat) (s : State) :
    (rankCommand sub c op addr s).carried = s.carried := by
  simp [rankCommand]
@[simp] theorem idleRanks_carried (op : Nat) (f : DramRank → DramRank) (s : State) : (idleRanks op f s).carried = s.carried := by simp [idleRanks]
@[simp] theorem copyBankRow_carried (sub r m : Nat) (s : State) : (copyBankRow sub r m s).carried = s.carried := by simp [copyBankRow]
@[simp] theorem rankRetired_carried (sub r : Nat) (s : State) : (rankRetired sub r s).carried = s.carried := by simp [rankRetired]
@[simp] theorem retireRankEffect_carried (sub r : Nat) (s : State) : (retireRankEffect sub r s).carried = s.carried := by simp [retireRankEffect]
@[simp] theorem helperStartEffect_carried (s : State) : (helperStartEffect s).carried = s.carried := by simp [helperStartEffect]

/-! ### Rings (Rings.lean) -/

@[simp] theorem State.modOp_carried (s : State) (ring slot : Nat) (f : Op → Op) : (State.modOp s ring slot f).carried = s.carried := by
  unfold State.modOp; split <;> simp
@[simp] theorem State.modSeq_carried (s : State) (seq : Nat) (f : Op → Op) : (State.modSeq s seq f).carried = s.carried := by simp [State.modSeq]
@[simp] theorem State.dropOp_carried (s : State) (seq : Nat) : (State.dropOp s seq).carried = s.carried := by simp [State.dropOp]
@[simp] theorem postReserved_carried (ring seq : Nat) (c : Completion) (s : State) : (postReserved ring seq c s).carried = s.carried := by
  simp [postReserved]
@[simp] theorem postHeld_carried (s : State) : (postHeld s).carried = s.carried := by simp [postHeld]
@[simp] theorem finishOp_carried (o : Op) (status moved detail : Nat) (s : State) : (finishOp o status moved detail s).carried = s.carried := by
  simp [finishOp]
@[simp] theorem refuseOp_carried (o : Op) (s : State) : (refuseOp o s).carried = s.carried := by simp [refuseOp]
theorem pickRing_carried {s : State} {e : Nat × State} (h : pickRing s = some e) : e.2.carried = s.carried := by
  unfold pickRing at h
  extract_lets el ofClass last upd bg since mid l at h
  split at h
  · obtain ⟨n, -, rfl⟩ := Option.map_eq_some_iff.mp h; rfl
  · split at h
    · cases h; rfl
    · split at h
      · cases h; rfl
      · split at h
        · cases h; rfl
        · obtain ⟨n, -, rfl⟩ := Option.map_eq_some_iff.mp h; rfl
@[simp] theorem pickRefused_carried (n : Nat) (s : State) : (pickRefused n s).2.carried = s.carried := by unfold pickRefused; split <;> simp
@[simp] theorem fetchFrom_carried (n : Nat) (s : State) : (fetchFrom n s).carried = s.carried := by
  unfold fetchFrom
  extract_lets head d earlier barrier m awaits o t u r v
  have hv : v.carried = u.carried := by simp [v]
  have hu : u.carried = s.carried := by simp [u, t]
  split
  · rw [refuseOp_carried, hv, hu]
  · rw [hv, hu]
@[simp] theorem actSubDoorbell_carried (n v : Nat) (s : State) : (actSubDoorbell n v s).carried = s.carried := by simp [actSubDoorbell]
@[simp] theorem reserveForMigrations_carried (m : Nat) (s : State) : (reserveForMigrations m s).carried = s.carried := by simp [reserveForMigrations]
@[simp] theorem actHeadDoorbell_carried (m v : Nat) (s : State) : (actHeadDoorbell m v s).carried = s.carried := by simp [actHeadDoorbell]
@[simp] theorem doorbell_carried (head : Bool) (n v : Nat) (s : State) : (doorbell head n v s).carried = s.carried := by simp [doorbell]
@[simp] theorem releaseDoorbells_carried (s : State) : (releaseDoorbells s).carried = s.carried := by simp [releaseDoorbells]

/-! ### Stripes, dies and blocks (Layout.lean) -/

@[simp] theorem State.modHrec_carried (s : State) (i : Nat) (f : HRec → HRec) : (State.modHrec s i f).carried = s.carried := by simp [State.modHrec]
@[simp] theorem State.modRowBlock_carried (s : State) (set d b : Nat) (f : RowBlock → RowBlock) :
    (State.modRowBlock s set d b f).carried = s.carried := by
  simp [State.modRowBlock]
@[simp] theorem freeGens_carried (set : Nat) (s : State) : (freeGens set s).carried = s.carried := by simp [freeGens]
@[simp] theorem setNoted_carried (set : Nat) (s : State) : (setNoted set s).carried = s.carried := by simp [setNoted]
@[simp] theorem setChanged_carried (set : Nat) (s : State) : (setChanged set s).carried = s.carried := by simp [setChanged]
@[simp] theorem noteProtection_carried (set : Nat) (s : State) : (noteProtection set s).carried = s.carried := by simp [noteProtection]
@[simp] theorem updateProtection_carried (set : Nat) (s : State) : (updateProtection set s).carried = s.carried := by simp [updateProtection]
@[simp] theorem mapLookup_carried (set lui : Nat) (s : State) : (mapLookup set lui s).2.carried = s.carried := by
  simp only [mapLookup]; (repeat' split) <;> simp
@[simp] theorem countValid_carried (pma : Nat) (up : Bool) (s : State) : (countValid pma up s).carried = s.carried := by simp [countValid]
@[simp] theorem blockEmptied_carried (set pma : Nat) (s : State) : (blockEmptied set pma s).carried = s.carried := by simp [blockEmptied]
@[simp] theorem setEntry_carried (set lui new : Nat) (s : State) : (setEntry set lui new s).carried = s.carried := by
  simp only [setEntry]; (repeat' split) <;> simp
@[simp] theorem settle_carried (ticket : Nat) (s : State) : (settle ticket s).carried = s.carried := by simp [settle]
@[simp] theorem freeSlot_carried (k : Nat) (s : State) : (freeSlot k s).carried = s.carried := by simp [freeSlot]
@[simp] theorem pushProg_carried (c d : Nat) (j : DieJob) (s : State) : (pushProg c d j s).carried = s.carried := by simp [pushProg]
@[simp] theorem pushErase_carried (c d block planes : Nat) (set raw : Option (Nat × Nat)) (s : State) :
    (pushErase c d block planes set raw s).carried = s.carried := by
  simp [pushErase]
@[simp] theorem updateStalled_carried (set : Nat) (s : State) : (updateStalled set s).carried = s.carried := by unfold updateStalled; split <;> simp
@[simp] theorem slcPlace_carried (c : Nat) (s : State) : (slcPlace c s).2.carried = s.carried := by unfold slcPlace; split <;> simp
@[simp] theorem replaceSlc_carried (c : Nat) (j : SlcJob) (s : State) : (replaceSlc c j s).carried = s.carried := by unfold replaceSlc; split <;> simp
@[simp] theorem programJournalPage_carried (s : State) : (programJournalPage s).carried = s.carried := by simp [programJournalPage]
@[simp] theorem appendJournal_carried (r : JRec) (s : State) : (appendJournal r s).carried = s.carried := by simp [appendJournal]
@[simp] theorem journalCopyPassed_carried (first : Nat) (s : State) : (journalCopyPassed first s).carried = s.carried := by
  simp only [journalCopyPassed]; (repeat' split) <;> simp

/-! ### The dump (DumpSet.lean) -/

@[simp] theorem copyEntry_carried (e : VigilEntry) (s : State) : (copyEntry e s).carried = s.carried := by simp [copyEntry]
@[simp] theorem ledgerRoom_carried (n : Nat) (s : State) : (ledgerRoom n s).carried = s.carried := by simp only [ledgerRoom]; (repeat' split) <;> simp
@[simp] theorem ledgerAppend_carried (r : TearRec) (s : State) : (ledgerAppend r s).carried = s.carried := by simp [ledgerAppend]
@[simp] theorem designateDump_carried (s : State) : (designateDump s).carried = s.carried := by simp [designateDump]
@[simp] theorem armVigil_carried (s : State) : (armVigil s).carried = s.carried := by simp [armVigil]
@[simp] theorem replayPlaced_carried (s : State) : (replayPlaced s).carried = s.carried := by simp [replayPlaced]
@[simp] theorem supersede_carried (set lui : Nat) (s : State) : (supersede set lui s).carried = s.carried := by
  unfold supersede; (repeat' split) <;> simp

/-! ### Loss records (Loss.lean) -/

@[simp] theorem issueLoss_carried (r : LossRec) (s : State) : (issueLoss r s).carried = s.carried := by simp [issueLoss]
@[simp] theorem declareLoss_carried (rs : List LossRec) (s : State) : (declareLoss rs s).carried = s.carried := by simp [declareLoss]
@[simp] theorem erasureCount_carried (n : Nat) (s : State) : (erasureCount n s).2.carried = s.carried := by unfold erasureCount; split <;> simp
@[simp] theorem recordPosition_carried (cause : Nat) (x : Stripe) (f : Nat) (erased : List Nat) (ranges : List (Nat × Nat)) (s : State) :
    (recordPosition cause x f erased ranges s).carried = s.carried := by
  simp [recordPosition]
@[simp] theorem declareStripeLoss_carried (cause : Nat) (x : Stripe) (f : Nat) (erased : List Nat) (s : State) :
    (declareStripeLoss cause x f erased s).carried = s.carried := by
  simp [declareStripeLoss]
@[simp] theorem declareStagingLoss_carried (x : Stripe) (pos lui : Nat) (s : State) : (declareStagingLoss x pos lui s).carried = s.carried := by
  simp [declareStagingLoss]

/-! ### The write path (WritePath.lean) -/

@[simp] theorem takeHostSlots_carried (n : Nat) (s : State) : (takeHostSlots n s).2.carried = s.carried := by simp [takeHostSlots]
theorem takeBackSlot_carried {u : SUnit} {s : State} {e : Nat × State} (h : takeBackSlot u s = some e) : e.2.carried = s.carried := by
  unfold takeBackSlot at h
  split at h
  · cases h; simp
  · cases h
@[simp] theorem startHostReads_carried (ring slot addr n : Nat) (s : State) : (startHostReads ring slot addr n s).carried = s.carried := by
  simp [startHostReads]
@[simp] theorem State.modGather_carried (s : State) (ring slot : Nat) (f : Gather → Gather) :
    (State.modGather s ring slot f).carried = s.carried := by
  simp [State.modGather]
@[simp] theorem dropGather_carried (ring slot : Nat) (release : Bool) (s : State) : (dropGather ring slot release s).carried = s.carried := by
  unfold dropGather; split <;> simp
@[simp] theorem hostReadBad_carried (r : HostRead) (s : State) : (hostReadBad r s).carried = s.carried := by
  simp only [hostReadBad]; (repeat' split) <;> simp
@[simp] theorem rawDataIn_carried (ring slot : Nat) (s : State) : (rawDataIn ring slot s).carried = s.carried := by unfold rawDataIn; split <;> simp
@[simp] theorem takeHostData_carried (r : HostRead) (n v : Nat) (s : State) : (takeHostData r n v s).carried = s.carried := by simp [takeHostData]
@[simp] theorem finishReplay_carried (o : Op) (s : State) : (finishReplay o s).carried = s.carried := by simp [finishReplay]
@[simp] theorem joinAdmission_carried (o : Op) (s : State) : (joinAdmission o s).carried = s.carried := by simp [joinAdmission]
@[simp] theorem trimUnit_carried (set lui : Nat) (s : State) : (trimUnit set lui s).carried = s.carried := by simp [trimUnit]
@[simp] theorem takeUnits_carried (ring slot : Nat) (rest : List (Nat × Nat)) (o : Op) (s : State) :
    (takeUnits ring slot rest o s).carried = s.carried := by
  simp [takeUnits]
@[simp] theorem queueRead_carried (r : PageRead) (s : State) : (queueRead r s).carried = s.carried := by simp [queueRead]
@[simp] theorem freshRead_carried (owner : ReadOwner) (pma cls : Nat) (frames : List Nat) (header : Bool) (s : State) :
    (freshRead owner pma cls frames header s).carried = s.carried := by
  simp [freshRead]
@[simp] theorem commitUnit_carried (g : Gather) (first : Bool) (lui k : Nat) (frames : List Payload) (s : State) :
    (commitUnit g first lui k frames s).carried = s.carried := by
  simp [commitUnit]
@[simp] theorem startMerges_carried (g : Gather) (s : State) : (startMerges g s).carried = s.carried := by simp [startMerges]
@[simp] theorem acknowledge_carried (g : Gather) (o : Op) (s : State) : (acknowledge g o s).carried = s.carried := by simp [acknowledge]
@[simp] theorem substitute_carried (set d b : Nat) (cs : List Nat) (s : State) : (substitute set d b cs s).carried = s.carried := by
  unfold substitute
  exact State.over_carried (fun s c => by split <;> simp) _ _
theorem openRow_carried {set : Nat} {s t : State} (h : openRow set s = some t) : t.carried = s.carried := by
  simp only [openRow, Option.bind_eq_some_iff] at h
  obtain ⟨g, -, h⟩ := h
  split at h
  · cases h
  · obtain ⟨⟨d, b, w, fresh⟩, -, rfl⟩ := Option.map_eq_some_iff.mp h
    simp
@[simp] theorem State.modRow_carried (s : State) (set row : Nat) (f : Row → Row) : (State.modRow s set row f).carried = s.carried := by
  simp [State.modRow]
@[simp] theorem takeUnit_carried (pma k : Nat) (s : State) : (takeUnit pma k s).2.carried = s.carried := by unfold takeUnit; (repeat' split) <;> simp
@[simp] theorem releaseShadow_carried (shadow : Option Nat) (s : State) : (releaseShadow shadow s).carried = s.carried := by
  unfold releaseShadow; split <;> simp
theorem placeReturned_carried {u : SUnit} {shadow : Option Nat} {s t : State} (h : placeReturned u shadow s = some t) : t.carried = s.carried := by
  unfold placeReturned at h
  split at h
  · cases h; simp
  · split at h
    · cases h
    · obtain ⟨⟨k, x⟩, hk, rfl⟩ := Option.map_eq_some_iff.mp h
      simpa using takeBackSlot_carried hk
@[simp] theorem returnUnit_carried (u : SUnit) (shadow : Option Nat) (s : State) : (returnUnit u shadow s).carried = s.carried := by
  unfold returnUnit
  split
  · rename_i t ht
    split at ht
    · exact placeReturned_carried ht
    · cases ht
  · simp
@[simp] theorem sendPeer_carried (port typ tag status dest hops argument duo1 : Nat) (broadcast : Bool) (subtype : Nat) (s : State) :
    (sendPeer port typ tag status dest hops argument duo1 broadcast subtype s).carried = s.carried := by
  simp [sendPeer]
@[simp] theorem ackTransfer_carried (source port lui status : Nat) (s : State) : (ackTransfer source port lui status s).carried = s.carried := by
  simp [ackTransfer]
theorem commitTransfer_carried {x : XferUnit} {s t : State} (h : commitTransfer x s = some t) : t.carried = s.carried := by
  simp only [commitTransfer] at h
  split at h
  · cases h
  · split at h
    · cases h; simp
    · split at h
      · cases h
      · split at h
        · cases h; simp
        · split at h
          · cases h
          · rename_i k y hk
            split at hk
            · cases h; simpa using takeBackSlot_carried hk
            · cases hk
@[simp] theorem commitTransfers_carried (s : State) : (commitTransfers s).carried = s.carried := by
  unfold commitTransfers
  refine State.over_carried (fun s x => ?_) _ _
  split
  · rename_i t ht; simpa using commitTransfer_carried ht
  · rfl
@[simp] theorem stageBackground_carried (u : SUnit) (s : State) : (stageBackground u s).carried = s.carried := by
  unfold stageBackground
  split
  · split
    · rename_i k t ht; exact takeBackSlot_carried ht
    · simp
  · simp
@[simp] theorem commitPage_carried (pma : Nat) (pg : ProgPage) (s : State) : (commitPage pma pg s).carried = s.carried := by
  unfold commitPage; (repeat' split) <;> simp
@[simp] theorem pagePassed_carried (p : MemberProg) (t : Nat) (pg : ProgPage) (s : State) : (pagePassed p t pg s).carried = s.carried := by
  simp [pagePassed]
@[simp] theorem commitHeld_carried (s : State) : (commitHeld s).carried = s.carried := by simp [commitHeld]
@[simp] theorem markClosed_carried (set : Nat) (rb : RowBlock) (s : State) : (markClosed set rb s).carried = s.carried := by
  unfold markClosed; split <;> simp
@[simp] theorem memberEnded_carried (p : MemberProg) (s : State) : (memberEnded p s).carried = s.carried := by
  simp only [memberEnded]; (repeat' split) <;> simp
@[simp] theorem tagProgram_carried (c d k : Nat) (slc : Bool) (minute temp : Nat) (s : State) :
    (tagProgram c d k slc minute temp s).carried = s.carried := by
  simp [tagProgram]
@[simp] theorem writeMember_carried (p : MemberProg) (s : State) : (writeMember p s).carried = s.carried := by simp [writeMember]
@[simp] theorem parityPassed_carried (p : MemberProg) (s : State) : (parityPassed p s).carried = s.carried := by unfold parityPassed; split <;> simp
@[simp] theorem memberPassed_carried (p : MemberProg) (s : State) : (memberPassed p s).carried = s.carried := by simp [memberPassed]
@[simp] theorem retireBlock_carried (c d k : Nat) (s : State) : (retireBlock c d k s).carried = s.carried := by simp [retireBlock]
@[simp] theorem failMember_carried (p : MemberProg) (retire : Bool) (s : State) : (failMember p retire s).carried = s.carried := by
  simp only [failMember, memberEnded_carried]
  refine (State.over_carried (fun s pg => by (repeat' split) <;> simp) _ _).trans ?_
  split
  · split <;> simp
  · simp
@[simp] theorem issueParity_carried (set row : Nat) (s : State) : (issueParity set row s).carried = s.carried := by
  unfold issueParity; (repeat' split) <;> simp
@[simp] theorem dataInOver_carried (p : MemberProg) (s : State) : (dataInOver p s).carried = s.carried := by
  simp only [dataInOver]; (repeat' split) <;> simp
@[simp] theorem memberFailed_carried (p : MemberProg) (retire : Bool) (s : State) : (memberFailed p retire s).carried = s.carried := by
  simp [memberFailed]
@[simp] theorem losePage_carried (set row pos t : Nat) (pg : ProgPage) (s : State) : (losePage set row pos t pg s).2.carried = s.carried := by
  simp only [losePage]; (repeat' split) <;> simp
@[simp] theorem takePages_carried (r : Row) (c k pos : Nat) (units : List Nat) (parityBad : Option Nat) (s : State) :
    (takePages r c k pos units parityBad s).2.carried = s.carried := by
  unfold takePages
  extract_lets t
  simp [t, apply_ite Prod.snd]
@[simp] theorem takeMember_carried (r : Row) (g : GenRec) (ps units : List Nat) (parityBad : Option Nat) (s : State) :
    (takeMember r g ps units parityBad s).carried = s.carried := by
  simp [takeMember]
@[simp] theorem ensureRow_carried (set : Nat) (s : State) : (ensureRow set s).carried = s.carried := by
  unfold ensureRow
  split
  · rfl
  · split
    · rfl
    · split
      · rename_i t _ ht; exact openRow_carried ht
      · split
        · rfl
        · split <;> simp
      · rfl
@[simp] theorem fillRow_carried (take : Bool) (set row n : Nat) (parityBad : Option Nat) (s : State) :
    (fillRow take set row n parityBad s).carried = s.carried := by
  induction n generalizing parityBad s with
  | zero => rfl
  | succ n ih =>
    simp only [fillRow]
    split
    · split <;> simp [ih]
    · rfl
@[simp] theorem closeRow_carried (take : Bool) (parityBad : Option Nat) (set : Nat) (s : State) :
    (closeRow take parityBad set s).carried = s.carried := by
  unfold closeRow; split <;> simp
@[simp] theorem openNext_carried (set : Nat) (s : State) : (openNext set s).carried = s.carried := by simp [openNext]
@[simp] theorem closeEarly_carried (parityBad : Option Nat) (set : Nat) (s : State) : (closeEarly parityBad set s).carried = s.carried := by
  simp [closeEarly]

/-! ### Thresholds (Thresholds.lean) -/

@[simp] theorem emitProgram_carried (pma : Nat) (slc : Bool) (s : State) : (emitProgram pma slc s).carried = s.carried := by simp [emitProgram]
@[simp] theorem learnDie_carried (c d ones : Nat) (s : State) : (learnDie c d ones s).carried = s.carried := by simp [learnDie]
@[simp] theorem learnBlock_carried (pma : Nat) (move : Int) (s : State) : (learnBlock pma move s).carried = s.carried := by simp [learnBlock]

/-! ### Recovery (Recovery.lean) -/

@[simp] theorem eccDraw_carried (s : State) : (eccDraw s).2.carried = s.carried := by simp [eccDraw]
@[simp] theorem forceOutcomes_carried (x : Stripe) (cls : Nat) (members fs : List Nat) (os : List PageOutcome) (s : State) :
    (forceOutcomes x cls members fs os s).2.carried = s.carried := by
  simp only [forceOutcomes]
  exact foldl_snd_carried (fun a e => by simp) _ _
@[simp] theorem countLadder_carried (c step : Nat) (s : State) : (countLadder c step s).carried = s.carried := by simp [countLadder]
@[simp] theorem notePeak_carried (n : Nat) (s : State) : (notePeak n s).carried = s.carried := by simp [notePeak]
@[simp] theorem takeBuffers_carried (cls n : Nat) (s : State) : (takeBuffers cls n s).carried = s.carried := by simp [takeBuffers]
@[simp] theorem freeBuffers_carried (cls n : Nat) (s : State) : (freeBuffers cls n s).carried = s.carried := by simp [freeBuffers]
@[simp] theorem dropReads_carried (ring slot : Nat) (s : State) : (dropReads ring slot s).carried = s.carried := by simp [dropReads]
@[simp] theorem emitRead_carried (pma : Nat) (levels : List (Nat × Int)) (s : State) : (emitRead pma levels s).carried = s.carried := by
  simp [emitRead]
@[simp] theorem emitSoft_carried (pma : Nat) (base : List (Nat × Int)) (s : State) : (emitSoft pma base s).carried = s.carried := by simp [emitSoft]
@[simp] theorem readMember_carried (x : Stripe) (fs : List Nat) (os : List PageOutcome) (s : State) (pos : Nat) :
    (readMember x fs os s pos).carried = s.carried := by
  simp [readMember]

/-! ### The read path (ReadPath.lean) -/

@[simp] theorem endRead_carried (o : Op) (status moved detail : Nat) (s : State) : (endRead o status moved detail s).carried = s.carried := by
  simp [endRead]
@[simp] theorem finishRead_carried (ring slot : Nat) (s : State) : (finishRead ring slot s).carried = s.carried := by
  unfold finishRead; (repeat' split) <;> simp
@[simp] theorem stopIntegrity_carried (ring slot : Nat) (s : State) : (stopIntegrity ring slot s).carried = s.carried := by
  unfold stopIntegrity; split <;> simp
@[simp] theorem deliverBlock_carried (ring slot lba : Nat) (good : Option Block) (torn buf : Bool) (s : State) :
    (deliverBlock ring slot lba good torn buf s).carried = s.carried := by
  unfold deliverBlock; split <;> simp
@[simp] theorem deliverRaw_carried (ring slot f : Nat) (good : Option Nat) (torn buf : Bool) (s : State) :
    (deliverRaw ring slot f good torn buf s).carried = s.carried := by
  unfold deliverRaw; split <;> simp
@[simp] theorem deliverHeader_carried (ring slot : Nat) (h : PageHeader) (s : State) : (deliverHeader ring slot h s).carried = s.carried := by
  unfold deliverHeader; split <;> simp
@[simp] theorem noteLadder_carried (ring slot step : Nat) (degraded : Bool) (s : State) :
    (noteLadder ring slot step degraded s).carried = s.carried := by
  simp [noteLadder]
@[simp] theorem rescued_carried (j f : Nat) (good : Option Payload) (s : State) : (rescued j f good s).carried = s.carried := by
  unfold rescued; split <;> simp
@[simp] theorem resolveFrame_carried (owner : ReadOwner) (pma f : Nat) (good : Option Payload) (step : Nat) (degraded : Bool) (s : State) :
    (resolveFrame owner pma f good step degraded s).carried = s.carried := by
  simp only [resolveFrame]; (repeat' split) <;> simp
@[simp] theorem rawFrameFails_carried (ring slot f : Nat) (s : State) : (rawFrameFails ring slot f s).carried = s.carried := by simp [rawFrameFails]
@[simp] theorem awaitFetch_carried (o : Op) (src : Option DramSrc) (u : Nat) (s : State) : (awaitFetch o src u s).carried = s.carried := by
  simp [awaitFetch]
@[simp] theorem deliverStaged_carried (o : Op) (u : Nat) (unit : Option SUnit) (s : State) : (deliverStaged o u unit s).carried = s.carried := by
  simp [deliverStaged]
@[simp] theorem serveUnit_carried (o : Op) (u : Nat) (s : State) : (serveUnit o u s).carried = s.carried := by unfold serveUnit; split <;> simp
@[simp] theorem readUnit_carried (o : Op) (u : Nat) (s : State) : (readUnit o u s).carried = s.carried := by simp [readUnit]
@[simp] theorem resumeFetch_carried (s : State) (w : DramFetch) : (resumeFetch s w).carried = s.carried := by
  unfold resumeFetch; (repeat' split) <;> simp
@[simp] theorem fetched_carried (src : DramSrc) (s : State) : (fetched src s).carried = s.carried := by simp [fetched]
@[simp] theorem programEnded_carried (s : State) : (programEnded s).carried = s.carried := by simp [programEnded]
@[simp] theorem requeueRead_carried (id : Nat) (r : PageRead) (s : State) : (requeueRead id r s).carried = s.carried := by simp [requeueRead]
@[simp] theorem readAgain_carried (id : Nat) (r : PageRead) (step : Nat) (move : Int) (fs : List Nat) (s : State) :
    (readAgain id r step move fs s).carried = s.carried := by
  simp [readAgain]
@[simp] theorem climb_carried (id : Nat) (r : PageRead) (s : State) : (climb id r s).carried = s.carried := by simp [climb]
@[simp] theorem forceEcc_carried (r : PageRead) (f : Nat) (s : State) : (forceEcc r f s).2.carried = s.carried := by
  simp only [forceEcc]; (repeat' split) <;> simp
@[simp] theorem hardDecoded_carried (e : FrameRef) (r : PageRead) (ones : Nat) (pass : Bool) (s : State) :
    (hardDecoded e r ones pass s).carried = s.carried := by
  simp [hardDecoded]
@[simp] theorem softDecoded_carried (e : FrameRef) (r : PageRead) (pass : Bool) (s : State) : (softDecoded e r pass s).carried = s.carried := by
  simp only [softDecoded]; (repeat' split) <;> simp
@[simp] theorem reconstruct_carried (e : Recon) (outcomes : List PageOutcome) (s : State) : (reconstruct e outcomes s).carried = s.carried := by
  simp only [reconstruct]; (repeat' split) <;> simp

/-! ### Migrations (Migration.lean) -/

@[simp] theorem refreshRing_carried (n : Nat) (s : State) : (refreshRing n s).carried = s.carried := by simp [refreshRing]
@[simp] theorem unqueueOp_carried (ring slot : Nat) (s : State) : (unqueueOp ring slot s).carried = s.carried := by simp [unqueueOp]
@[simp] theorem startMigration_carried (n : Nat) (slot : Option Nat) (placement : Nat) (s : State) :
    (startMigration n slot placement s).carried = s.carried := by
  simp [startMigration]
@[simp] theorem withdrawPlacements_carried (hit : Nat → Bool) (s : State) : (withdrawPlacements hit s).carried = s.carried := by
  unfold withdrawPlacements
  exact State.over_carried (fun s n => by dsimp only; split <;> simp) _ _
@[simp] theorem reissue_carried (n : Nat) (aborted : Bool) (s : State) : (reissue n aborted s).carried = s.carried := by simp [reissue]
@[simp] theorem finishMigration_carried (g : Migration) (s : State) : (finishMigration g s).carried = s.carried := by
  simp only [finishMigration]; (repeat' split) <;> simp

/-! ### Mapping saves (Saves.lean) -/

@[simp] theorem releaseJournal_carried (s : State) : (releaseJournal s).carried = s.carried := by simp [releaseJournal]
@[simp] theorem programSavePage_carried (v : MapSave) (c : Nat) (s : State) : (programSavePage v c s).carried = s.carried := by simp [programSavePage]
@[simp] theorem issueSavePage_carried (s : State) : (issueSavePage s).carried = s.carried := by unfold issueSavePage; split <;> simp
@[simp] theorem startSave_carried (k : Nat) (s : State) : (startSave k s).carried = s.carried := by simp [startSave]
@[simp] theorem savePassed_carried (of : Nat × Nat) (s : State) : (savePassed of s).carried = s.carried := by unfold savePassed; split <;> simp

/-! ### Words of code flash (CfWords.lean) -/

@[simp] theorem otpPut_carried (w : Nat) (b : BitVec 26) (s : State) : (otpPut w b s).carried = s.carried := by simp [otpPut]
@[simp] theorem cfPut_carried (cfa : Nat) (b : BitVec 26) (s : State) : (cfPut cfa b s).carried = s.carried := by simp [cfPut]

/-! ### Calibration records (CalRecords.lean) -/

@[simp] theorem State.modCal_carried (s : State) (f : Cal → Cal) : (State.modCal s f).carried = s.carried := by simp [State.modCal]
@[simp] theorem calQueue_carried (i : Nat) (r : CalRec) (s : State) : (calQueue i r s).carried = s.carried := by
  unfold calQueue
  extract_lets base t u v
  have hu : u.carried = s.carried := (State.over_carried (fun s n => by split <;> simp) _ _).trans (by simp [t])
  have hv : v.carried = u.carried := by dsimp only [v]; split <;> simp
  simp [hv, hu]
@[simp] theorem calRewrite_carried (i : Nat) (r : CalRec) (isImport : Bool) (s : State) : (calRewrite i r isImport s).carried = s.carried := by
  simp [calRewrite]
@[simp] theorem calDurable_carried (i : Nat) (s : State) : (calDurable i s).carried = s.carried := by unfold calDurable; split <;> simp
@[simp] theorem calStore_carried (i : Nat) (c : CalSet) (s : State) : (calStore i c s).carried = s.carried := by simp [calStore]
@[simp] theorem calSelectEffect_carried (s : State) : (calSelectEffect s).carried = s.carried := by
  unfold calSelectEffect
  exact State.setBlob_carried ..
@[simp] theorem calImportEffect_carried (s : State) : (calImportEffect s).carried = s.carried := by unfold calImportEffect; split <;> simp
@[simp] theorem calStart_carried (i : Nat) (s : State) : (calStart i s).carried = s.carried := by simp [calStart]
@[simp] theorem calApply_carried (i : Nat) (ps : List Int) (kept : List Nat) (s : State) : (calApply i ps kept s).carried = s.carried := by
  simp [calApply]
@[simp] theorem applyRank_carried (sub r : Nat) (ps : List Int) (kept : List Nat) (s : State) : (applyRank sub r ps kept s).carried = s.carried := by
  simp [applyRank]
@[simp] theorem reapplyStored_carried (i : Nat) (s : State) : (reapplyStored i s).carried = s.carried := by unfold reapplyStored; split <;> simp

/-! ### The array of code flash (CfArray.lean) -/

@[simp] theorem cfProgramWords_carried (otp : Bool) (n a : Nat) (ws : List Word) (s : State) :
    (cfProgramWords otp n a ws s).2.carried = s.carried := by
  induction n generalizing a ws s with
  | zero => rfl
  | succ n ih =>
    cases ws with
    | nil => rfl
    | cons w ws =>
      unfold cfProgramWords
      by_cases h : (if otp then s.otpRaw a else s.cfRaw a) ≠ cfErased
      · simp only [if_pos h]
      · simp only [if_neg h, ih]; split <;> simp
@[simp] theorem cfCutWord_carried (otp : Bool) (a : Nat) (w : Word) (left : BitVec 26) (s : State) :
    (cfCutWord otp a w left s).carried = s.carried := by
  simp [cfCutWord]
@[simp] theorem cfEraseDone_carried (n hint : Nat) (s : State) : (cfEraseDone n hint s).carried = s.carried := by simp [cfEraseDone]
@[simp] theorem cfEraseCut_carried (n : Nat) (gone : BitVec 26) (s : State) : (cfEraseCut n gone s).carried = s.carried := by simp [cfEraseCut]
@[simp] theorem cfEnd_carried (d : CfDesc) (o : CfOutcome) (s : State) : (cfEnd d o s).2.2.carried = s.carried := by
  simp only [cfEnd]; (repeat' split) <;> simp
@[simp] theorem imageWritten_carried (s : State) : (imageWritten s).carried = s.carried := by simp [imageWritten]
@[simp] theorem cfSaved_carried (k : SaveKind) (s : State) : (cfSaved k s).carried = s.carried := by unfold cfSaved; split <;> simp
@[simp] theorem tearDurable_carried (r : TearRec) (s : State) : (tearDurable r s).carried = s.carried := by unfold tearDurable; split <;> simp
@[simp] theorem cfDurable_carried (d : CfDesc) (s : State) : (cfDurable d s).carried = s.carried := by unfold cfDurable; (repeat' split) <;> simp
@[simp] theorem cfCut_carried (s : State) : (cfCut s).carried = s.carried := by unfold cfCut; split <;> simp

/-! ### The way to Cold (Cold.lean) -/

@[simp] theorem pageUndefined_carried (pma : Nat) (slc : Bool) (s : State) : (pageUndefined pma slc s).carried = s.carried := by simp [pageUndefined]
@[simp] theorem eraseCut_carried (c d block planes : Nat) (s : State) : (eraseCut c d block planes s).carried = s.carried := by simp [eraseCut]
@[simp] theorem cutJob_carried (c d : Nat) (j : DieJob) (s : State) : (cutJob c d j s).carried = s.carried := by unfold cutJob; split <;> simp
@[simp] theorem restoreRetained_carried (s : State) : (restoreRetained s).carried = s.carried := by simp [restoreRetained]
@[simp] theorem State.modPw_carried (s : State) (f : Power → Power) : (State.modPw s f).carried = s.carried := by simp [State.modPw]
@[simp] theorem lowerGroup_carried (s : State) : (lowerGroup s).carried = s.carried := by simp [lowerGroup]
@[simp] theorem lowerRails_carried (s : State) : (lowerRails s).carried = s.carried := by simp [lowerRails]
@[simp] theorem lowerNext_carried (s : State) : (lowerNext s).carried = s.carried := by unfold lowerNext; split <;> simp
@[simp] theorem railsOff_carried (s : State) : (railsOff s).carried = s.carried := by simp [railsOff]

/-! ### The Vigil sequence (VigilSeq.lean) -/

@[simp] theorem State.modVigil_carried (s : State) (f : Vigil → Vigil) : (State.modVigil s f).carried = s.carried := by simp [State.modVigil]
@[simp] theorem State.modDump_carried (s : State) (f : Dump → Dump) : (State.modDump s f).carried = s.carried := by simp [State.modDump]
@[simp] theorem pushDump_carried (pma : Nat) (item : DumpItem) (s : State) : (pushDump pma item s).carried = s.carried := by simp [pushDump]
@[simp] theorem dumpExtra_carried (e : SUnit × Option Nat) (s : State) : (dumpExtra e s).carried = s.carried := by unfold dumpExtra; split <;> simp
@[simp] theorem dumpCopies_carried (n : Nat) (item : DumpItem) (s : State) : (dumpCopies n item s).carried = s.carried := by
  unfold dumpCopies
  exact State.over_carried (fun s x => by split <;> simp) _ _
@[simp] theorem dumpTail_carried (first last n : Nat) (s : State) : (dumpTail first last n s).carried = s.carried := by
  induction n generalizing first s with
  | zero => rfl
  | succ n ih =>
    simp only [dumpTail]
    split
    · rfl
    · simp [ih]
@[simp] theorem dumpPassed_carried (item : DumpItem) (s : State) : (dumpPassed item s).carried = s.carried := by unfold dumpPassed; split <;> simp
@[simp] theorem queueMark_carried (k : Nat) (s : State) : (queueMark k s).carried = s.carried := by unfold queueMark; split <;> simp
@[simp] theorem vigilFreeze_carried (s : State) : (vigilFreeze s).carried = s.carried := by unfold vigilFreeze; split <;> simp
@[simp] theorem vigilUnits_carried (s : State) : (vigilUnits s).carried = s.carried := by
  unfold vigilUnits
  split
  · rfl
  · extract_lets t staged u
    have hu : u.carried = t.carried := State.over_carried (fun s k => by split <;> simp) _ _
    split <;> simp [hu, t]
@[simp] theorem vigilOutcome_carried (s : State) : (vigilOutcome s).carried = s.carried := by unfold vigilOutcome; split <;> simp
@[simp] theorem vigilResult_carried (c d result : Nat) (s : State) : (vigilResult c d result s).carried = s.carried := by simp [vigilResult]
@[simp] theorem dumpAgain_carried (item : DumpItem) (s : State) : (dumpAgain item s).carried = s.carried := by unfold dumpAgain; split <;> simp

/-! ### Channels (Channels.lean) -/

@[simp] theorem noteLoss_carried (c d : Nat) (s : State) : (noteLoss c d s).carried = s.carried := by simp [noteLoss]
@[simp] theorem dieLost_carried (c d cause : Nat) (s : State) : (dieLost c d cause s).carried = s.carried := by simp [dieLost]
@[simp] theorem lineLost_carried (c line cause : Nat) (s : State) : (lineLost c line cause s).carried = s.carried := by simp [lineLost]
@[simp] theorem driversOff_carried (c : Nat) (s : State) : (driversOff c s).carried = s.carried := by simp [driversOff]
@[simp] theorem isolate_carried (c cause : Nat) (s : State) : (isolate c cause s).carried = s.carried := by simp [isolate]
@[simp] theorem startTraining_carried (c : Nat) (s : State) : (startTraining c s).carried = s.carried := by simp [startTraining]
@[simp] theorem tear_carried (r : TearRec) (s : State) : (tear r s).carried = s.carried := by simp [tear]
@[simp] theorem updateThrottle_carried (c : Nat) (s : State) : (updateThrottle c s).carried = s.carried := by simp [updateThrottle]
@[simp] theorem recalibrateEffect_carried (c : Nat) (s : State) : (recalibrateEffect c s).carried = s.carried := by simp [recalibrateEffect]
@[simp] theorem adminIsolateEffect_carried (c : Nat) (s : State) : (adminIsolateEffect c s).carried = s.carried := by simp [adminIsolateEffect]
@[simp] theorem issueReads_carried (c d : Nat) (es : List (Nat × PageRead)) (s : State) : (issueReads c d es s).carried = s.carried := by
  unfold issueReads
  extract_lets ids bg s₁ s₂
  have h₂ : s₂.carried = s₁.carried := by
    refine State.over_carried (fun s e => ?_) _ _
    extract_lets l t e' u
    have ht : t.carried = s.carried := by dsimp only [t]; split <;> simp
    simp [u, ht]
  simp [h₂, s₁]
@[simp] theorem panicCheck_carried (c : Nat) (s : State) : (panicCheck c s).carried = s.carried := by unfold panicCheck; split <;> simp
@[simp] theorem pushXfer_carried (c d : Nat) (read : Option Nat) (cls : Nat) (s : State) : (pushXfer c d read cls s).carried = s.carried := by
  simp [pushXfer]
@[simp] theorem startArray_carried (c d : Nat) (s : State) : (startArray c d s).carried = s.carried := by simp [startArray]
@[simp] theorem issueJob_carried (c d : Nat) (j : DieJob) (s : State) : (issueJob c d j s).carried = s.carried := by
  unfold issueJob
  split
  extract_lets j t
  have ht : t.carried = s.carried := by simp [t]
  clear_value t j
  split <;> simp [ht]
@[simp] theorem trackGate_carried (c : Nat) (side : Option Bool) (s : State) : (trackGate c side s).carried = s.carried := by simp [trackGate]
@[simp] theorem readTransferred_carried (c d id : Nat) (s : State) : (readTransferred c d id s).carried = s.carried := by simp [readTransferred]
@[simp] theorem pageArrived.ladderArrive_carried (c id : Nat) (r : PageRead) (s : State) :
    (pageArrived.ladderArrive c id r s).carried = s.carried := by
  simp [pageArrived.ladderArrive]
@[simp] theorem pageArrived_carried (c id : Nat) (r : PageRead) (s : State) : (pageArrived c id r s).carried = s.carried := by
  unfold pageArrived
  extract_lets r
  split
  · extract_lets d3 t u v w x
    have ht : t.carried = s.carried := by dsimp only [t]; split <;> simp
    have hx : x.carried = w.carried := State.over_carried (fun s f => by simp) _ _
    split
    · simp [hx, w, v, u, ht]
    · simp [ht]
  · simp
@[simp] theorem misFramed_carried (c : Nat) (x : Xfer) (id code : Nat) (dqsOpen : Bool) (s : State) :
    (misFramed c x id code dqsOpen s).carried = s.carried := by
  simp only [misFramed]; (repeat' split) <;> simp
@[simp] theorem noteMisframed_carried (c : Nat) (l : List Xfer) (s : State) : (noteMisframed c l s).carried = s.carried := by
  unfold noteMisframed
  exact State.over_carried (fun s x => by split <;> simp) _ _
@[simp] theorem grantRead_carried (c : Nat) (x : Xfer) (id : Nat) (framing : Framing) (parityBad : Option FabricStage) (s : State) :
    (grantRead c x id framing parityBad s).carried = s.carried := by
  simp only [grantRead]; (repeat' split) <;> simp
@[simp] theorem stagingLoss_carried (p : MemberProg) (t : Nat) (s : State) : (stagingLoss p t s).2.carried = s.carried := by
  unfold stagingLoss; split <;> simp
@[simp] theorem rescueUnit_carried (pma j : Nat) (s : State) : (rescueUnit pma j s).carried = s.carried := by simp [rescueUnit]
@[simp] theorem programFailed_carried (p : MemberProg) (retire : Bool) (s : State) : (programFailed p retire s).carried = s.carried := by
  unfold programFailed
  extract_lets others bad go t
  split
  · simp [t]
  · rw [memberFailed_carried]
    exact foldl_snd_carried (fun a i => by (repeat' split) <;> simp) _ _
@[simp] theorem grantMember_carried (c d : Nat) (p : MemberProg) (s : State) : (grantMember c d p s).carried = s.carried := by
  unfold grantMember; (repeat' split) <;> simp
@[simp] theorem grantMemberBad_carried (c d : Nat) (p : MemberProg) (b : FabricStage) (s : State) :
    (grantMemberBad c d p b s).carried = s.carried := by
  unfold grantMemberBad; split <;> simp
@[simp] theorem grantDataIn_carried (c : Nat) (x : Xfer) (parityBad : Option FabricStage) (s : State) :
    (grantDataIn c x parityBad s).carried = s.carried := by
  unfold grantDataIn; (repeat' split) <;> simp
@[simp] theorem countPrograms_carried (c d n : Nat) (s : State) : (countPrograms c d n s).carried = s.carried := by simp [countPrograms]
@[simp] theorem countErases_carried (c d n : Nat) (s : State) : (countErases c d n s).carried = s.carried := by simp [countErases]
@[simp] theorem blockFailed_carried (c d block : Nat) (s : State) : (blockFailed c d block s).carried = s.carried := by simp [blockFailed]
@[simp] theorem eraseDieBlock_carried (c d k : Nat) (s : State) : (eraseDieBlock c d k s).carried = s.carried := by simp [eraseDieBlock]
@[simp] theorem erasePlanes_carried (c d block planes : Nat) (s : State) : (erasePlanes c d block planes s).carried = s.carried := by
  simp [erasePlanes]
@[simp] theorem freeSubstitutes_carried (set d b : Nat) (s : State) : (freeSubstitutes set d b s).carried = s.carried := by simp [freeSubstitutes]
@[simp] theorem rowBlockErased_carried (set d b : Nat) (s : State) : (rowBlockErased set d b s).carried = s.carried := by
  unfold rowBlockErased; split <;> simp
@[simp] theorem dieBlockErased_carried (c d k : Nat) (s : State) : (dieBlockErased c d k s).carried = s.carried := by simp [dieBlockErased]
@[simp] theorem eraseEnded_carried (c d : Nat) (e : EraseJob) (passed : Bool) (s : State) : (eraseEnded c d e passed s).carried = s.carried := by
  simp only [eraseEnded]; (repeat' split) <;> simp
@[simp] theorem readsEnded_carried (c d : Nat) (ids : List Nat) (s : State) : (readsEnded c d ids s).carried = s.carried := by
  unfold readsEnded
  exact (State.over_carried (fun s i => by split <;> simp) _ _).trans (by simp)
@[simp] theorem slcPassed_carried (c d : Nat) (j : SlcJob) (s : State) : (slcPassed c d j s).carried = s.carried := by
  unfold slcPassed; (repeat' split) <;> simp
@[simp] theorem slcAgain_carried (c d : Nat) (j : SlcJob) (s : State) : (slcAgain c d j s).carried = s.carried := by simp [slcAgain]
@[simp] theorem slcFailed_carried (c d : Nat) (j : SlcJob) (s : State) : (slcFailed c d j s).carried = s.carried := by simp [slcFailed]
@[simp] theorem vigilFailed_carried (c d : Nat) (j : DieJob) (s : State) : (vigilFailed c d j s).carried = s.carried := by
  unfold vigilFailed; split <;> simp
@[simp] theorem vigilTimedOut_carried (c d : Nat) (j : DieJob) (s : State) : (vigilTimedOut c d j s).carried = s.carried := by
  unfold vigilTimedOut; split <;> simp
@[simp] theorem rawReadTimedOut_carried (ring slot : Nat) (s : State) : (rawReadTimedOut ring slot s).carried = s.carried := by
  unfold rawReadTimedOut; split <;> simp
@[simp] theorem opTimedOut_carried (c d : Nat) (j : DieJob) (s : State) : (opTimedOut c d j s).carried = s.carried := by
  unfold opTimedOut
  split
  · exact State.over_carried (fun s i => by (repeat' split) <;> simp) _ _
  · simp
  · simp
  · split
    · split <;> simp
    · dsimp only; split <;> simp
  · dsimp only; split <;> simp
  · rfl
@[simp] theorem stretched_carried (c d : Nat) (j : DieJob) (s : State) : (stretched c d j s).2.carried = s.carried := by
  simp only [stretched]; (repeat' split) <;> simp

/-! ### Redundancy (Redundancy.lean) -/

@[simp] theorem setCapacity_carried (set : Nat) (g : GenRec) (s : State) : (setCapacity set g s).carried = s.carried := by simp [setCapacity]
@[simp] theorem takeCapacity_carried (set : Nat) (s : State) : (takeCapacity set s).carried = s.carried := by unfold takeCapacity; split <;> simp
@[simp] theorem updateLost_carried (set : Nat) (s : State) : (updateLost set s).carried = s.carried := by simp [updateLost]
@[simp] theorem newGeneration_carried (set : Nat) (channels : List Nat) (s : State) : (newGeneration set channels s).carried = s.carried := by
  simp [newGeneration]
@[simp] theorem setActivity_carried (set v : Nat) (s : State) : (setActivity set v s).carried = s.carried := by simp [setActivity]
@[simp] theorem showWalk_carried (set : Nat) (w : Walk) (s : State) : (showWalk set w s).carried = s.carried := by simp [showWalk]
@[simp] theorem checkpoint_carried (set : Nat) (w : Walk) (s : State) : (checkpoint set w s).carried = s.carried := by simp [checkpoint]
@[simp] theorem startWalk_carried (set kind : Nat) (newChannels : List Nat) (s : State) : (startWalk set kind newChannels s).carried = s.carried := by
  unfold startWalk; split <;> simp
@[simp] theorem blockWalk_carried (set reason : Nat) (s : State) : (blockWalk set reason s).carried = s.carried := by simp [blockWalk]
@[simp] theorem cutWalk_carried (set : Nat) (s : State) : (cutWalk set s).carried = s.carried := by simp only [cutWalk]; (repeat' split) <;> simp
@[simp] theorem relocateFrame_carried (x : Stripe) (pos : Nat) (os : List PageOutcome) (s : State) (f : Nat) :
    (relocateFrame x pos os s f).2.carried = s.carried := by
  simp only [relocateFrame]; (repeat' split) <;> simp
@[simp] theorem relocateUnit_carried (origin : Origin) (x : Stripe) (pos : Nat) (os : List PageOutcome) (s : State) :
    (relocateUnit origin x pos os s).carried = s.carried := by
  unfold relocateUnit
  extract_lets pma
  split
  · rfl
  · rename_i set lui hunit
    extract_lets move t
    have ht : t.carried = s.carried := by simp [t]
    split
    · exact ht
    · simp [ht]
@[simp] theorem relocateStripe_carried (origin : Origin) (x : Stripe) (os : List PageOutcome) (s : State) :
    (relocateStripe origin x os s).carried = s.carried := by
  simp [relocateStripe]
@[simp] theorem makeRoom_carried (set : Nat) (s : State) : (makeRoom set s).carried = s.carried := by unfold makeRoom; (repeat' split) <;> simp
@[simp] theorem releaseWalked_carried (set : Nat) (s : State) : (releaseWalked set s).carried = s.carried := by unfold releaseWalked; split <;> simp
@[simp] theorem leaveSet_carried (isolatedStays : Bool) (c : Nat) (s : State) : (leaveSet isolatedStays c s).carried = s.carried := by simp [leaveSet]
@[simp] theorem endWalk_carried (set : Nat) (w : Walk) (s : State) : (endWalk set w s).carried = s.carried := by simp [endWalk]
@[simp] theorem degradeReads_carried (lost : Nat → Bool) (s : State) : (degradeReads lost s).carried = s.carried := by simp [degradeReads]
@[simp] theorem clearDie_carried (c d : Nat) (s : State) : (clearDie c d s).carried = s.carried := by
  unfold clearDie
  extract_lets x jobs stays cur s₁ s₂ s₃
  have h₁ : s₁.carried = s.carried := by dsimp only [s₁]; split <;> simp
  exact (State.over_carried (fun s j => by (repeat' split) <;> simp) _ _).trans (by simp [s₃, s₂, h₁])
@[simp] theorem flagOldest_carried (set : Nat) (s : State) : (flagOldest set s).carried = s.carried := by
  unfold flagOldest
  exact State.over_carried (fun s r => by dsimp only; split <;> simp) _ _
@[simp] theorem recordsFull_carried (set : Nat) (channels : List Nat) (follow : Nat) (s : State) :
    (recordsFull set channels follow s).carried = s.carried := by
  simp [recordsFull]
@[simp] theorem nextGeneration_carried (set : Nat) (channels : List Nat) (follow : Nat) (s : State) :
    (nextGeneration set channels follow s).carried = s.carried := by
  simp [nextGeneration]
@[simp] theorem chooseWalk_carried (set : Nat) (s : State) : (chooseWalk set s).carried = s.carried := by
  simp only [chooseWalk]; (repeat' split) <;> simp
@[simp] theorem startScan_carried (set : Nat) (s : State) : (startScan set s).carried = s.carried := by simp [startScan]
@[simp] theorem takeLosses_carried (set : Nat) (lost : List (Nat × Nat)) (s : State) : (takeLosses set lost s).carried = s.carried := by
  simp only [takeLosses]; (repeat' split) <;> simp
@[simp] theorem rebuildStartEffect_carried (set : Nat) (s : State) : (rebuildStartEffect set s).carried = s.carried := by simp [rebuildStartEffect]
@[simp] theorem joinBlocks_carried (c : Nat) (s : State) : (joinBlocks c s).carried = s.carried := by simp [joinBlocks]
@[simp] theorem seatMembers_carried (set : Nat) (l : List Nat) (s : State) : (seatMembers set l s).carried = s.carried := by simp [seatMembers]
@[simp] theorem dissolve_carried (set : Nat) (s : State) : (dissolve set s).carried = s.carried := by simp [dissolve]
@[simp] theorem beginGeneration_carried (set : Nat) (l : List Nat) (follow : Nat) (s : State) :
    (beginGeneration set l follow s).carried = s.carried := by
  simp [beginGeneration]
@[simp] theorem planCommitEffect_carried (s : State) : (planCommitEffect s).carried = s.carried := by simp [planCommitEffect]
@[simp] theorem retireCommitEffect_carried (s : State) : (retireCommitEffect s).carried = s.carried := by simp [retireCommitEffect]
@[simp] theorem lossAckEffect_carried (v : Nat) (s : State) : (lossAckEffect v s).carried = s.carried := by simp [lossAckEffect]
@[simp] theorem logicalUnitsEffect_carried (set v : Nat) (s : State) : (logicalUnitsEffect set v s).carried = s.carried := by
  simp only [logicalUnitsEffect]; (repeat' split) <;> simp

/-! ### Media management (Media.lean) -/

@[simp] theorem updateHealth_carried (s : State) : (updateHealth s).carried = s.carried := by simp [updateHealth]
@[simp] theorem calendsNowEffect_carried (v : Nat) (s : State) : (calendsNowEffect v s).carried = s.carried := by simp [calendsNowEffect]
@[simp] theorem overMembers_carried (rb : RowBlock) (g : GenRec) (f : HRec → HRec) (s : State) : (overMembers rb g f s).carried = s.carried := by
  simp [overMembers]
@[simp] theorem eraseRowBlock_carried (rb : RowBlock) (g : GenRec) (s : State) : (eraseRowBlock rb g s).carried = s.carried := by simp [eraseRowBlock]
@[simp] theorem flagRefresh_carried (rb : RowBlock) (g : GenRec) (s : State) : (flagRefresh rb g s).carried = s.carried := by simp [flagRefresh]
@[simp] theorem checkAges_carried (set : Nat) (s : State) : (checkAges set s).carried = s.carried := by
  unfold checkAges
  exact State.over_carried (fun s rb => by split <;> simp) _ _
@[simp] theorem showScrub_carried (s : State) : (showScrub s).carried = s.carried := by simp [showScrub]
@[simp] theorem scrubStripe_carried (set row : Nat) (x : Stripe) (outcomes : List PageOutcome) (s : State) :
    (scrubStripe set row x outcomes s).carried = s.carried := by
  simp [scrubStripe]

/-! ### Aborts (Abort.lean) -/

@[simp] theorem abortOp_carried (o : Op) (s : State) : (abortOp o s).carried = s.carried := by simp [abortOp]
@[simp] theorem drainRing_carried (n fuel : Nat) (a : Nat × State) : (drainRing n fuel a).2.carried = a.2.carried := by
  induction fuel generalizing a with
  | zero => rfl
  | succ fuel ih =>
    simp only [drainRing]
    split
    · rfl
    · simp [ih]
@[simp] theorem abortDrain_carried (i : Nat) (s : State) : (abortDrain i s).carried = s.carried := by
  unfold abortDrain
  split
  · rfl
  · exact State.over_carried (fun s e => by simp [drainRing_carried]) _ _
@[simp] theorem abortRingNow_carried (n : Nat) (s : State) : (abortRingNow n s).2.carried = s.carried := by simp [abortRingNow]
@[simp] theorem abortJob_carried (c d : Nat) (j : DieJob) (started : Bool) (s : State) : (abortJob c d j started s).carried = s.carried := by
  simp only [abortJob]; (repeat' split) <;> simp
@[simp] theorem abortChannelNow_carried (c : Nat) (s : State) : (abortChannelNow c s).2.carried = s.carried := by
  simp only [abortChannelNow]
  refine (State.over_carried (fun s e => ?_) _ _).trans ((State.over_carried (fun s e => ?_) _ _).trans
    ((State.over_carried (fun s o => by split <;> simp) _ _).trans (by simp)))
  · split <;> simp
  · split
    · simp
    · simp
    · split <;> simp
    · simp
@[simp] theorem startAbort_carried (scope target : Nat) (op : Option (Nat × Nat)) (s : State) :
    (startAbort scope target op s).carried = s.carried := by
  unfold startAbort
  extract_lets rings chans cf i t u
  have hu : u.carried = s.carried := by dsimp only [u]; split <;> simp [t]
  simp [hu]
@[simp] theorem abortDescriptor_carried (ring slot scope : Nat) (s : State) : (abortDescriptor ring slot scope s).carried = s.carried := by
  unfold abortDescriptor; split <;> simp
@[simp] theorem abortRingEffect_carried (n : Nat) (s : State) : (abortRingEffect n s).carried = s.carried := by simp [abortRingEffect]
@[simp] theorem endAbort_carried (i : Nat) (a : Abort) (s : State) : (endAbort i a s).carried = s.carried := by
  simp only [endAbort]; (repeat' split) <;> simp

/-! ### The link (Link.lean) -/

@[simp] theorem sendAck_carried (p : Nat) (s : State) : (sendAck p s).carried = s.carried := by simp [sendAck]
@[simp] theorem nakDue_carried (p : Nat) (s : State) : (nakDue p s).carried = s.carried := by simp [nakDue]
@[simp] theorem linkLosesTest_carried (p : Nat) (s : State) : (linkLosesTest p s).carried = s.carried := by simp [linkLosesTest]
@[simp] theorem realign_carried (p : Nat) (s : State) : (realign p s).carried = s.carried := by simp [realign]
@[simp] theorem startRetrain_carried (p trigger : Nat) (s : State) : (startRetrain p trigger s).carried = s.carried := by simp [startRetrain]
@[simp] theorem urvanResetOps_carried (s : State) : (urvanResetOps s).carried = s.carried := by
  unfold urvanResetOps
  extract_lets crossing reads moved reading sending t u v w
  have hv : v.carried = u.carried := State.over_carried (fun s o => by split <;> simp) _ _
  have hw : w.carried = v.carried := State.over_carried (fun s e => by split <;> simp) _ _
  simp [hw, hv, u, t]
@[simp] theorem startLinkReset_carried (p trigger : Nat) (full host : Bool) (s : State) :
    (startLinkReset p trigger full host s).carried = s.carried := by
  simp [startLinkReset]
@[simp] theorem linkUp_carried (p : Nat) (s : State) : (linkUp p s).carried = s.carried := by simp [linkUp]
@[simp] theorem ranksBack_carried (k : Nat) (s : State) : (ranksBack k s).carried = s.carried := by simp [ranksBack]
@[simp] theorem portBack_carried (k p : Nat) (woke : Bool) (s : State) : (portBack k p woke s).carried = s.carried := by
  unfold portBack; split <;> simp
@[simp] theorem readWakeImage_carried (s : State) : (readWakeImage s).carried = s.carried := by simp [readWakeImage]
@[simp] theorem exitPower_carried (cause by_ : Nat) (s : State) : (exitPower cause by_ s).carried = s.carried := by simp [exitPower]
@[simp] theorem holdPower_carried (held : Bool) (s : State) : (holdPower held s).carried = s.carried := by simp [holdPower]
@[simp] theorem releaseFlits_carried (p ackSeq : Nat) (s : State) : (releaseFlits p ackSeq s).carried = s.carried := by simp [releaseFlits]
@[simp] theorem replayAll_carried (p : Nat) (s : State) : (replayAll p s).carried = s.carried := by
  unfold replayAll
  extract_lets pt fs t u v
  split
  · rfl
  · rw [State.when_carried, startRetrain_carried, ite_self]
    have hv : v.carried = u.carried := by simp [v]
    have hu : u.carried = t.carried := by rw [State.add_carried, State.add_carried]
    rw [hv, hu, State.modPort_carried]
@[simp] theorem crcError_carried (p : Nat) (s : State) : (crcError p s).carried = s.carried := by simp [crcError]
@[simp] theorem forceCrc_carried (p : Nat) (s : State) : (forceCrc p s).2.carried = s.carried := by simp only [forceCrc]; (repeat' split) <;> simp
@[simp] theorem takeControl_carried (p : Nat) (ctl : FlitCtl) (s : State) : (takeControl p ctl s).carried = s.carried := by simp [takeControl]
@[simp] theorem rxFlit_carried (p : Nat) (ctl : FlitCtl) (body : BitVec 1920) (kind : Nat) {act : State → State} (h : ∀ s,
    (act s).carried = s.carried) (s : State) :
    (rxFlit p ctl body kind act s).carried = s.carried := by
  simp [rxFlit, h]
@[simp] theorem takeBeat_carried (p : Nat) (b : Beat) (s : State) : (takeBeat p b s).carried = s.carried := by simp [takeBeat]
@[simp] theorem beatParity_carried (p : Nat) (s : State) : (beatParity p s).carried = s.carried := by unfold beatParity; split <;> simp
@[simp] theorem trainingFails_carried (p step : Nat) (s : State) : (trainingFails p step s).carried = s.carried := by simp [trainingFails]
@[simp] theorem paramTooSmall_carried (p : Nat) (s : State) : (paramTooSmall p s).carried = s.carried := by simp [paramTooSmall]
@[simp] theorem sendParam_carried (p : Nat) (reset : Bool) (s : State) : (sendParam p reset s).carried = s.carried := by simp [sendParam]
@[simp] theorem reportFailed_carried (p : Nat) (all news : List (Nat × Nat)) (s : State) : (reportFailed p all news s).carried = s.carried := by
  simp [reportFailed]
@[simp] theorem reportOrder_carried (p k : Nat) (lanes : List LaneResult) (s : State) : (reportOrder p k lanes s).carried = s.carried := by
  simp [reportOrder]
@[simp] theorem reportEyes_carried (p k : Nat) (lanes : List LaneResult) (storedFigures : Bool) (failed : List (Nat × Nat)) (width : Nat)
    (s : State) :
    (reportEyes p k lanes storedFigures failed width s).carried = s.carried := by
  unfold reportEyes
  extract_lets rev eyes at_ use low t u
  have ht : t.carried = s.carried := State.over_carried (fun s j => by split <;> simp) _ _
  simp [u, ht]
@[simp] theorem endTraining_carried (p w src : Nat) (keep : Option CalSet) (r : PortResult) (s : State) :
    (endTraining p w src keep r s).carried = s.carried := by
  unfold endTraining; (repeat' split) <;> simp
@[simp] theorem trainLanes_carried (p : Nat) (r : PortResult) (s : State) : (trainLanes p r s).carried = s.carried := by
  simp only [trainLanes]; (repeat' split) <;> simp
@[simp] theorem fullTraining_carried (p : Nat) (r : PortResult) (s : State) : (fullTraining p r s).carried = s.carried := by
  unfold fullTraining; split <;> simp
@[simp] theorem retrainEffect_carried (p : Nat) (s : State) : (retrainEffect p s).carried = s.carried := by simp [retrainEffect]
@[simp] theorem fullTrainEffect_carried (p : Nat) (s : State) : (fullTrainEffect p s).carried = s.carried := by simp [fullTrainEffect]
@[simp] theorem linkResetEffect_carried (p : Nat) (s : State) : (linkResetEffect p s).carried = s.carried := by simp [linkResetEffect]
@[simp] theorem forceRealignEffect_carried (s : State) : (forceRealignEffect s).carried = s.carried := by simp [forceRealignEffect]
@[simp] theorem portFigures_carried (p : Nat) (s : State) : (portFigures p s).carried = s.carried := by simp [portFigures]

/-! ### Entry to Vigil (Vigil.lean) -/

@[simp] theorem cancelProgram_carried (p : MemberProg) (s : State) : (cancelProgram p s).carried = s.carried := by
  unfold cancelProgram
  refine State.over_carried (fun s pg => ?_) _ _
  split
  · simp
  · rfl
@[simp] theorem vigilReset_carried (c d : Nat) (j : DieJob) (s : State) : (vigilReset c d j s).carried = s.carried := by
  unfold vigilReset
  extract_lets t u v
  have hu : u.carried = s.carried := by dsimp only [u]; split <;> simp [t]
  simp [v, hu]
@[simp] theorem vigilDie_carried (c d : Nat) (keepA : Bool) (s : State) : (vigilDie c d keepA s).carried = s.carried := by
  unfold vigilDie
  extract_lets x isA t u drop run
  have ht : t.carried = s.carried := State.over_carried (fun s e => by split <;> simp) _ _
  have hu : u.carried = s.carried := by simp [u, ht]
  split <;> simp [drop, run, hu]
@[simp] theorem wakeCore_carried (k : Nat) (railLost : Bool) (s : State) : (wakeCore k railLost s).carried = s.carried := by simp [wakeCore]

/-! ### Code flash (CodeFlash.lean) -/

@[simp] theorem halfAppend_carried (h : Nat) (ws : List Word) (why : CfPurpose) (s : State) : (halfAppend h ws why s).carried = s.carried := by
  simp [halfAppend]
@[simp] theorem startCompaction_carried (s : State) : (startCompaction s).carried = s.carried := by simp [startCompaction]
@[simp] theorem compactionDone_carried (s : State) : (compactionDone s).carried = s.carried := by simp [compactionDone]
@[simp] theorem retainWrite_carried (key value : Nat) (s : State) : (retainWrite key value s).carried = s.carried := by simp [retainWrite]
@[simp] theorem updateOp_carried (step pos : Nat) (s : State) : (updateOp step pos s).carried = s.carried := by unfold updateOp; split <;> simp
@[simp] theorem updateCommitEffect_carried (s : State) : (updateCommitEffect s).carried = s.carried := by simp [updateCommitEffect]
@[simp] theorem updateStops_carried (s : State) : (updateStops s).carried = s.carried := by simp [updateStops]
@[simp] theorem updateAdvance_carried (step pos : Nat) (s : State) : (updateAdvance step pos s).carried = s.carried := by
  unfold updateAdvance; split <;> simp
@[simp] theorem protectStandbyEffect_carried (s : State) : (protectStandbyEffect s).carried = s.carried := by simp [protectStandbyEffect]
@[simp] theorem cfReadEffect_carried (s : State) : (cfReadEffect s).carried = s.carried := by simp [cfReadEffect]
@[simp] theorem cfReadDone_carried (d : CfDesc) (s : State) : (cfReadDone d s).carried = s.carried := by simp [cfReadDone]
@[simp] theorem dumpRequestEffect_carried (s : State) : (dumpRequestEffect s).carried = s.carried := by simp [dumpRequestEffect]
@[simp] theorem dumpReleaseEffect_carried (s : State) : (dumpReleaseEffect s).carried = s.carried := by simp [dumpReleaseEffect]
@[simp] theorem dumpAdvance_carried (pos : Nat) (s : State) : (dumpAdvance pos s).carried = s.carried := by simp [dumpAdvance]
@[simp] theorem burnKeyWord_carried (slot k : Nat) (s : State) : (burnKeyWord slot k s).carried = s.carried := by simp [burnKeyWord]
@[simp] theorem keyBurnEffect_carried (s : State) : (keyBurnEffect s).carried = s.carried := by unfold keyBurnEffect; split <;> simp
@[simp] theorem burnMark_carried (target : Nat) (s : State) : (burnMark target s).carried = s.carried := by unfold burnMark; (repeat' split) <;> simp
@[simp] theorem raiseEffect_carried (k : Nat) (s : State) : (raiseEffect k s).carried = s.carried := by simp [raiseEffect]
@[simp] theorem calAgain_carried (d : CfDesc) (s : State) : (calAgain d s).carried = s.carried := by simp [calAgain]
@[simp] theorem calDrop_carried (sector : Nat) (s : State) : (calDrop sector s).carried = s.carried := by simp [calDrop]
@[simp] theorem cfAhead_carried (d : CfDesc) {f : State → State} (h : ∀ s, (f s).carried = s.carried) (s : State) :
    (cfAhead d f s).carried = s.carried := by
  simp [cfAhead, h]
@[simp] theorem halfAgain_carried (d : CfDesc) (ws : List Word) (fresh : Bool) (s : State) : (halfAgain d ws fresh s).carried = s.carried := by
  unfold halfAgain
  extract_lets h base compacts cut next mine moved t u
  split
  · simp
  · exact (cfAhead_carried d (fun s => by simp) u).trans (by simp [u, t])
@[simp] theorem cfAgain_carried (d : CfDesc) (ws : List Word) (fresh : Bool) (s : State) : (cfAgain d ws fresh s).carried = s.carried := by
  simp only [cfAgain]; (repeat' split) <;> simp
@[simp] theorem cfAborted.burnRemap_carried (sector spare : Nat) (s : State) : (cfAborted.burnRemap sector spare s).carried = s.carried := by
  unfold cfAborted.burnRemap; split <;> simp
@[simp] theorem cfAborted_carried (d : CfDesc) (done : Nat) (s : State) : (cfAborted d done s).carried = s.carried := by
  unfold cfAborted; (repeat' split) <;> simp
@[simp] theorem denyS5_carried (s : State) : (denyS5 s).carried = s.carried := by simp [denyS5]
@[simp] theorem cfFailed_carried (d : CfDesc) (done : Nat) (s : State) : (cfFailed d done s).carried = s.carried := by
  simp only [cfFailed]; (repeat' split) <;> simp [cfAhead_carried]
@[simp] theorem wakeRead_carried (s : State) : (wakeRead s).carried = s.carried := by simp [wakeRead]
@[simp] theorem cfDone_carried (d : CfDesc) (s : State) : (cfDone d s).carried = s.carried := by unfold cfDone; split <;> simp
@[simp] theorem takeChunk_carried (first kib n : Nat) (s : State) : (takeChunk first kib n s).carried = s.carried := by simp [takeChunk]

/-! ### Training (Training.lean) -/

@[simp] theorem dieMissing_carried (c d cause : Nat) (s : State) : (dieMissing c d cause s).carried = s.carried := by simp [dieMissing]
@[simp] theorem admittedState_carried (c d : Nat) (s : State) : (admittedState c d s).carried = s.carried := by simp [admittedState]
@[simp] theorem refuseHigher_carried (c : Nat) (s : State) : (refuseHigher c s).carried = s.carried := by simp [refuseHigher]
@[simp] theorem admitDies_carried (c : Nat) (r : ChannelResult) (shortCe openCe : Nat) (s : State) :
    (admitDies c r shortCe openCe s).carried = s.carried := by
  unfold admitDies
  extract_lets found density s₁ mixed s₂ taken s₃ listed s₄ s₅ s₆ s₇
  have h₂ : s₂.carried = s₁.carried := State.over_carried (fun s e => by simp) _ _
  have h₇ : s₇.carried = s₆.carried := State.over_carried (fun s d => by simp) _ _
  simp [h₇, s₆, s₅, s₄, s₃, h₂, s₁]
@[simp] theorem toTargets_carried (c op : Nat) (ts : List Nat) (s : State) : (toTargets c op ts s).carried = s.carried := by simp [toTargets]
@[simp] theorem chanFigures_carried (c : Nat) (e : EyeFigures) (s : State) : (chanFigures c e s).carried = s.carried := by simp [chanFigures]
@[simp] theorem chanFails_carried (c before : Nat) (s : State) : (chanFails c before s).carried = s.carried := by simp [chanFails]
@[simp] theorem chanPassed_carried (c before : Nat) (s : State) : (chanPassed c before s).carried = s.carried := by simp [chanPassed]
@[simp] theorem trainingCommands_carried (c : Nat) (s : State) : (trainingCommands c s).carried = s.carried := by simp [trainingCommands]
@[simp] theorem chanSettings_carried (c before : Nat) (r : ChannelResult) (stored : Option CalSet) (s : State) :
    (chanSettings c before r stored s).carried = s.carried := by
  simp only [chanSettings]; (repeat' split) <;> simp
@[simp] theorem pinFault_carried (c before cause : Nat) (s : State) : (pinFault c before cause s).carried = s.carried := by simp [pinFault]
@[simp] theorem settleDensity_carried (c : Nat) (s : State) : (settleDensity c s).carried = s.carried := by
  unfold settleDensity
  split
  · rfl
  · extract_lets t
    split
    · simp [t]
    · exact (State.over_carried (fun s k => by split <;> simp) _ _).trans (by simp [t])
@[simp] theorem trainChannel_carried (c : Nat) (r : ChannelResult) (s : State) : (trainChannel c r s).carried = s.carried := by simp [trainChannel]
@[simp] theorem trainStep_carried (sub r : Nat) (runs : List (List (Option Int))) (x : Nat × List Nat × (Nat → Nat)) (s : State) :
    (trainStep sub r runs x s).carried = s.carried := by
  simp [trainStep]
@[simp] theorem startRank_carried (sub r : Nat) (runs : List (List (Option Int))) (stuck : Option Nat) (s : State) :
    (startRank sub r runs stuck s).carried = s.carried := by
  simp [startRank]
@[simp] theorem trainRank_carried (sub r : Nat) (x : RankResult) (s : State) : (trainRank sub r x s).2.carried = s.carried := by
  simp only [trainRank]; (repeat' split) <;> simp
@[simp] theorem seatRanks_carried (sub : Nat) (ends : List RankEnd) (s : State) : (seatRanks sub ends s).2.carried = s.carried := by simp [seatRanks]
@[simp] theorem trainDram_carried (rs : List RankResult) (s : State) : (trainDram rs s).2.carried = s.carried := by
  simp [trainDram]
@[simp] theorem startSurvey_carried (s : State) : (startSurvey s).carried = s.carried := by simp [startSurvey]
@[simp] theorem surveyRead_carried (pma : Nat) (s : State) : (surveyRead pma s).carried = s.carried := by simp [surveyRead]

/-! ### Restore (Restore.lean) -/

@[simp] theorem seatLayout_carried (set : Nat) (g : GenRec) (s : State) : (seatLayout set g s).carried = s.carried := by simp [seatLayout]
@[simp] theorem restoreSet_carried (set : Nat) (gens : List GenRec) (s : State) : (restoreSet set gens s).carried = s.carried := by
  simp only [restoreSet]; (repeat' split) <;> simp
@[simp] theorem restorePart1_carried (s : State) : (restorePart1 s).carried = s.carried := by simp [restorePart1]
@[simp] theorem restoreTear_carried (r : TearRec) (s : State) : (restoreTear r s).carried = s.carried := by simp [restoreTear]
@[simp] theorem restorePart2_carried (s : State) : (restorePart2 s).carried = s.carried := by simp [restorePart2]
@[simp] theorem restoreRowBlock_carried (i : Nat) (s : State) : (restoreRowBlock i s).carried = s.carried := by
  simp only [restoreRowBlock]; (repeat' split) <;> simp
@[simp] theorem restoreRows_carried (rb : RowBlock) (s : State) : (restoreRows rb s).carried = s.carried := by unfold restoreRows; split <;> simp
@[simp] theorem restoreTag_carried (i : Nat) (s : State) : (restoreTag i s).carried = s.carried := by simp only [restoreTag]; (repeat' split) <;> simp
@[simp] theorem restorePart3_carried (s : State) : (restorePart3 s).carried = s.carried := by
  unfold restorePart3
  extract_lets blocks t u v dies dump inRows
  refine (State.over_carried (fun s i => ?_) _ _).trans (by simp [v, u, t])
  split
  · rfl
  · split
    · simp
    · split
      · simp
      · split <;> simp
@[simp] theorem restoreStaged_carried (k : Nat) (seq : Option Nat) (s : State) : (restoreStaged k seq s).carried = s.carried := by
  simp only [restoreStaged]; (repeat' split) <;> simp
@[simp] theorem restoreMapping_carried (s : State) : (restoreMapping s).carried = s.carried := by
  unfold restoreMapping
  extract_lets j start stop used t₁ dev tags row last
  split
  extract_lets m t₂ t₃ t₄ t₅ t₆
  have h₅ : t₅.carried = t₄.carried := State.over_carried (fun s e => by split <;> simp) _ _
  have h₆ : t₆.carried = t₅.carried := State.over_carried (fun s e => by split <;> simp) _ _
  have h : t₆.carried = s.carried := by simp [h₆, h₅, t₄, t₃, t₂, t₁]
  split <;> simp [h]
@[simp] theorem restoreWalk_carried (set : Nat) (s : State) : (restoreWalk set s).carried = s.carried := by unfold restoreWalk; split <;> simp
@[simp] theorem restoreEnd_carried (set : Nat) (s : State) : (restoreEnd set s).carried = s.carried := by
  simp only [restoreEnd]; (repeat' split) <;> simp
@[simp] theorem restore_carried (s : State) : (restore s).carried = s.carried := by simp [restore]
@[simp] theorem releaseEmptyDump_carried (s : State) : (releaseEmptyDump s).carried = s.carried := by unfold releaseEmptyDump; split <;> simp

/-! ### Start-up (Bringup.lean) -/

@[simp] theorem strapObjects_carried (s : State) : (strapObjects s).carried = s.carried := by simp [strapObjects]
@[simp] theorem ownRings_carried (s : State) : (ownRings s).carried = s.carried := by simp [ownRings]
@[simp] theorem countCold_carried (s : State) : (countCold s).carried = s.carried := by simp [countCold]
@[simp] theorem tryStep1_carried (s : State) : (tryStep1 s).carried = s.carried := by simp [tryStep1]
@[simp] theorem flushHeld_carried (n : Nat) (s : State) : (flushHeld n s).carried = s.carried := by
  induction n generalizing s with
  | zero => rfl
  | succ n ih =>
    simp only [flushHeld]
    split
    · rfl
    · split
      · simp [ih]
      · rfl
@[simp] theorem protectRange_carried (first n : Nat) (s : State) : (protectRange first n s).carried = s.carried := by simp [protectRange]
@[simp] theorem startRails_carried (s : State) : (startRails s).carried = s.carried := by simp [startRails]
@[simp] theorem startPortTraining_carried (p : Nat) (s : State) : (startPortTraining p s).carried = s.carried := by simp [startPortTraining]
@[simp] theorem startCharging_carried (s : State) : (startCharging s).carried = s.carried := by simp [startCharging]
@[simp] theorem bootImage_carried (slot : Nat) (s : State) : (bootImage slot s).carried = s.carried := by
  unfold bootImage
  extract_lets first img t₁ t₂ t₃ t₄ t₅ t₆ t₇ t₈ t₉ t₀
  have h₄ : t₄.carried = s.carried := by simp [t₁, t₂, t₃, t₄]
  have h₇ : t₇.carried = t₄.carried := by simp [t₅, t₆, t₇]
  have h₀ : t₀.carried = t₇.carried := by simp [t₈, t₉, t₀]
  simp [h₀, h₇, h₄]
@[simp] theorem bringupTick_carried (s : State) : (bringupTick s).carried = s.carried := by unfold bringupTick; (repeat' split) <;> simp
@[simp] theorem railGone_carried (k : Nat) (s : State) : (railGone k s).carried = s.carried := by simp [railGone]
@[simp] theorem railStartFault_carried (k : Nat) (s : State) : (railStartFault k s).carried = s.carried := by simp [railStartFault]
@[simp] theorem startInterfaces_carried (s : State) : (startInterfaces s).carried = s.carried := by simp [startInterfaces]
@[simp] theorem loadCalibration_carried (s : State) : (loadCalibration s).carried = s.carried := by simp [loadCalibration]
@[simp] theorem trainingAdvance_carried (s : State) : (trainingAdvance s).carried = s.carried := by simp [trainingAdvance]
@[simp] theorem enterServing_carried (s : State) : (enterServing s).carried = s.carried := by simp [enterServing]

/-! ### Measurement (Measure.lean) -/

@[simp] theorem State.modMon_carried (s : State) (f : Monitor → Monitor) : (State.modMon s f).carried = s.carried := by simp [State.modMon]
@[simp] theorem reportBank_carried (s : State) : (reportBank s).carried = s.carried := by simp [reportBank]
@[simp] theorem bankLimits_carried (s : State) : (bankLimits s).carried = s.carried := by simp [bankLimits]
@[simp] theorem bankScan_carried (s : State) : (bankScan s).carried = s.carried := by simp [bankScan]
@[simp] theorem restoreCharger_carried (s : State) : (restoreCharger s).carried = s.carried := by simp [restoreCharger]
@[simp] theorem startTest_carried (s : State) : (startTest s).carried = s.carried := by simp [startTest]
@[simp] theorem finishTest_carried (v0 v1 : Nat) (s : State) : (finishTest v0 v1 s).carried = s.carried := by simp [finishTest]
@[simp] theorem bankConverted_carried (good ovr : Bool) (code : Int) (s : State) : (bankConverted good ovr code s).carried = s.carried := by
  simp only [bankConverted]; (repeat' split) <;> simp
@[simp] theorem markFaulty_carried (i channel : Nat) (s : State) : (markFaulty i channel s).carried = s.carried := by simp [markFaulty]
@[simp] theorem clearFaulty_carried (i : Nat) (s : State) : (clearFaulty i s).carried = s.carried := by simp [clearFaulty]
@[simp] theorem checkInput_carried (i : Nat) (bad good : Bool) (s : State) : (checkInput i bad good s).carried = s.carried := by simp [checkInput]
@[simp] theorem checkPinMonitor_carried (c : Nat) (value peak : Int) (s : State) : (checkPinMonitor c value peak s).carried = s.carried := by
  simp [checkPinMonitor]
@[simp] theorem holdupTestStartEffect_carried (s : State) : (holdupTestStartEffect s).carried = s.carried := by simp [holdupTestStartEffect]

/-! ### The board group (Group.lean) -/

@[simp] theorem State.modGrp_carried (s : State) (f : Group → Group) : (State.modGrp s f).carried = s.carried := by simp [State.modGrp]
@[simp] theorem setRoster_carried (k at_ width v : Nat) (s : State) : (setRoster k at_ width v s).carried = s.carried := by simp [setRoster]
@[simp] theorem portAwake_carried (p : Nat) (s : State) : (portAwake p s).carried = s.carried := by simp [portAwake]
@[simp] theorem wakeNeighbour_carried (p : Nat) (s : State) : (wakeNeighbour p s).carried = s.carried := by simp [wakeNeighbour]
@[simp] theorem sendControl_carried (subtype dest argument duo1 : Nat) (s : State) :
    (sendControl subtype dest argument duo1 s).carried = s.carried := by
  simp [sendControl]
@[simp] theorem broadcastTo_carried (want : Nat → Bool) (mk : Nat → Nat → PeerPacket) (s : State) : (broadcastTo want mk s).carried = s.carried := by
  simp [broadcastTo]
@[simp] theorem broadcastPacket_carried (mk : Nat → Nat → PeerPacket) (s : State) : (broadcastPacket mk s).carried = s.carried := by
  simp [broadcastPacket]
@[simp] theorem broadcastControl_carried (subtype argument : Nat) (s : State) : (broadcastControl subtype argument s).carried = s.carried := by
  simp [broadcastControl]
@[simp] theorem groupChanged_carried (mask : Nat) (s : State) : (groupChanged mask s).carried = s.carried := by simp [groupChanged]
@[simp] theorem rosterChanged_carried (s : State) : (rosterChanged s).carried = s.carried := by simp [rosterChanged]
@[simp] theorem forwardPacket_carried (out : Nat) (k : PeerPacket) (s : State) : (forwardPacket out k s).carried = s.carried := by
  simp [forwardPacket]
@[simp] theorem arrivalWake_carried (s : State) : (arrivalWake s).carried = s.carried := by simp [arrivalWake]
@[simp] theorem heardFrom_carried (h : PeerHdr) (s : State) : (heardFrom h s).carried = s.carried := by simp [heardFrom]
@[simp] theorem peerArrive_carried (port : Nat) (h : PeerHdr) (typ subtype : Nat) (ws : List Word) (frame : Payload) {take : State → State}
    (hk : ∀ s, (take s).carried = s.carried) (s : State) : (peerArrive port h typ subtype ws frame take s).carried = s.carried := by
  simp [peerArrive, hk]
@[simp] theorem controlArrive_carried (port : Nat) (h : PeerHdr) (subtype : Nat) {take : State → State} (hk : ∀ s, (take s).carried = s.carried)
    (s : State) : (controlArrive port h subtype take s).carried = s.carried :=
  peerArrive_carried port h 0x13 subtype [] 0 hk s
@[simp] theorem armBarrier_carried (s : State) : (armBarrier s).carried = s.carried := by simp [armBarrier]
@[simp] theorem releaseEqx_carried (s : State) : (releaseEqx s).carried = s.carried := by simp [releaseEqx]
@[simp] theorem releaseHold_carried (s : State) : (releaseHold s).carried = s.carried := by simp [releaseHold]
@[simp] theorem abandonSnapshot_carried (s : State) : (abandonSnapshot s).carried = s.carried := by simp [abandonSnapshot]
@[simp] theorem arriveEffect_carried (v : Nat) (s : State) : (arriveEffect v s).carried = s.carried := by simp [arriveEffect]
@[simp] theorem startAllEffect_carried (v : Nat) (s : State) : (startAllEffect v s).carried = s.carried := by simp [startAllEffect]
@[simp] theorem takeArriveAll_carried (h : PeerHdr) (s : State) : (takeArriveAll h s).carried = s.carried := by simp [takeArriveAll]
@[simp] theorem completeBarrier_carried (n : Nat) (s : State) : (completeBarrier n s).carried = s.carried := by simp [completeBarrier]
@[simp] theorem nextBarrier_carried (s : State) : (nextBarrier s).carried = s.carried := by simp [nextBarrier]
@[simp] theorem takeSnapshotGather_carried (h : PeerHdr) (s : State) : (takeSnapshotGather h s).carried = s.carried := by simp [takeSnapshotGather]
@[simp] theorem takeSnapshotReport_carried (h : PeerHdr) (s : State) : (takeSnapshotReport h s).carried = s.carried := by simp [takeSnapshotReport]
@[simp] theorem transferStartEffect_carried (s : State) : (transferStartEffect s).carried = s.carried := by simp [transferStartEffect]
@[simp] theorem stopTransfer_carried (s : State) : (stopTransfer s).carried = s.carried := by simp [stopTransfer]
@[simp] theorem transferStopEffect_carried (s : State) : (transferStopEffect s).carried = s.carried := by simp [transferStopEffect]
@[simp] theorem transferFrame_carried (x : Stripe) (pos : Nat) (os : List PageOutcome) (s : State) (f : Nat) :
    (transferFrame x pos os s f).2.carried = s.carried := by
  simp only [transferFrame]; (repeat' split) <;> simp
@[simp] theorem transferReads_carried (x : Stripe) (pos : Nat) (os : List PageOutcome) (s : State) :
    (transferReads x pos os s).carried = s.carried := by
  simp [transferReads]
@[simp] theorem transferRead_carried (set lui : Nat) (os : List PageOutcome) (s : State) : (transferRead set lui os s).2.carried = s.carried := by
  unfold transferRead
  split
  · rfl
  · rfl
  · rfl
  · split
    · simp
    · split
      · rfl
      · simp
@[simp] theorem sendUnit_carried (i : Nat) (unit : Option (List (Option Payload))) (s : State) : (sendUnit i unit s).carried = s.carried := by
  unfold sendUnit
  split
  · simp
  · exact (State.over_carried (fun s e => by split <;> simp) _ _).trans (by simp)
@[simp] theorem takeTransferData_carried (port : Fin 3) (h : PeerHdr) (frame : Payload) (s : State) :
    (takeTransferData port h frame s).carried = s.carried := by
  simp [takeTransferData]
@[simp] theorem takeTransferAck_carried (h : PeerHdr) (s : State) : (takeTransferAck h s).carried = s.carried := by
  unfold takeTransferAck; split <;> simp
@[simp] theorem prepareReset_carried (s : State) : (prepareReset s).carried = s.carried := by
  unfold prepareReset
  exact (State.over_carried (fun s e => by split <;> simp) _ _).trans (by simp)
@[simp] theorem resumeReset_carried (s : State) : (resumeReset s).carried = s.carried := by simp [resumeReset]
@[simp] theorem sendReset_carried (immediate : Bool) (s : State) : (sendReset immediate s).carried = s.carried := by simp [sendReset]
@[simp] theorem checkDrained_carried (s : State) : (checkDrained s).carried = s.carried := by simp [checkDrained]
@[simp] theorem orderlyResetEffect_carried (s : State) : (orderlyResetEffect s).carried = s.carried := by simp [orderlyResetEffect]
@[simp] theorem immediateResetEffect_carried (s : State) : (immediateResetEffect s).carried = s.carried := by simp [immediateResetEffect]
@[simp] theorem takeResetPrepare_carried (s : State) : (takeResetPrepare s).carried = s.carried := by simp [takeResetPrepare]
@[simp] theorem takeDrained_carried (h : PeerHdr) (s : State) : (takeDrained h s).carried = s.carried := by simp [takeDrained]
@[simp] theorem takeDiscover_carried (port : Fin 3) (h : PeerHdr) (s : State) : (takeDiscover port h s).carried = s.carried := by simp [takeDiscover]
@[simp] theorem takeJoinRequest_carried (port : Fin 3) (h : PeerHdr) (s : State) : (takeJoinRequest port h s).carried = s.carried := by
  unfold takeJoinRequest
  extract_lets a serving d
  split
  · rfl
  · split
    · rfl
    · extract_lets placed heard formed counted granted members
      have hheard : heard.carried = s.carried := rfl
      have hformed : formed.carried = heard.carried := by
        dsimp only [formed]
        split
        · rfl
        · rw [armBarrier_carried, State.set_carried]
      have hgranted : granted.carried = formed.carried := (sendPeer_carried ..).trans (State.inc20_carried ..)
      rw [groupChanged_carried, broadcastControl_carried, State.set_carried, hgranted, hformed, hheard]
@[simp] theorem takeGrant_carried (n barrier gen : Nat) (s : State) : (takeGrant n barrier gen s).carried = s.carried := by simp [takeGrant]
@[simp] theorem dropMembers_carried (mask : Nat) (s : State) : (dropMembers mask s).carried = s.carried := by simp [dropMembers]
@[simp] theorem takeRoster_carried (h : PeerHdr) (s : State) : (takeRoster h s).carried = s.carried := by simp [takeRoster]
@[simp] theorem takeHeartbeat_carried (s : State) : (takeHeartbeat s).carried = s.carried := by simp [takeHeartbeat]
@[simp] theorem takeStatus_carried (h : PeerHdr) (s : State) : (takeStatus h s).carried = s.carried := by simp [takeStatus]
@[simp] theorem memberGone_carried (k state : Nat) (s : State) : (memberGone k state s).carried = s.carried := by simp [memberGone]
@[simp] theorem takeLeave_carried (h : PeerHdr) (s : State) : (takeLeave h s).carried = s.carried := by simp [takeLeave]
@[simp] theorem groupLeaveEffect_carried (s : State) : (groupLeaveEffect s).carried = s.carried := by simp [groupLeaveEffect]
@[simp] theorem peerPowerFlit_carried (p code : Nat) (s : State) : (peerPowerFlit p code s).carried = s.carried := by
  simp only [peerPowerFlit]; (repeat' split) <;> simp

/-! ### Power states (Power.lean) -/

@[simp] theorem leaveUnheld_carried (s : State) : (leaveUnheld s).carried = s.carried := by simp [leaveUnheld]
@[simp] theorem portDown_carried (k p : Nat) (s : State) : (portDown k p s).carried = s.carried := by simp [portDown]
@[simp] theorem enterPower_carried (k : Nat) (s : State) : (enterPower k s).carried = s.carried := by simp [enterPower]
@[simp] theorem writeWakeImage_carried (s : State) : (writeWakeImage s).carried = s.carried := by simp [writeWakeImage]
@[simp] theorem reloadParked_carried (s : State) : (reloadParked s).carried = s.carried := by simp [reloadParked]
@[simp] theorem requestPower_carried (k : Nat) (s : State) : (requestPower k s).carried = s.carried := by simp [requestPower]

/-! ### Faults and Pepper (Faults.lean) -/

@[simp] theorem vidRaise_carried (cls : Nat) (s : State) : (vidRaise cls s).carried = s.carried := by simp [vidRaise]
@[simp] theorem wedgeAbort_carried (cls stage : Nat) (s : State) : (wedgeAbort cls stage s).carried = s.carried := by
  unfold wedgeAbort; split <;> simp
@[simp] theorem wardenFault_carried (core kind : Nat) (s : State) : (wardenFault core kind s).carried = s.carried := by simp [wardenFault]
@[simp] theorem clearEffect_carried (n : Nat) (s : State) : (clearEffect n s).carried = s.carried := by simp [clearEffect]
@[simp] theorem pepperEnableEffect_carried (v : Bool) (s : State) : (pepperEnableEffect v s).carried = s.carried := by simp [pepperEnableEffect]
@[simp] theorem pepperClearAllEffect_carried (s : State) : (pepperClearAllEffect s).carried = s.carried := by simp [pepperClearAllEffect]

/-! ### The Almanac (Almanac.lean) -/

@[simp] theorem readEffect_carried (idx sub : Nat) (s : State) : (readEffect idx sub s).carried = s.carried := by simp [readEffect]
@[simp] theorem drawNonce_carried (p : Path) (s : State) : (drawNonce p s).carried = s.carried := by simp [drawNonce]
@[simp] theorem testUnlockEffect_carried (p : Path) (s : State) : (testUnlockEffect p s).carried = s.carried := by simp [testUnlockEffect]
@[simp] theorem ringEnableEffect_carried (n v : Nat) (s : State) : (ringEnableEffect n v s).carried = s.carried := by simp [ringEnableEffect]
@[simp] theorem cringEnableEffect_carried (m v : Nat) (s : State) : (cringEnableEffect m v s).carried = s.carried := by simp [cringEnableEffect]
@[simp] theorem noticeCheck_carried (m : Nat) (s : State) : (noticeCheck m s).carried = s.carried := by unfold noticeCheck; split <;> simp
@[simp] theorem relayGoEffect_carried (p : Path) (s : State) : (relayGoEffect p s).carried = s.carried := by simp [relayGoEffect]
@[simp] theorem boardResetEffect_carried (v : Nat) (s : State) : (boardResetEffect v s).carried = s.carried := by simp [boardResetEffect]
@[simp] theorem writeEffect_carried (p : Path) (idx sub inst v : Nat) (s : State) : (writeEffect p idx sub inst v s).carried = s.carried := by
  unfold writeEffect
  extract_lets cmd
  have hcmd (f : State → State) : (cmd f).carried = if v = 1 then (f s).carried else s.carried := by
    dsimp only [cmd]; split <;> rfl
  clear_value cmd
  split <;> (repeat' split) <;> simp [hcmd]
@[simp] theorem writeObj_carried (p : Path) (idx sub inst : Nat) (r : ObjRow) (v : Nat) (s : State) :
    (writeObj p idx sub inst r v s).carried = s.carried := by
  simp [writeObj]
@[simp] theorem broadcastWrite_carried (idx sub v : Nat) (s : State) : (broadcastWrite idx sub v s).carried = s.carried := by simp [broadcastWrite]
@[simp] theorem writeBlob_carried (p : Path) (idx sub off : Nat) (ws : List Word) (s : State) :
    (writeBlob p idx sub off ws s).carried = s.carried := by
  simp [writeBlob]

/-! ### Transactions (Service.lean) -/

@[simp] theorem almanacRead_carried (p : Path) (r : ReqHeader) (s : State) : (almanacRead p r s).2.carried = s.carried := by
  unfold almanacRead; (repeat' split) <;> simp
/-- The definition is opened as a function: where it is applied, the kernel would evaluate the list of every object. -/
@[simp] theorem restoreDefaults_carried (p : Path) (s : State) : (restoreDefaults p s).carried = s.carried := by
  generalize hf : restoreDefaults = f
  delta restoreDefaults at hf
  have hu := congrFun (congrFun hf.symm p) s
  rw [hu]
  extract_lets todo
  generalize todo = l
  split
  next n t h =>
  have ht : t.carried = s.carried := by
    have hl := congrArg (fun e => e.2.carried) h
    exact hl.symm.trans (foldl_snd_carried (fun a e => by dsimp only; (repeat' split) <;> simp) l (0, s))
  rw [State.set_carried, ht]
@[simp] theorem almanacWrite_carried (p : Path) (r : ReqHeader) (ws : List Word) (s : State) : (almanacWrite p r ws s).2.carried = s.carried := by
  unfold almanacWrite; (repeat' split) <;> simp
@[simp] theorem respond_carried (p : Path) (op : Nat) (r : ReqHeader) (vs : List Word) (s : State) : (respond p op r vs s).carried = s.carried := by
  unfold respond; (repeat' split) <;> simp

/-! ### Peer transactions (Peer.lean) -/

@[simp] theorem transactionArrive_carried (port : Fin 3) (h : PeerHdr) (typ : Nat) (ws : List Word) {take : State → State}
    (hk : ∀ s, (take s).carried = s.carried) (s : State) : (transactionArrive port h typ ws take s).carried = s.carried := by
  unfold transactionArrive
  split
  · simp
  · exact peerArrive_carried port h typ 0 ws 0 hk s
@[simp] theorem replyPeer_carried (h : PeerHdr) (op : Nat) (r : ReqHeader) (vs : List Word) (s : State) :
    (replyPeer h op r vs s).carried = s.carried := by
  simp [replyPeer]
@[simp] theorem endRelay_carried (code state : Nat) (s : State) : (endRelay code state s).carried = s.carried := by simp [endRelay]
@[simp] theorem takePeerMgmtResponse_carried (port : Fin 3) (h : PeerHdr) (ws : List Word) (s : State) :
    (takePeerMgmtResponse port h ws s).carried = s.carried := by
  unfold takePeerMgmtResponse; (repeat' split) <;> simp

/-! ### The sideband (Sideband.lean) -/

@[simp] theorem State.modSb_carried (s : State) (p : Nat) (f : SbPort → SbPort) : (State.modSb s p f).carried = s.carried := by simp [State.modSb]
@[simp] theorem sbAddress_carried (p : Fin 2) (s : State) : (sbAddress p s).2.carried = s.carried := by
  simp only [sbAddress]; (repeat' split) <;> simp
@[simp] theorem sbStop_carried (p : Nat) (s : State) : (sbStop p s).carried = s.carried := by simp [sbStop]
@[simp] theorem portReset_carried (port : Fin 2) (cause : Nat) (s : State) : (portReset port cause s).carried = s.carried := by simp [portReset]

/-! ### Host accesses (HostAccess.lean) -/

@[simp] theorem poolWrite_carried (off n v : Nat) (s : State) : (poolWrite off n v s).carried = s.carried := by
  unfold poolWrite
  split
  · exact State.over_carried (fun s i => by simp) _ _
  · rfl

/-! ### Terms of the claims (Safety.lean) -/

@[simp] theorem State.awake_carried (s : State) : (State.awake s).carried = s.carried := by simp [State.awake]
@[simp] theorem flitTaken_carried (p : Nat) (ctl : FlitCtl) (s : State) : (flitTaken p ctl s).carried = s.carried := by simp [flitTaken]
@[simp] theorem broadcastHeard_carried (port : Fin 3) (h : PeerHdr) (typ subtype : Nat) (ws : List Word) (s : State) :
    (broadcastHeard port h typ subtype ws s).carried = s.carried := by
  simp [broadcastHeard]

end Sys2Proof.Machine
end

section
/-! SUPPORT. Proofs of what a step leaves, part 2: the operations that store to the shared window or may enter Cold keep the queue and the
window's canonical form. -/

namespace Sys2Proof.Machine

/-- From one queue and window to another, the queue stands, and the window stays in canonical form (R74). -/
def Keeps (a b : List Instr × Window) : Prop := b.1 = a.1 ∧ (SMap.canonical 0 a.2.bytes = true → SMap.canonical 0 b.2.bytes = true)

@[simp] theorem Keeps.refl (a : List Instr × Window) : Keeps a a := ⟨rfl, id⟩

@[simp] theorem keeps_ite {a b c : List Instr × Window} (p : Prop) [Decidable p] :
    Keeps a (if p then b else c) ↔ if p then Keeps a b else Keeps a c := by split <;> rfl

theorem Keeps.when {a : List Instr × Window} {s : State} {f : State → State} (h : Keeps a s.carried) (hf : Keeps a (f s).carried) (c : Bool) :
    Keeps a (s.when c f).carried := by
  cases c
  · exact h
  · exact hf

theorem Keeps.over {α : Type} {a : List Instr × Window} {f : State → α → State} (hf : ∀ s x, Keeps a s.carried → Keeps a (f s x).carried) (l : List α)
    {s : State} (h : Keeps a s.carried) : Keeps a (s.over l f).carried := by
  induction l generalizing s with
  | nil => exact h
  | cons x l ih => exact ih (hf s x h)

/-! ### Stores to the window -/

theorem canonical_foldl_put {α : Type} (l : List α) (k : α → Nat) (v : α → Byte) {m : SMap Byte} (h : SMap.canonical 0 m = true) :
    SMap.canonical 0 (l.foldl (fun m e => SMap.put 0 m (k e) (v e)) m) = true := by
  induction l generalizing m with
  | nil => exact h
  | cons e l ih => exact ih (SMap.canonical_put 0 m _ _ h)

theorem canonical_foldl_showStore (l : List (List (Nat × Byte))) {m : SMap Byte} (h : SMap.canonical 0 m = true) :
    SMap.canonical 0 (l.foldl showStore m) = true := by
  induction l generalizing m with
  | nil => exact h
  | cons e l ih => exact ih (canonical_foldl_put e _ _ h)

section
variable {a : List Instr × Window} {s : State}

theorem windowPut_keeps (off : Nat) (bs : List Byte) (h : Keeps a s.carried) : Keeps a (windowPut off bs s).carried :=
  ⟨h.1, fun ha => canonical_foldl_put _ _ _ (h.2 ha)⟩

theorem storeByte_keeps (off : Nat) (b : Byte) (h : Keeps a s.carried) : Keeps a (storeByte off b s).carried :=
  ⟨h.1, fun ha => SMap.canonical_put 0 _ _ _ (h.2 ha)⟩

theorem storeWord_keeps (l : List (Nat × Byte)) (h : Keeps a s.carried) : Keeps a (storeWord l s).carried := h

theorem drainStores_keeps (h : Keeps a s.carried) : Keeps a (drainStores s).carried :=
  ⟨h.1, fun ha => canonical_foldl_showStore _ (h.2 ha)⟩

theorem drainOne_keeps (h : Keeps a s.carried) : Keeps a (drainOne s).carried := by
  unfold drainOne
  split
  · exact h
  · exact ⟨h.1, fun ha => canonical_foldl_put _ _ _ (h.2 ha)⟩

theorem mailboxAck_keeps (seq status units : Nat) (h : Keeps a s.carried) : Keeps a (mailboxAck seq status units s).carried :=
  windowPut_keeps _ _ (windowPut_keeps _ _ (windowPut_keeps _ _ h))

theorem putArea_keeps (first kib n : Nat) (h : Keeps a s.carried) : Keeps a (putArea first kib n s).carried :=
  Keeps.over (fun _ _ h => windowPut_keeps _ _ h) _ h

theorem windowWrite_keeps (off n v : Nat) (h : Keeps a s.carried) : Keeps a (windowWrite off n v s).carried := by
  unfold windowWrite
  extract_lets first last t cells u words
  have ht : t.carried = s.carried := State.over_carried (fun s k => by dsimp only; split <;> simp) _ _
  have hu : Keeps a u.carried := Keeps.over (fun _ _ h => storeByte_keeps _ _ h) _ (ht ▸ h)
  exact Keeps.over (fun _ _ h => storeWord_keeps _ h) _ hu

/-! ### Cold and Vigil -/

theorem enterCold_carried (cause : Nat) (wait : Bool) (s : State) : (enterCold cause wait s).carried = (s.pending, {}) := by
  unfold enterCold
  extract_lets t good u durable kept last nv₀ nv₁ nv pw reset v w
  have hu : u.carried = t.carried := State.over_carried (fun s e => by split <;> simp) _ _
  have hp : u.pending = s.pending := by
    have h : u.carried = s.carried := by simp [hu, t]
    exact congrArg Prod.fst h
  have hv : v.carried = (s.pending, {}) := by simp [v, hp, reset, State.reset]
  have hw : w.carried = (s.pending, {}) := by simp [w, hv]
  split <;> simp [hw]

theorem enterCold_keeps (cause : Nat) (wait : Bool) (h : Keeps a s.carried) : Keeps a (enterCold cause wait s).carried := by
  rw [enterCold_carried]
  exact ⟨h.1, fun _ => rfl⟩

theorem coldAgain_keeps (cause : Nat) (wait : Bool) (h : Keeps a s.carried) : Keeps a (coldAgain cause wait s).carried :=
  enterCold_keeps _ _ h

theorem takeReset_keeps (h : Keeps a s.carried) : Keeps a (takeReset s).carried := by
  unfold takeReset
  split
  · exact h
  · exact enterCold_keeps _ _ h

theorem vigilOver_keeps (clean : Bool) (h : Keeps a s.carried) : Keeps a (vigilOver clean s).carried := by
  unfold vigilOver
  exact enterCold_keeps _ _ (by simpa using h)

theorem vigilAdvance_keeps (h : Keeps a s.carried) : Keeps a (vigilAdvance s).carried := by
  unfold vigilAdvance
  split
  · exact h
  · split
    · exact h
    · split
      · exact vigilOver_keeps _ h
      · extract_lets t frozen front u v w
        have hw : w.carried = s.carried := by simp [w, v, u, t]
        split <;> simpa [hw] using h

theorem enterVigil_keeps (trigger : Nat) (keepA : Bool) (h : Keeps a s.carried) : Keeps a (enterVigil trigger keepA s).carried := by
  unfold enterVigil
  split
  · exact h
  · extract_lets fromState t₁ t₂ t₃ t₄ t₅ t₆ t₇ t₈ t₉ t₁₀ shadow t₁₁ retained t₁₂ v pw t₁₃ t₁₄ t₁₅
    have h₁₄ : t₁₄.carried = s.carried := by
      simp [t₁₄, t₁₃, t₁₂, t₁₁, t₁₀, t₉, t₈, t₇, t₆, t₅, t₄, t₃, t₂, t₁]
    have h₁₅ : t₁₅.carried = s.carried := by
      dsimp only [t₁₅]
      rw [State.when_carried, State.over_carried fun s e => by split <;> simp, ite_self, h₁₄]
    clear_value t₁₅
    exact vigilAdvance_keeps (by simpa [h₁₅] using h)

theorem supplyLossEffect_keeps (h : Keeps a s.carried) : Keeps a (supplyLossEffect s).carried := enterVigil_keeps _ _ h

theorem thermalTrip_keeps (i : Nat) (h : Keeps a s.carried) : Keeps a (thermalTrip i s).carried := by
  unfold thermalTrip
  split
  · extract_lets t u v
    have hv : Keeps a v.carried := by simpa [v, u, t] using h
    split
    · exact enterCold_keeps _ _ hv
    · exact enterVigil_keeps _ _ hv
  · exact h

theorem vigilJobEnded_keeps (c d : Nat) (j : DieJob) (passed : Bool) (h : Keeps a s.carried) : Keeps a (vigilJobEnded c d j passed s).carried := by
  unfold vigilJobEnded
  extract_lets t page u
  refine vigilAdvance_keeps ?_
  have ht : t.carried = s.carried := by simp [t]
  have hpage (pma : Nat) (slc : Bool) (image : BitVec 147456) (s : State) : (page pma slc image s).carried = s.carried := by simp [page]
  have hu : u.carried = s.carried := by
    clear_value t page
    dsimp only [u]
    (repeat' split) <;> simp [hpage, ht]
  exact hu ▸ h

theorem opEnded_keeps (c d : Nat) (j : DieJob) (passed : Bool) (h : Keeps a s.carried) : Keeps a (opEnded c d j passed s).carried := by
  unfold opEnded
  split
  · refine vigilJobEnded_keeps _ _ _ _ ?_
    split <;> simpa using h
  · split
    · simpa using h
    · simpa using h
    · simpa using h
    · dsimp only
      split <;> simpa using h
    · dsimp only
      split <;> simpa using h
    · simpa using h
    · dsimp only
      split
      · split <;> simpa using h
      · split <;> simpa using h

theorem busyTimeout_keeps (c d : Nat) (j : DieJob) (chipOpen : Bool) (h : Keeps a s.carried) : Keeps a (busyTimeout c d j chipOpen s).carried := by
  unfold busyTimeout
  extract_lets again t u v w x
  have hu : Keeps a u.carried := by simpa [u, t] using h
  have hv : Keeps a v.carried := by
    dsimp only [v]
    split
    · exact vigilJobEnded_keeps _ _ _ _ (by simpa using hu)
    · simpa using hu
  split
  · simpa [w] using hv
  · split
    · simpa using hv
    · simpa [x] using hv

theorem cfEnded_keeps (d : CfDesc) (outcome : CfOutcome) (h : Keeps a s.carried) : Keeps a (cfEnded d outcome s).carried := by
  unfold cfEnded
  split
  next status words t ht =>
  have h₀ : t.carried = s.carried := by simpa [ht] using cfEnd_carried d outcome s
  dsimp only
  refine vigilAdvance_keeps ?_
  rw [cfNext_carried]
  (repeat' split) <;> simpa [h₀] using h

theorem junctionConverted_keeps (i : Nat) (h : Keeps a s.carried) : Keeps a (junctionConverted i s).carried := by
  unfold junctionConverted
  extract_lets ok vs t warn u
  have ht : t.carried = s.carried := by
    dsimp only [t]
    generalize vs = l
    cases l <;> simp
  have hu : Keeps a u.carried := by simpa [u, ht] using h
  split
  · exact thermalTrip_keeps _ hu
  · exact hu

theorem convert_keeps (i : Nat) (code value peak : Int) (h : Keeps a s.carried) : Keeps a (convert i code value peak s).carried := by
  unfold convert
  extract_lets forced code t ovr settle good old kept u v w x takes y out z z' value' out'
  have hx : Keeps a x.carried := by simpa [x, w, v, u, t] using h
  have htakes (s : State) : (takes s).carried = s.carried := by simp [takes]
  split
  · exact junctionConverted_keeps _ (by simpa [y, htakes] using hx)
  · (repeat' split) <;> simpa [z, z', htakes] using hx

theorem afterEffect_keeps (idx sub inst v : Nat) (h : Keeps a s.carried) : Keeps a (afterEffect idx sub inst v s).carried := by
  unfold afterEffect
  split
  · exact enterCold_keeps _ _ h
  · split
    · split
      · exact supplyLossEffect_keeps h
      · exact h
    · (repeat' split) <;> simpa using h

theorem orderStores_keeps (p : Path) (op : Nat) (h : Keeps a s.carried) : Keeps a (orderStores p op s).carried :=
  h.when (drainStores_keeps h) _

theorem afterWrite_keeps (idx : Nat) (vs : List (Elem × Nat)) (h : Keeps a s.carried) : Keeps a (afterWrite idx vs s).carried :=
  Keeps.over (fun _ _ h => afterEffect_keeps _ _ _ _ h) _ h

theorem serveWith_keeps {reply : List Word → State → State} (hreply : ∀ vs s, (reply vs s).carried = s.carried) (p : Path) (op : Nat) (r : ReqHeader)
    (ws : List Word) (h : Keeps a s.carried) : Keeps a (serveWith reply p op r ws s).carried := by
  unfold serveWith
  extract_lets pw t
  have ht : Keeps a t.carried := orderStores_keeps p op (by simpa using h)
  split
  · simpa [hreply] using ht
  · simpa [hreply] using ht
  · split
    next vs u hu =>
    have hw : u.carried = t.carried := by simpa [hu] using almanacWrite_carried p r ws t
    exact afterWrite_keeps _ _ (by simpa [hreply, hw] using ht)

theorem serve_keeps (p : Path) (op : Nat) (r : ReqHeader) (ws : List Word) (h : Keeps a s.carried) : Keeps a (serve p op r ws s).carried := by
  unfold serve
  split
  · exact h
  · split
    · exact h
    · exact serveWith_keeps (fun _ _ => respond_carried ..) p op r ws h

theorem takePeerMgmtRequest_keeps (port : Fin 3) (hd : PeerHdr) (ws : List Word) (h : Keeps a s.carried) :
    Keeps a (takePeerMgmtRequest port hd ws s).carried := by
  unfold takePeerMgmtRequest
  split
  · simpa using h
  · split
    · exact serveWith_keeps (fun _ _ => replyPeer_carried ..) _ _ _ _ h
    · exact h

theorem takeMgmtBroadcast_keeps (port : Fin 3) (hd : PeerHdr) (ws : List Word) (h : Keeps a s.carried) :
    Keeps a (takeMgmtBroadcast port hd ws s).carried := by
  unfold takeMgmtBroadcast
  split
  · split <;> simpa using h
  · split
    · simpa using h
    · split
      · exact serveWith_keeps (fun _ _ => rfl) _ _ _ _ h
      · exact h

theorem idle_keeps (h : Keeps a s.carried) : Keeps a (idle s).carried := by
  unfold idle
  extract_lets t u v w
  have ht : Keeps a t.carried := by simpa [t] using h
  have hu : Keeps a u.carried := by
    simp only [u, vidDue_carried, lowerNext_carried, reloadParked_carried]
    exact drainOne_keeps (by simpa using ht)
  simpa [w, v] using hu
end

end Sys2Proof.Machine
end

section
/-! SUPPORT. Proofs of what a step leaves, part 3: every command answers a next state with its queue kept and the window in canonical form. -/

namespace Sys2Proof.Machine

/-- A command answers a next state, which has the queue that it found, and a window in canonical form if the window was. -/
def Answers (s : State) (r : Res) : Prop := ∃ t, r = .next t ∧ Keeps s.carried t.carried

@[simp] theorem answers_next {s t : State} : Answers s (.next t) ↔ Keeps s.carried t.carried := by simp [Answers]

@[simp] theorem answers_ite {s : State} (c : Prop) [Decidable c] (a b : Res) :
    Answers s (if c then a else b) ↔ if c then Answers s a else Answers s b := by split <;> rfl

theorem Keeps.of_eq {s t : State} (h : t.carried = s.carried) : Keeps s.carried t.carried := by rw [h]; exact Keeps.refl _

section
variable {a : List Instr × Window} {s : State}

theorem peerArrive_keeps (port : Nat) (hd : PeerHdr) (typ subtype : Nat) (ws : List Word) (frame : Payload) {take : State → State}
    (hk : ∀ s, Keeps a s.carried → Keeps a (take s).carried) (h : Keeps a s.carried) :
    Keeps a (peerArrive port hd typ subtype ws frame take s).carried := by
  unfold peerArrive
  split
  · exact h
  · split
    · simpa using h
    · extract_lets t left fwd out lost old u v mine
      have ht : Keeps a t.carried := by simpa [t] using h
      have hv : Keeps a v.carried := by simpa [v, u] using ht
      split
      · split
        · exact hk _ ht
        · split
          · exact ht
          · split
            · exact hv
            · exact hk _ hv
      · split
        · split
          · exact ht
          · exact hk _ ht
        · split <;> simpa using ht

theorem transactionArrive_keeps (port : Fin 3) (hd : PeerHdr) (typ : Nat) (ws : List Word) {take : State → State}
    (hk : ∀ s, Keeps a s.carried → Keeps a (take s).carried) (h : Keeps a s.carried) :
    Keeps a (transactionArrive port hd typ ws take s).carried := by
  unfold transactionArrive
  split
  · simpa using h
  · exact peerArrive_keeps _ _ _ _ _ _ hk h
end

@[simp] theorem execAdcConversion_answers (raw value peak : BitVec 20) (s : State) : Answers s (execAdcConversion raw value peak s) := by
  unfold execAdcConversion
  extract_lets n i t u
  rw [answers_next]
  split
  · exact Keeps.refl _
  · have hu : Keeps s.carried u.carried := convert_keeps _ _ _ _ (by simp [t])
    (repeat' split) <;> simpa using hu

@[simp] theorem readOne_answers (p : Path) (tag : BitVec 8) (idx sub typ : Nat) (s : State) : Answers s (readOne p tag idx sub typ s) :=
  answers_next.mpr (serve_keeps _ _ _ _ (Keeps.refl _))

@[simp] theorem writeOne_answers (p : Path) (tag : BitVec 8) (idx sub typ : Nat) (v : Word) (s : State) :
    Answers s (writeOne p tag idx sub typ v s) :=
  answers_next.mpr (serve_keeps _ _ _ _ (Keeps.refl _))

@[simp] theorem writeDuo_answers (p : Path) (tag : BitVec 8) (idx sub : Nat) (v : Duo) (s : State) : Answers s (writeDuo p tag idx sub v s) :=
  answers_next.mpr (serve_keeps _ _ _ _ (Keeps.refl _))

@[simp] theorem execAlmanacRead_answers (p : Path) (r : ReqHeader) (s : State) : Answers s (execAlmanacRead p r s) :=
  answers_next.mpr (serve_keeps _ _ _ _ (Keeps.refl _))

@[simp] theorem execAlmanacWrite_answers (p : Path) (r : ReqHeader) (ws : List Word) (s : State) : Answers s (execAlmanacWrite p r ws s) :=
  answers_next.mpr (serve_keeps _ _ _ _ (Keeps.refl _))

@[simp] theorem execOrderedWrite_answers (p : Path) (r : ReqHeader) (ws : List Word) (s : State) : Answers s (execOrderedWrite p r ws s) :=
  answers_next.mpr (serve_keeps _ _ _ _ (Keeps.refl _))

@[simp] theorem execRsvdOp_answers (p : Path) (r : ReqHeader) (s : State) : Answers s (execRsvdOp p r s) :=
  answers_next.mpr (serve_keeps _ _ _ _ (Keeps.refl _))

@[simp] theorem execMgmtRequest_answers (byteCount : BitVec 13) (d0 d1 : Duo) (ws : List Word) (s : State) :
    Answers s (execMgmtRequest byteCount d0 d1 ws s) := by
  unfold execMgmtRequest
  rw [answers_next]
  split
  extract_lets n
  split
  · exact Keeps.refl _
  · split
    · simp
    · exact serve_keeps _ _ _ _ (Keeps.refl _)

@[simp] theorem execSbWriteTransfer_answers (port : Fin 2) (bytes : List Byte) (s : State) : Answers s (execSbWriteTransfer port bytes s) := by
  unfold execSbWriteTransfer
  rw [answers_next]
  split
  next ack t ht =>
  have ht : t.carried = s.carried := by simpa [ht] using sbAddress_carried port s
  dsimp only
  split
  · exact Keeps.of_eq ht
  · rw [sbStop_carried]
    split
    · exact Keeps.of_eq (by simpa using ht)
    · exact serve_keeps _ _ _ _ (Keeps.of_eq (by simpa using ht))

@[simp] theorem execPeerMgmtRequest_answers (port : Fin 3) (h : PeerHdr) (ws : List Word) (s : State) : Answers s (execPeerMgmtRequest port h ws s) :=
  answers_next.mpr (transactionArrive_keeps _ _ _ _ (fun _ hk => takePeerMgmtRequest_keeps _ _ _ (by simpa using hk)) (Keeps.refl _))

@[simp] theorem execMgmtBroadcast_answers (port : Fin 3) (h : PeerHdr) (ws : List Word) (s : State) : Answers s (execMgmtBroadcast port h ws s) :=
  answers_next.mpr (transactionArrive_keeps _ _ _ _ (fun _ hk => takeMgmtBroadcast_keeps _ _ _ (by simpa using hk)) (Keeps.refl _))

@[simp] theorem execReset_answers (port : Fin 3) (h : PeerHdr) (s : State) : Answers s (execReset port h s) :=
  answers_next.mpr (peerArrive_keeps _ _ _ _ _ _ (fun _ hk => takeReset_keeps hk) (Keeps.refl _))

@[simp] theorem execManagerResetDelay_answers (s : State) : Answers s (execManagerResetDelay s) := by
  unfold execManagerResetDelay
  rw [answers_next]
  split
  · exact enterCold_keeps _ _ (Keeps.refl _)
  · exact Keeps.refl _

@[simp] theorem execBackgroundSlotFree_answers (s : State) : Answers s (execBackgroundSlotFree s) := by
  unfold execBackgroundSlotFree
  rw [answers_next]
  refine Keeps.of_eq ?_
  split
  · rfl
  · split
    · next u j r _ =>
      cases hp : placeReturned u j (s.modWr (fun w => { w with returning := r })) with
      | none => rfl
      | some t => simpa using placeReturned_carried hp
    · split
      · dsimp only
        split
        · next t ht => simpa using takeBackSlot_carried ht
        · simp
      · simp

@[simp] theorem execCodeFlashCompletion_answers (outcome : CfOutcome) (s : State) : Answers s (execCodeFlashCompletion outcome s) := by
  unfold execCodeFlashCompletion
  rw [answers_next]
  split
  · exact Keeps.refl _
  · exact Keeps.refl _
  · exact cfEnded_keeps _ _ (Keeps.refl _)

@[simp] theorem execDescriptorFetch_answers (s : State) : Answers s (execDescriptorFetch s) := by
  unfold execDescriptorFetch
  rw [answers_next]
  refine Keeps.of_eq ?_
  split
  · rfl
  · split
    · rfl
    · next n t ht =>
      have ht : t.carried = s.carried := pickRing_carried ht
      dsimp only
      split <;> simp [ht]

@[simp] theorem execFenceComplete_answers (ring : Fin 8192) (slot : Fin 65536) (s : State) : Answers s (execFenceComplete ring slot s) := by
  unfold execFenceComplete
  rw [answers_next]
  split
  · split
    · rw [finishOp_carried]; exact drainStores_keeps (Keeps.refl _)
    · exact Keeps.refl _
  · exact Keeps.refl _

@[simp] theorem execMemWrite_answers (addr : Duo) (n : BitVec 13) (v : BitVec 32768) (s : State) : Answers s (execMemWrite addr n v s) := by
  unfold execMemWrite
  extract_lets a k pw t
  rw [answers_next]
  have ht : Keeps s.carried t.carried := by simp [t]
  split
  · exact Keeps.refl _
  · split
    · split
      · exact windowWrite_keeps _ _ _ ht
      · exact ht
    · split
      · rw [poolWrite_carried]; exact ht
      · exact ht

@[simp] theorem execModRstNFall_answers (s : State) : Answers s (execModRstNFall s) := by
  unfold execModRstNFall
  extract_lets t u
  rw [answers_next]
  split
  · exact Keeps.refl _
  · have ht : Keeps s.carried t.carried := by simp [t]
    have hu : Keeps s.carried u.carried := by
      dsimp only [u]
      split
      · exact coldAgain_keeps _ _ ht
      · split
        · rw [State.modPw_carried]; exact vigilOver_keeps _ ht
        · exact enterCold_keeps _ _ ht
    simpa using hu

@[simp] theorem execSupplyFall_answers (aon : Bool) (s : State) : Answers s (execSupplyFall aon s) := by
  unfold execSupplyFall
  extract_lets t
  rw [answers_next]
  have ht : Keeps s.carried t.carried := by
    dsimp only [t]
    split
    · split
      · exact Keeps.refl _
      · exact coldAgain_keeps _ _ (Keeps.refl _)
    · split
      · exact Keeps.refl _
      · exact enterCold_keeps _ _ (Keeps.refl _)
  simpa using ht

@[simp] theorem execRailPowerGoodLow_answers (k : Fin 12) (s : State) : Answers s (execRailPowerGoodLow k s) := by
  unfold execRailPowerGoodLow
  extract_lets t u
  rw [answers_next]
  have ht : Keeps s.carried t.carried := by simp [t]
  have hu : Keeps s.carried u.carried := by
    dsimp only [u]
    split
    · exact enterVigil_keeps _ _ (by simpa using ht)
    · exact ht
  split
  · exact Keeps.refl _
  · split
    · simpa using ht
    · split
      · exact enterCold_keeps _ _ ht
      · simpa using hu

@[simp] theorem execReadArea_answers (s : State) : Answers s (execReadArea s) := by
  unfold execReadArea
  extract_lets seq first kib n bad
  rw [answers_next]
  split
  · exact Keeps.refl _
  · split
    · exact mailboxAck_keeps _ _ _ (Keeps.refl _)
    · exact mailboxAck_keeps _ _ _ (by rw [State.add_carried]; exact putArea_keeps _ _ _ (Keeps.refl _))

@[simp] theorem execUpdateChunk_answers (s : State) : Answers s (execUpdateChunk s) := by
  unfold execUpdateChunk
  extract_lets seq first kib n
  rw [answers_next]
  split
  · exact Keeps.refl _
  · split
    · exact mailboxAck_keeps _ _ _ (Keeps.refl _)
    · exact mailboxAck_keeps _ _ _ (by simp)

@[simp] theorem execStatusPoll_answers (c : Fin 96) (d : Fin 16) (r : PollResult) (s : State) : Answers s (execStatusPoll c d r s) := by
  unfold execStatusPoll
  rw [answers_next]
  split
  · exact Keeps.refl _
  next j _ =>
  extract_lets t ended
  have ht : Keeps s.carried t.carried := by simp [t]
  have hended (passed : Bool) : Keeps s.carried (ended passed).carried := by
    dsimp only [ended]
    split
    · simpa using ht
    · rw [programEnded_carried]; exact opEnded_keeps _ _ _ _ (by simpa using ht)
  split
  · exact Keeps.refl _
  · split
    · split
      · exact busyTimeout_keeps _ _ _ _ (Keeps.refl _)
      · exact Keeps.refl _
    · split
      · exact ht
      · exact hended true
      · exact hended false
      · exact busyTimeout_keeps _ _ _ _ ht

@[simp] theorem execVigilEndMark_answers (s : State) : Answers s (execVigilEndMark s) := by
  unfold execVigilEndMark
  rw [answers_next]
  split
  · split
    · exact vigilOver_keeps _ (by simp)
    · exact Keeps.refl _
  · exact Keeps.refl _

@[simp] theorem execVigilTimeout_answers (s : State) : Answers s (execVigilTimeout s) := by
  unfold execVigilTimeout
  rw [answers_next]
  split
  · exact vigilOver_keeps _ (Keeps.refl _)
  · exact Keeps.refl _

@[simp] theorem execVinFail_answers (s : State) : Answers s (execVinFail s) := by
  unfold execVinFail
  rw [answers_next]
  split
  · exact enterVigil_keeps _ _ (Keeps.refl _)
  · split
    · exact enterCold_keeps _ _ (Keeps.refl _)
    · exact Keeps.refl _

/-! ### Dram.lean -/

@[simp] theorem execRefresh_answers (sub : Fin 8) (command : RankCommand) (s : State) : Answers s (execRefresh sub command s) := by simp [execRefresh]
@[simp] theorem execActivateTableClear_answers (s : State) : Answers s (execActivateTableClear s) := by simp [execActivateTableClear]
@[simp] theorem execSelfRefreshEntry_answers (sub : Fin 8) (command : RankCommand) (s : State) : Answers s (execSelfRefreshEntry sub command s) := by
  simp [execSelfRefreshEntry]
@[simp] theorem execPatrolScrub_answers (burst : BurstRead) (s : State) : Answers s (execPatrolScrub burst s) := by simp [execPatrolScrub]
@[simp] theorem execMr4Read_answers (sub : Fin 8) (command : RankCommand) (doubled : Bool) (s : State) :
    Answers s (execMr4Read sub command doubled s) := by
  simp [execMr4Read]
@[simp] theorem execDqsTracking_answers (sub : Fin 8) (command : RankCommand) (steps : BitVec 20) (s : State) :
    Answers s (execDqsTracking sub command steps s) := by
  simp [execDqsTracking]
@[simp] theorem execDramZqCalibration_answers (sub : Fin 8) (command : RankCommand) (s : State) :
    Answers s (execDramZqCalibration sub command s) := by
  simp [execDramZqCalibration]
@[simp] theorem execRankCopy_answers (sub : Fin 8) (bursts : List (Fin 128 × List SymbolError)) (parity : List (Fin 128 × Bool)) (s : State) :
    Answers s (execRankCopy sub bursts parity s) := by
  unfold execRankCopy; (repeat' split) <;> simp
@[simp] theorem execHelperRunEnd_answers (first : Option HelperMiss) (rest : List HelperMiss) (s : State) :
    Answers s (execHelperRunEnd first rest s) := by
  unfold execHelperRunEnd; (repeat' split) <;> simp

/-! ### Rings.lean -/

@[simp] theorem execBarrierRelease_answers (ring : Fin 8192) (slot : Fin 65536) (s : State) : Answers s (execBarrierRelease ring slot s) := by
  unfold execBarrierRelease; (repeat' split) <;> simp
@[simp] theorem execNop_answers (ring : Fin 8192) (slot : Fin 65536) (s : State) : Answers s (execNop ring slot s) := by
  unfold execNop; (repeat' split) <;> simp
@[simp] theorem execFence_answers (ring : Fin 8192) (slot : Fin 65536) (s : State) : Answers s (execFence ring slot s) := by
  unfold execFence; (repeat' split) <;> simp
@[simp] theorem execFlush_answers (ring : Fin 8192) (slot : Fin 65536) (s : State) : Answers s (execFlush ring slot s) := by
  unfold execFlush; (repeat' split) <;> simp
@[simp] theorem execSubmissionDoorbell_answers (ring : Fin 8192) (v : Word) (s : State) : Answers s (execSubmissionDoorbell ring v s) := by
  simp [execSubmissionDoorbell]
@[simp] theorem execCompletionHeadDoorbell_answers (ring : Fin 4096) (v : Word) (s : State) : Answers s (execCompletionHeadDoorbell ring v s) := by
  simp [execCompletionHeadDoorbell]
@[simp] theorem execNotifyDelay_answers (ring : Fin 4096) (s : State) : Answers s (execNotifyDelay ring s) := by simp [execNotifyDelay]
@[simp] theorem execEventCompletionPost_answers (ring : Fin 4096) (s : State) : Answers s (execEventCompletionPost ring s) := by
  unfold execEventCompletionPost; (repeat' split) <;> simp

/-! ### Layout.lean -/

@[simp] theorem execJournalPageTimer_answers (s : State) : Answers s (execJournalPageTimer s) := by
  unfold execJournalPageTimer; (repeat' split) <;> simp

/-! ### WritePath.lean -/

@[simp] theorem execMemReadData_answers (tag n : BitVec 13) (poisoned : Bool) (v : BitVec 32768) (s : State) :
    Answers s (execMemReadData tag n poisoned v s) := by
  unfold execMemReadData; (repeat' split) <;> simp
@[simp] theorem execMemReadTimeout_answers (tag : BitVec 13) (s : State) : Answers s (execMemReadTimeout tag s) := by
  unfold execMemReadTimeout; (repeat' split) <;> simp
@[simp] theorem execWrite_answers (ring : Fin 8192) (slot : Fin 65536) (s : State) : Answers s (execWrite ring slot s) := by
  unfold execWrite; (repeat' split) <;> simp
@[simp] theorem execTagWaitRelease_answers (ring : Fin 8192) (slot : Fin 65536) (s : State) : Answers s (execTagWaitRelease ring slot s) := by
  unfold execTagWaitRelease; (repeat' split) <;> simp
@[simp] theorem execTrim_answers (ring : Fin 8192) (slot : Fin 65536) (s : State) : Answers s (execTrim ring slot s) := by
  unfold execTrim; (repeat' split) <;> simp
@[simp] theorem execWriteAdmission_answers (s : State) : Answers s (execWriteAdmission s) := by unfold execWriteAdmission; (repeat' split) <;> simp
@[simp] theorem execWriteAcknowledge_answers (ring : Fin 8192) (slot : Fin 65536) (s : State) : Answers s (execWriteAcknowledge ring slot s) := by
  unfold execWriteAcknowledge; (repeat' split) <;> simp
@[simp] theorem execMemberProgramTake_answers (take : MemberTake) (s : State) : Answers s (execMemberProgramTake take s) := by
  simp only [execMemberProgramTake]; (repeat' split) <;> simp
@[simp] theorem execRowCloseDelay_answers (set : Fin 8) (s : State) : Answers s (execRowCloseDelay set s) := by simp [execRowCloseDelay]
@[simp] theorem execFlushSettled_answers (ring : Fin 8192) (slot : Fin 65536) (s : State) : Answers s (execFlushSettled ring slot s) := by
  unfold execFlushSettled; (repeat' split) <;> simp

/-! ### Recovery.lean -/

@[simp] theorem execLossNotice_answers (s : State) : Answers s (execLossNotice s) := by unfold execLossNotice; (repeat' split) <;> simp

/-! ### ReadPath.lean -/

@[simp] theorem execRead_answers (ring : Fin 8192) (slot : Fin 65536) (s : State) : Answers s (execRead ring slot s) := by
  unfold execRead; (repeat' split) <;> simp
@[simp] theorem execRawRead_answers (ring : Fin 8192) (slot : Fin 65536) (s : State) : Answers s (execRawRead ring slot s) := by
  unfold execRawRead; (repeat' split) <;> simp
@[simp] theorem execRawProgram_answers (ring : Fin 8192) (slot : Fin 65536) (s : State) : Answers s (execRawProgram ring slot s) := by
  unfold execRawProgram; (repeat' split) <;> simp
@[simp] theorem execRawErase_answers (ring : Fin 8192) (slot : Fin 65536) (s : State) : Answers s (execRawErase ring slot s) := by
  unfold execRawErase; (repeat' split) <;> simp
@[simp] theorem execHardDecode_answers (c : Fin 96) (ones : BitVec 16) (pass : Bool) (s : State) : Answers s (execHardDecode c ones pass s) := by
  simp only [execHardDecode]; (repeat' split) <;> simp
@[simp] theorem execSoftDecode_answers (pass : Bool) (s : State) : Answers s (execSoftDecode pass s) := by
  simp only [execSoftDecode]; (repeat' split) <;> simp
@[simp] theorem execReconstructFrame_answers (outcomes : List PageOutcome) (s : State) : Answers s (execReconstructFrame outcomes s) := by
  unfold execReconstructFrame; (repeat' split) <;> simp

/-! ### Migration.lean -/

@[simp] theorem execMigrate_answers (ring : Fin 8192) (slot : Fin 65536) (s : State) : Answers s (execMigrate ring slot s) := by
  unfold execMigrate; (repeat' split) <;> simp
@[simp] theorem execMigrationDone_answers (ring : Fin 8192) (s : State) : Answers s (execMigrationDone ring s) := by
  unfold execMigrationDone; (repeat' split) <;> simp

/-! ### Saves.lean -/

@[simp] theorem execMappingSave_answers (s : State) : Answers s (execMappingSave s) := by unfold execMappingSave; (repeat' split) <;> simp

/-! ### CalRecords.lean -/

@[simp] theorem execReapplyStoredSet_answers (i : Fin 123) (s : State) : Answers s (execReapplyStoredSet i s) := by simp [execReapplyStoredSet]

/-! ### Channels.lean -/

@[simp] theorem execDieTemperatureRead_answers (c : Fin 96) (d : Fin 16) (t : BitVec 20) (s : State) :
    Answers s (execDieTemperatureRead c d t s) := by
  simp [execDieTemperatureRead]
@[simp] theorem execZqCalibrationShort_answers (c : Fin 96) (target : Fin 4) (s : State) : Answers s (execZqCalibrationShort c target s) := by
  simp [execZqCalibrationShort]
@[simp] theorem execWriteCheck_answers (c : Fin 96) (d : Fin 16) (passed : Bool) (s : State) : Answers s (execWriteCheck c d passed s) := by
  simp [execWriteCheck]
@[simp] theorem execPinCurrentPeakSample_answers (c : Fin 96) (current : BitVec 20) (s : State) :
    Answers s (execPinCurrentPeakSample c current s) := by
  simp [execPinCurrentPeakSample]
@[simp] theorem execPinCurrentTrip_answers (c : Fin 96) (lines : BitVec 17) (current : BitVec 20) (s : State) :
    Answers s (execPinCurrentTrip c lines current s) := by
  simp [execPinCurrentTrip]
@[simp] theorem execDieQueueIssue_answers (c : Fin 96) (d : Fin 16) (s : State) : Answers s (execDieQueueIssue c d s) := by
  simp only [execDieQueueIssue]; (repeat' split) <;> simp
@[simp] theorem execProgramHoldoff_answers (c : Fin 96) (d : Fin 16) (s : State) : Answers s (execProgramHoldoff c d s) := by
  simp [execProgramHoldoff]
@[simp] theorem execBusGrant_answers (c : Fin 96) (framing : Framing) (parityBad : Option FabricStage) (s : State) :
    Answers s (execBusGrant c framing parityBad s) := by
  unfold execBusGrant; (repeat' split) <;> simp

/-! ### Redundancy.lean -/

@[simp] theorem execWalkStripe_answers (set : Fin 8) (outcomes : List PageOutcome) (s : State) : Answers s (execWalkStripe set outcomes s) := by
  unfold execWalkStripe; (repeat' split) <;> simp
@[simp] theorem execBoundaryAdvance_answers (set : Fin 8) (s : State) : Answers s (execBoundaryAdvance set s) := by
  unfold execBoundaryAdvance; (repeat' split) <;> simp
@[simp] theorem execLossScanEnd_answers (set : Fin 8) (s : State) : Answers s (execLossScanEnd set s) := by
  simp only [execLossScanEnd]; (repeat' split) <;> simp
@[simp] theorem execWalkResume_answers (set : Fin 8) (s : State) : Answers s (execWalkResume set s) := by
  simp only [execWalkResume]; (repeat' split) <;> simp

/-! ### Media.lean -/

@[simp] theorem execCalendsAdvance_answers (s : State) : Answers s (execCalendsAdvance s) := by simp [execCalendsAdvance]
@[simp] theorem execCalendsSave_answers (s : State) : Answers s (execCalendsSave s) := by simp [execCalendsSave]
@[simp] theorem execHarvestTableSave_answers (s : State) : Answers s (execHarvestTableSave s) := by simp [execHarvestTableSave]
@[simp] theorem execScrubPositionSave_answers (s : State) : Answers s (execScrubPositionSave s) := by simp [execScrubPositionSave]
@[simp] theorem execHealthSave_answers (s : State) : Answers s (execHealthSave s) := by simp [execHealthSave]
@[simp] theorem execDieCountSave_answers (s : State) : Answers s (execDieCountSave s) := by simp [execDieCountSave]
@[simp] theorem execSelectVictim_answers (set : Fin 8) (s : State) : Answers s (execSelectVictim set s) := by
  unfold execSelectVictim; (repeat' split) <;> simp
@[simp] theorem execHarvestCopy_answers (set : Fin 8) (outcomes : List PageOutcome) (s : State) : Answers s (execHarvestCopy set outcomes s) := by
  unfold execHarvestCopy; (repeat' split) <;> simp
@[simp] theorem execVictimErase_answers (set : Fin 8) (s : State) : Answers s (execVictimErase set s) := by
  unfold execVictimErase; (repeat' split) <;> simp
@[simp] theorem execWearCheck_answers (set : Fin 8) (s : State) : Answers s (execWearCheck set s) := by unfold execWearCheck; (repeat' split) <;> simp
@[simp] theorem execScrubRead_answers (set : Fin 8) (outcomes : List PageOutcome) (s : State) : Answers s (execScrubRead set outcomes s) := by
  unfold execScrubRead; (repeat' split) <;> simp

/-! ### Abort.lean -/

@[simp] theorem execAbortRingScope_answers (ring : Fin 8192) (slot : Fin 65536) (s : State) : Answers s (execAbortRingScope ring slot s) := by
  simp [execAbortRingScope]
@[simp] theorem execAbortChannelScope_answers (ring : Fin 8192) (slot : Fin 65536) (s : State) : Answers s (execAbortChannelScope ring slot s) := by
  simp [execAbortChannelScope]
@[simp] theorem execAbortDeviceScope_answers (ring : Fin 8192) (slot : Fin 65536) (s : State) : Answers s (execAbortDeviceScope ring slot s) := by
  simp [execAbortDeviceScope]
@[simp] theorem execAbortCodeFlashScope_answers (ring : Fin 8192) (slot : Fin 65536) (s : State) :
    Answers s (execAbortCodeFlashScope ring slot s) := by
  simp [execAbortCodeFlashScope]
@[simp] theorem execAbortComplete_answers (i : Nat) (s : State) : Answers s (execAbortComplete i s) := by
  simp only [execAbortComplete]; (repeat' split) <;> simp

/-! ### Link.lean -/

@[simp] theorem execPayloadFlit_answers (port : Fin 3) (ctl : FlitCtl) (beats : FlitBeats) (s : State) :
    Answers s (execPayloadFlit port ctl beats s) := by
  simp [execPayloadFlit]
@[simp] theorem execIdleFlit_answers (port : Fin 3) (flit : IdleFlit) (s : State) : Answers s (execIdleFlit port flit s) := by simp [execIdleFlit]
@[simp] theorem execParamFlit_answers (port : Fin 3) (ctl : FlitCtl) (creditP creditN : BitVec 12) (role : BitVec 2) (reset : Bool)
    (width : BitVec 5) (s : State) : Answers s (execParamFlit port ctl creditP creditN role reset width s) := by
  simp [execParamFlit]
@[simp] theorem execMissedHeader_answers (port : Fin 3) (s : State) : Answers s (execMissedHeader port s) := by simp [execMissedHeader]
@[simp] theorem execFlitLock_answers (lock : LockFlits) (s : State) : Answers s (execFlitLock lock s) := by simp [execFlitLock]
@[simp] theorem execLockTimeout_answers (port : Fin 3) (s : State) : Answers s (execLockTimeout port s) := by simp [execLockTimeout]
@[simp] theorem execAckDue_answers (port : Fin 3) (s : State) : Answers s (execAckDue port s) := by simp [execAckDue]
@[simp] theorem execReplayTimeout_answers (port : Fin 3) (s : State) : Answers s (execReplayTimeout port s) := by simp [execReplayTimeout]
@[simp] theorem execPortTraining_answers (port : Fin 3) (r : PortResult) (s : State) : Answers s (execPortTraining port r s) := by
  simp [execPortTraining]
@[simp] theorem execLinkTrainRetry_answers (port : Fin 3) (s : State) : Answers s (execLinkTrainRetry port s) := by simp [execLinkTrainRetry]
@[simp] theorem execServiceAdaptation_answers (port : Fin 3) (lane : Fin 16) (eyeWidth eyeHeight ber : Word) (s : State) :
    Answers s (execServiceAdaptation port lane eyeWidth eyeHeight ber s) := by
  simp [execServiceAdaptation]

/-! ### CodeFlash.lean -/

@[simp] theorem execCodeFlashRead_answers (cls : Fin 4) (addr : BitVec 23) (count : BitVec 12) (sram : BitVec 28) (s : State) :
    Answers s (execCodeFlashRead cls addr count sram s) := by
  simp [execCodeFlashRead]
@[simp] theorem execCodeFlashProgram_answers (cls : Fin 4) (addr : BitVec 23) (sram : BitVec 28) (ws : List Word) (s : State) :
    Answers s (execCodeFlashProgram cls addr sram ws s) := by
  simp [execCodeFlashProgram]
@[simp] theorem execCodeFlashErase_answers (cls : Fin 4) (sector : Fin 4096) (hint : Word) (s : State) :
    Answers s (execCodeFlashErase cls sector hint s) := by
  simp [execCodeFlashErase]
@[simp] theorem execCodeFlashProtect_answers (cls : Fin 4) (sector : Fin 4096) (count : BitVec 12) (s : State) :
    Answers s (execCodeFlashProtect cls sector count s) := by
  simp [execCodeFlashProtect]
@[simp] theorem execOtpRead_answers (cls : Fin 4) (word : BitVec 11) (count : BitVec 12) (s : State) : Answers s (execOtpRead cls word count s) := by
  simp [execOtpRead]
@[simp] theorem execOtpProgram_answers (cls : Fin 4) (word : BitVec 11) (v : Word) (s : State) : Answers s (execOtpProgram cls word v s) := by
  simp [execOtpProgram]

/-! ### Training.lean -/

@[simp] theorem execThresholdSurvey_answers (c : Fin 96) (d : Fin 16) (ones : List (List (BitVec 16))) (headersOk : Bool) (s : State) :
    Answers s (execThresholdSurvey c d ones headersOk s) := by
  simp only [execThresholdSurvey]; (repeat' split) <;> simp

/-! ### Bringup.lean -/

@[simp] theorem execModRstNRise_answers (l2 l1 l0 : Fin 3) (manager : Bool) (s : State) : Answers s (execModRstNRise l2 l1 l0 manager s) := by
  simp [execModRstNRise]
@[simp] theorem execVddAonInRange_answers (s : State) : Answers s (execVddAonInRange s) := by simp [execVddAonInRange]
@[simp] theorem execVinGood_answers (s : State) : Answers s (execVinGood s) := by simp [execVinGood]
@[simp] theorem execFirmwareVerified_answers (s : State) : Answers s (execFirmwareVerified s) := by
  unfold execFirmwareVerified; (repeat' split) <;> simp
@[simp] theorem execRailPowerGood_answers (s : State) : Answers s (execRailPowerGood s) := by simp [execRailPowerGood]
@[simp] theorem execRailGroupHold_answers (s : State) : Answers s (execRailGroupHold s) := by simp [execRailGroupHold]
@[simp] theorem execRailSequenceTimeout_answers (k : Fin 12) (s : State) : Answers s (execRailSequenceTimeout k s) := by
  simp [execRailSequenceTimeout]
@[simp] theorem execRailRetry_answers (s : State) : Answers s (execRailRetry s) := by simp [execRailRetry]
@[simp] theorem execChannelTraining_answers (c : Fin 96) (r : ChannelResult) (s : State) : Answers s (execChannelTraining c r s) := by
  simp [execChannelTraining]
@[simp] theorem execDramTraining_answers (ranks : List RankResult) (s : State) : Answers s (execDramTraining ranks s) := by simp [execDramTraining]
@[simp] theorem execGroupWaitEnd_answers (s : State) : Answers s (execGroupWaitEnd s) := by simp [execGroupWaitEnd]
@[simp] theorem execServingModeEntry_answers (s : State) : Answers s (execServingModeEntry s) := by simp [execServingModeEntry]

/-! ### Measure.lean -/

@[simp] theorem execBankShorted_answers (s : State) : Answers s (execBankShorted s) := by simp [execBankShorted]
@[simp] theorem execHoldupChargeRetry_answers (s : State) : Answers s (execHoldupChargeRetry s) := by simp [execHoldupChargeRetry]
@[simp] theorem execHoldupTest_answers (s : State) : Answers s (execHoldupTest s) := by simp [execHoldupTest]
@[simp] theorem execHoldupTestPeriod_answers (s : State) : Answers s (execHoldupTestPeriod s) := by simp [execHoldupTestPeriod]
@[simp] theorem execHoldupTestEnd_answers (s : State) : Answers s (execHoldupTestEnd s) := by unfold execHoldupTestEnd; (repeat' split) <;> simp

/-! ### Group.lean -/

@[simp] theorem execArriveAll_answers (port : Fin 3) (h : PeerHdr) (s : State) : Answers s (execArriveAll port h s) := by simp [execArriveAll]
@[simp] theorem execEqxNRise_answers (s : State) : Answers s (execEqxNRise s) := by simp [execEqxNRise]
@[simp] theorem execEqxRearm_answers (s : State) : Answers s (execEqxRearm s) := by simp [execEqxRearm]
@[simp] theorem execEqxNFall_answers (s : State) : Answers s (execEqxNFall s) := by simp [execEqxNFall]
@[simp] theorem execBarrierTimeout_answers (s : State) : Answers s (execBarrierTimeout s) := by simp [execBarrierTimeout]
@[simp] theorem execSnapshotHoldLimit_answers (s : State) : Answers s (execSnapshotHoldLimit s) := by simp [execSnapshotHoldLimit]
@[simp] theorem execSnapshotDurable_answers (s : State) : Answers s (execSnapshotDurable s) := by simp [execSnapshotDurable]
@[simp] theorem execSnapshotGather_answers (port : Fin 3) (h : PeerHdr) (s : State) : Answers s (execSnapshotGather port h s) := by
  simp [execSnapshotGather]
@[simp] theorem execSnapshotReport_answers (port : Fin 3) (h : PeerHdr) (s : State) : Answers s (execSnapshotReport port h s) := by
  simp [execSnapshotReport]
@[simp] theorem execTransferUnitSend_answers (outcomes : List PageOutcome) (s : State) : Answers s (execTransferUnitSend outcomes s) := by
  simp only [execTransferUnitSend]; (repeat' split) <;> simp
@[simp] theorem execTransferData_answers (port : Fin 3) (h : PeerHdr) (frame : Payload) (s : State) :
    Answers s (execTransferData port h frame s) := by
  simp [execTransferData]
@[simp] theorem execTransferAck_answers (port : Fin 3) (h : PeerHdr) (s : State) : Answers s (execTransferAck port h s) := by simp [execTransferAck]
@[simp] theorem execResetPrepare_answers (port : Fin 3) (h : PeerHdr) (s : State) : Answers s (execResetPrepare port h s) := by
  simp [execResetPrepare]
@[simp] theorem execDrainComplete_answers (s : State) : Answers s (execDrainComplete s) := by simp [execDrainComplete]
@[simp] theorem execDrained_answers (port : Fin 3) (h : PeerHdr) (s : State) : Answers s (execDrained port h s) := by simp [execDrained]
@[simp] theorem execResetDrainLimit_answers (s : State) : Answers s (execResetDrainLimit s) := by simp [execResetDrainLimit]
@[simp] theorem execDiscoverTimer_answers (s : State) : Answers s (execDiscoverTimer s) := by simp [execDiscoverTimer]
@[simp] theorem execDiscover_answers (port : Fin 3) (h : PeerHdr) (s : State) : Answers s (execDiscover port h s) := by simp [execDiscover]
@[simp] theorem execJoinRequest_answers (port : Fin 3) (h : PeerHdr) (s : State) : Answers s (execJoinRequest port h s) := by simp [execJoinRequest]
@[simp] theorem execGrant_answers (port : Fin 3) (h : PeerHdr) (s : State) : Answers s (execGrant port h s) := by simp [execGrant]
@[simp] theorem execRoster_answers (port : Fin 3) (h : PeerHdr) (s : State) : Answers s (execRoster port h s) := by simp [execRoster]
@[simp] theorem execHeartbeatTimer_answers (s : State) : Answers s (execHeartbeatTimer s) := by simp [execHeartbeatTimer]
@[simp] theorem execHeartbeat_answers (port : Fin 3) (h : PeerHdr) (s : State) : Answers s (execHeartbeat port h s) := by simp [execHeartbeat]
@[simp] theorem execStatus_answers (port : Fin 3) (h : PeerHdr) (s : State) : Answers s (execStatus port h s) := by simp [execStatus]
@[simp] theorem execMemberUnreachable_answers (k : Fin 16) (s : State) : Answers s (execMemberUnreachable k s) := by simp [execMemberUnreachable]
@[simp] theorem execManagerUnreachable_answers (s : State) : Answers s (execManagerUnreachable s) := by simp [execManagerUnreachable]
@[simp] theorem execLeave_answers (port : Fin 3) (h : PeerHdr) (s : State) : Answers s (execLeave port h s) := by simp [execLeave]

/-! ### Power.lean -/

@[simp] theorem execPowerStateEntry_answers (s : State) : Answers s (execPowerStateEntry s) := by unfold execPowerStateEntry; (repeat' split) <;> simp
@[simp] theorem execAutoPoise_answers (s : State) : Answers s (execAutoPoise s) := by simp [execAutoPoise]
@[simp] theorem execSaveTimer_answers (s : State) : Answers s (execSaveTimer s) := by simp [execSaveTimer]
@[simp] theorem execPowerEnterS1_answers (port : Fin 3) (ctl : FlitCtl) (s : State) : Answers s (execPowerEnterS1 port ctl s) := by
  simp [execPowerEnterS1]
@[simp] theorem execPowerEnterS2_answers (port : Fin 3) (ctl : FlitCtl) (s : State) : Answers s (execPowerEnterS2 port ctl s) := by
  simp [execPowerEnterS2]
@[simp] theorem execPowerEnterDeep_answers (port : Fin 3) (ctl : FlitCtl) (s : State) : Answers s (execPowerEnterDeep port ctl s) := by
  simp [execPowerEnterDeep]
@[simp] theorem execPowerAcknowledge_answers (port : Fin 3) (ctl : FlitCtl) (s : State) : Answers s (execPowerAcknowledge port ctl s) := by
  simp [execPowerAcknowledge]
@[simp] theorem execPowerVigil_answers (port : Fin 3) (ctl : FlitCtl) (s : State) : Answers s (execPowerVigil port ctl s) := by simp [execPowerVigil]
@[simp] theorem execWakePattern_answers (port : Fin 3) (s : State) : Answers s (execWakePattern port s) := by simp [execWakePattern]

/-! ### Faults.lean -/

@[simp] theorem execHandshakeWatchdog_answers (cls : Fin 8) (stage : Fin 4096) (pepper : Bool) (s : State) :
    Answers s (execHandshakeWatchdog cls stage pepper s) := by
  simp only [execHandshakeWatchdog]; (repeat' split) <;> simp
@[simp] theorem execVidStepWaitEnd_answers (s : State) : Answers s (execVidStepWaitEnd s) := by simp [execVidStepWaitEnd]
@[simp] theorem execVidLower_answers (s : State) : Answers s (execVidLower s) := by simp [execVidLower]
@[simp] theorem execStageWedged_answers (cls : Fin 8) (stage : Fin 4096) (pepper : Bool) (s : State) :
    Answers s (execStageWedged cls stage pepper s) := by
  simp only [execStageWedged]; (repeat' split) <;> simp
@[simp] theorem execStageSelfTest_answers (cls : Fin 8) (stage : Fin 4096) (passed : Bool) (s : State) :
    Answers s (execStageSelfTest cls stage passed s) := by
  simp [execStageSelfTest]
@[simp] theorem execMemberLoss_answers (set : Fin 8) (s : State) : Answers s (execMemberLoss set s) := by simp [execMemberLoss]
@[simp] theorem execWardenWatchdog_answers (core : Fin 4) (s : State) : Answers s (execWardenWatchdog core s) := by simp [execWardenWatchdog]
@[simp] theorem execWardenFault_answers (core : Fin 4) (parity : Bool) (s : State) : Answers s (execWardenFault core parity s) := by
  simp [execWardenFault]

/-! ### Almanac.lean -/

@[simp] theorem execTestVerifyDone_answers (p : Path) (s : State) : Answers s (execTestVerifyDone p s) := by simp [execTestVerifyDone]

/-! ### DramServe.lean -/

@[simp] theorem execDramPick_answers (sub : Fin 8) (burst : BurstRead) (s : State) : Answers s (execDramPick sub burst s) := by
  simp only [execDramPick]; (repeat' split) <;> simp
@[simp] theorem execRegionRecoveryDone_answers (i : Nat) (s : State) : Answers s (execRegionRecoveryDone i s) := by
  simp only [execRegionRecoveryDone]; (repeat' split) <;> simp

/-! ### Service.lean -/

@[simp] theorem execRestoreDefaults_answers (p : Path) (tag : BitVec 8) (v : Word) (s : State) : Answers s (execRestoreDefaults p tag v s) := by
  simp [execRestoreDefaults]
@[simp] theorem execTestUnlock_answers (p : Path) (tag : BitVec 8) (s : State) : Answers s (execTestUnlock p tag s) := by simp [execTestUnlock]
@[simp] theorem execTestLock_answers (p : Path) (tag : BitVec 8) (s : State) : Answers s (execTestLock p tag s) := by simp [execTestLock]
@[simp] theorem execQueryReadReset_answers (p : Path) (tag : BitVec 8) (c : Fin 96) (s : State) : Answers s (execQueryReadReset p tag c s) := by
  simp [execQueryReadReset]
@[simp] theorem execHostSlotsPeakRead_answers (p : Path) (tag : BitVec 8) (s : State) : Answers s (execHostSlotsPeakRead p tag s) := by
  simp [execHostSlotsPeakRead]
@[simp] theorem execSoftQueuePeakRead_answers (p : Path) (tag : BitVec 8) (s : State) : Answers s (execSoftQueuePeakRead p tag s) := by
  simp [execSoftQueuePeakRead]
@[simp] theorem execReorderPeakRead_answers (p : Path) (tag : BitVec 8) (s : State) : Answers s (execReorderPeakRead p tag s) := by
  simp [execReorderPeakRead]
@[simp] theorem execSampleRead_answers (p : Path) (tag : BitVec 8) (i : Fin 48) (s : State) : Answers s (execSampleRead p tag i s) := by
  simp [execSampleRead]
@[simp] theorem execSubmissionRingEnable_answers (p : Path) (tag : BitVec 8) (ring : Fin 8192) (v : Bool) (s : State) :
    Answers s (execSubmissionRingEnable p tag ring v s) := by
  simp [execSubmissionRingEnable]
@[simp] theorem execCompletionRingEnable_answers (p : Path) (tag : BitVec 8) (ring : Fin 4096) (v : Bool) (s : State) :
    Answers s (execCompletionRingEnable p tag ring v s) := by
  simp [execCompletionRingEnable]
@[simp] theorem execAbortRing_answers (p : Path) (tag : BitVec 8) (ring : Fin 8192) (s : State) : Answers s (execAbortRing p tag ring s) := by
  simp [execAbortRing]
@[simp] theorem execRecalibrate_answers (p : Path) (tag : BitVec 8) (c : Fin 96) (s : State) : Answers s (execRecalibrate p tag c s) := by
  simp [execRecalibrate]
@[simp] theorem execAdminIsolate_answers (p : Path) (tag : BitVec 8) (c : Fin 96) (s : State) : Answers s (execAdminIsolate p tag c s) := by
  simp [execAdminIsolate]
@[simp] theorem execCalendsNow_answers (p : Path) (tag : BitVec 8) (v : Duo) (s : State) : Answers s (execCalendsNow p tag v s) := by
  simp [execCalendsNow]
@[simp] theorem execRebuildStart_answers (p : Path) (tag : BitVec 8) (set : Fin 8) (s : State) : Answers s (execRebuildStart p tag set s) := by
  simp [execRebuildStart]
@[simp] theorem execPlanCommit_answers (p : Path) (tag : BitVec 8) (s : State) : Answers s (execPlanCommit p tag s) := by simp [execPlanCommit]
@[simp] theorem execRetireCommit_answers (p : Path) (tag : BitVec 8) (s : State) : Answers s (execRetireCommit p tag s) := by simp [execRetireCommit]
@[simp] theorem execLossAck_answers (p : Path) (tag : BitVec 8) (v : Duo) (s : State) : Answers s (execLossAck p tag v s) := by simp [execLossAck]
@[simp] theorem execLogicalUnits_answers (p : Path) (tag : BitVec 8) (set : Fin 8) (v : Duo) (s : State) :
    Answers s (execLogicalUnits p tag set v s) := by
  simp [execLogicalUnits]
@[simp] theorem execRetireRank_answers (p : Path) (tag : BitVec 8) (sub : Fin 8) (v : Fin 2) (s : State) :
    Answers s (execRetireRank p tag sub v s) := by
  simp [execRetireRank]
@[simp] theorem execHelperStart_answers (p : Path) (tag : BitVec 8) (s : State) : Answers s (execHelperStart p tag s) := by simp [execHelperStart]
@[simp] theorem execRetrain_answers (p : Path) (tag : BitVec 8) (port : Fin 3) (s : State) : Answers s (execRetrain p tag port s) := by
  simp [execRetrain]
@[simp] theorem execFullTrain_answers (p : Path) (tag : BitVec 8) (port : Fin 3) (s : State) : Answers s (execFullTrain p tag port s) := by
  simp [execFullTrain]
@[simp] theorem execLinkResetWrite_answers (p : Path) (tag : BitVec 8) (port : Fin 3) (s : State) : Answers s (execLinkResetWrite p tag port s) := by
  simp [execLinkResetWrite]
@[simp] theorem execHoldupTestStart_answers (p : Path) (tag : BitVec 8) (s : State) : Answers s (execHoldupTestStart p tag s) := by
  simp [execHoldupTestStart]
@[simp] theorem execResetDevice_answers (p : Path) (tag : BitVec 8) (s : State) : Answers s (execResetDevice p tag s) := by simp [execResetDevice]
@[simp] theorem execCalSelect_answers (p : Path) (tag : BitVec 8) (s : State) : Answers s (execCalSelect p tag s) := by simp [execCalSelect]
@[simp] theorem execCalImport_answers (p : Path) (tag : BitVec 8) (s : State) : Answers s (execCalImport p tag s) := by simp [execCalImport]
@[simp] theorem execGroupLeave_answers (p : Path) (tag : BitVec 8) (s : State) : Answers s (execGroupLeave p tag s) := by simp [execGroupLeave]
@[simp] theorem execRelayGo_answers (p : Path) (tag : BitVec 8) (s : State) : Answers s (execRelayGo p tag s) := by simp [execRelayGo]
@[simp] theorem execEquinoxArrive_answers (p : Path) (tag : BitVec 8) (v : Duo) (s : State) : Answers s (execEquinoxArrive p tag v s) := by
  simp [execEquinoxArrive]
@[simp] theorem execStartAll_answers (p : Path) (tag : BitVec 8) (v : Duo) (s : State) : Answers s (execStartAll p tag v s) := by simp [execStartAll]
@[simp] theorem execBoardResetOrderly_answers (p : Path) (tag : BitVec 8) (s : State) : Answers s (execBoardResetOrderly p tag s) := by
  simp [execBoardResetOrderly]
@[simp] theorem execBoardResetImmediate_answers (p : Path) (tag : BitVec 8) (s : State) : Answers s (execBoardResetImmediate p tag s) := by
  simp [execBoardResetImmediate]
@[simp] theorem execTransferStart_answers (p : Path) (tag : BitVec 8) (s : State) : Answers s (execTransferStart p tag s) := by
  simp [execTransferStart]
@[simp] theorem execTransferStop_answers (p : Path) (tag : BitVec 8) (s : State) : Answers s (execTransferStop p tag s) := by simp [execTransferStop]
@[simp] theorem execAllDataRate_answers (p : Path) (tag : BitVec 8) (v : Word) (s : State) : Answers s (execAllDataRate p tag v s) := by
  simp [execAllDataRate]
@[simp] theorem execAllDriveCode_answers (p : Path) (tag : BitVec 8) (v : Word) (s : State) : Answers s (execAllDriveCode p tag v s) := by
  simp [execAllDriveCode]
@[simp] theorem execAllOdtCode_answers (p : Path) (tag : BitVec 8) (v : Word) (s : State) : Answers s (execAllOdtCode p tag v s) := by
  simp [execAllOdtCode]
@[simp] theorem execAllThrottleLimit_answers (p : Path) (tag : BitVec 8) (v : Word) (s : State) : Answers s (execAllThrottleLimit p tag v s) := by
  simp [execAllThrottleLimit]
@[simp] theorem execUpdateCommit_answers (p : Path) (tag : BitVec 8) (s : State) : Answers s (execUpdateCommit p tag s) := by simp [execUpdateCommit]
@[simp] theorem execProtectStandby_answers (p : Path) (tag : BitVec 8) (s : State) : Answers s (execProtectStandby p tag s) := by
  simp [execProtectStandby]
@[simp] theorem execCfRead_answers (p : Path) (tag : BitVec 8) (s : State) : Answers s (execCfRead p tag s) := by simp [execCfRead]
@[simp] theorem execDumpRequest_answers (p : Path) (tag : BitVec 8) (s : State) : Answers s (execDumpRequest p tag s) := by simp [execDumpRequest]
@[simp] theorem execDumpRelease_answers (p : Path) (tag : BitVec 8) (s : State) : Answers s (execDumpRelease p tag s) := by simp [execDumpRelease]
@[simp] theorem execCustomerKeyBurn_answers (p : Path) (tag : BitVec 8) (s : State) : Answers s (execCustomerKeyBurn p tag s) := by
  simp [execCustomerKeyBurn]
@[simp] theorem execRaiseSecurityVersion_answers (p : Path) (tag v : BitVec 8) (s : State) : Answers s (execRaiseSecurityVersion p tag v s) := by
  simp [execRaiseSecurityVersion]
@[simp] theorem execClear_answers (p : Path) (tag : BitVec 8) (source : Fin 1536) (s : State) : Answers s (execClear p tag source s) := by
  simp [execClear]
@[simp] theorem execPepperEnable_answers (p : Path) (tag : BitVec 8) (v : Bool) (s : State) : Answers s (execPepperEnable p tag v s) := by
  simp [execPepperEnable]
@[simp] theorem execPepperClearAll_answers (p : Path) (tag : BitVec 8) (s : State) : Answers s (execPepperClearAll p tag s) := by
  simp [execPepperClearAll]
@[simp] theorem execForceRealign_answers (p : Path) (tag : BitVec 8) (s : State) : Answers s (execForceRealign p tag s) := by simp [execForceRealign]
@[simp] theorem execSupplyLoss_answers (p : Path) (tag : BitVec 8) (s : State) : Answers s (execSupplyLoss p tag s) := by simp [execSupplyLoss]

/-! ### Peer.lean -/

@[simp] theorem execPeerMgmtResponse_answers (port : Fin 3) (h : PeerHdr) (ws : List Word) (s : State) :
    Answers s (execPeerMgmtResponse port h ws s) := by
  simp [execPeerMgmtResponse]
@[simp] theorem execRelayTimeout_answers (p : Path) (s : State) : Answers s (execRelayTimeout p s) := by
  simp only [execRelayTimeout]; (repeat' split) <;> simp

/-! ### Sideband.lean -/

@[simp] theorem execSbReadTransfer_answers (port : Fin 2) (s : State) : Answers s (execSbReadTransfer port s) := by simp [execSbReadTransfer]
@[simp] theorem execStretchTimeout_answers (port : Fin 2) (s : State) : Answers s (execStretchTimeout port s) := by simp [execStretchTimeout]
@[simp] theorem execSclLowTimeout_answers (port : Fin 2) (s : State) : Answers s (execSclLowTimeout port s) := by simp [execSclLowTimeout]
@[simp] theorem execSdaStuckRelease_answers (port : Fin 2) (s : State) : Answers s (execSdaStuckRelease port s) := by simp [execSdaStuckRelease]
@[simp] theorem execHangRecovery_answers (port : Fin 2) (s : State) : Answers s (execHangRecovery port s) := by simp [execHangRecovery]
@[simp] theorem execSb1RstN_answers (s : State) : Answers s (execSb1RstN s) := by simp [execSb1RstN]
@[simp] theorem execSb1RstNRise_answers (s : State) : Answers s (execSb1RstNRise s) := by simp [execSb1RstNRise]

/-! ### HostAccess.lean -/

@[simp] theorem execMemReadReq_answers (tag : BitVec 13) (addr : Duo) (n : BitVec 13) (s : State) : Answers s (execMemReadReq tag addr n s) := by
  simp [execMemReadReq]

end Sys2Proof.Machine
end

section
/-! SUPPORT. Proofs of the scope family (00_scope.md): what a step takes and what every step keeps. -/

namespace Sys2Proof.Machine

/-- Every command answers a next state, with the queue that it found and the window's canonical form kept. -/
theorem exec_answers (c : Instr) (s : State) : Answers s (exec c s) := by
  cases c <;> simp [exec]

/-- A step is the front command's effect on the state with the queue's rest, or an idle microsecond. -/
theorem step_of_pending_cons {s : State} {c : Instr} {rest : List Instr} (h : s.pending = c :: rest) :
    step s = exec c { s with pending := rest } := by
  simp [step, h]

theorem step_of_pending_nil {s : State} (h : s.pending = []) : step s = .next (idle s) := by
  simp [step, h]

/-- Every step answers a next state whose queue is the rest of the queue, with the window's canonical form kept. -/
theorem step_answers (s : State) : ∃ t, step s = .next t ∧ Keeps (s.pending.drop 1, s.win) t.carried := by
  cases h : s.pending with
  | nil => exact ⟨idle s, step_of_pending_nil h, idle_keeps (by simp [State.carried, h])⟩
  | cons c rest =>
    obtain ⟨t, ht, hk⟩ := exec_answers c { s with pending := rest }
    exact ⟨t, (step_of_pending_cons h).trans ht, by simpa using hk⟩

/-- Settles O1: the two branches of `step`. -/
theorem stepTakesTheFrontCommand : Obligations.StepTakesTheFrontCommand :=
  ⟨fun _ _ _ => step_of_pending_cons, fun _ => step_of_pending_nil⟩

/-- Settles O2: what `exec_answers` and `step_answers` say of the outcome. -/
theorem everyCommandGoesOn : Obligations.EveryCommandGoesOn := by
  refine ⟨fun c s => ?_, fun s => ?_⟩
  · obtain ⟨t, ht, -⟩ := exec_answers c s
    exact ⟨t, ht⟩
  · obtain ⟨t, ht, -⟩ := step_answers s
    exact ⟨t, ht⟩

/-- Settles O3: what `exec_answers` and `step_answers` say of the queue; the next state is the only one. -/
theorem stepTakesExactlyOneCommand : Obligations.StepTakesExactlyOneCommand := by
  refine ⟨fun c s t h => ?_, fun s t h => ?_⟩
  · obtain ⟨u, hu, hq, -⟩ := exec_answers c s
    obtain rfl : u = t := Host.Outcome.next.inj (hu.symm.trans h)
    exact hq
  · obtain ⟨u, hu, hq, -⟩ := step_answers s
    obtain rfl : u = t := Host.Outcome.next.inj (hu.symm.trans h)
    exact hq

/-- Settles O4: what `step_answers` says of the window. -/
theorem stepKeepsWindowCanonical : Obligations.StepKeepsWindowCanonical := by
  intro s t hs h
  obtain ⟨u, hu, -, hw⟩ := step_answers s
  obtain rfl : u = t := Host.Outcome.next.inj (hu.symm.trans h)
  exact hw hs

end Sys2Proof.Machine
end

section
/-! SUPPORT. Proofs of the events and faults family (17_events_faults_test.md): occurrences and Clear, trips and wedges that Pepper causes, wedged
stages and warden faults. -/

namespace Sys2Proof.Machine

/-! ## An occurrence of an event source (R472, R474) -/

/-- The index of an object's key. -/
theorem key_div {idx sub : Nat} (h : sub < 256) : key idx sub / 256 = idx := by
  unfold key
  omega

/-- An occurrence without its log record leaves its source latched (R472). -/
theorem occurQuiet_latched (n arg : Nat) (s : State) : (occurQuiet n arg s).flag (K.evLatched n) = true := by
  have hpending : K.evLatched n ≠ K.evPending n := evKey_ne_of_sub (by decide)
  unfold occurQuiet
  extract_lets s₁ s₂ s₃ s₄
  have h₄ : s₄.flag (K.evLatched n) = true := by
    dsimp only [s₄]
    split
    case isTrue hlatched => exact hlatched
    case isFalse => unfold State.when; split <;> simp [State.flag, State.get]
  split
  · split
    · exact h₄
    · exact (congrArg (fun v => decide (v ≠ 0)) (State.get_set_ne s₄ 1 hpending)).trans h₄
  · exact h₄

/-- An occurrence leaves its source latched (R472): the log record that may follow writes at most the objects of LogThrottled. -/
theorem occur_latched (n arg : Nat) (s : State) : (occur n arg s).flag (K.evLatched n) = true := by
  unfold occur
  extract_lets logged t
  have ht : t.flag (K.evLatched n) = true := occurQuiet_latched n arg s
  unfold State.when
  split
  case isTrue hlog =>
    have hn : n ≠ 1172 := by simpa using (Bool.and_eq_true_iff.mp hlog).2
    have hkey : K.evLatched n / 256 ≠ 0xD000 + 1172 := by rw [key_div (by decide)]; omega
    rwa [State.flag, logEvent_get n arg t hkey]
  case isFalse => exact ht

/-- The events but their queue, the coalesced counts and ChangeCount, which an occurrence changes. -/
def Events.lasting (e : Events) : Events := { e with queue := [], coalesced := [], changeCount := 0 }

/-- What an operation keeps, it keeps where it may be left out. -/
theorem State.when_same {α : Type} (proj : State → α) {f : State → State} {s : State} {b : Bool} (h : proj (f s) = proj s) :
    proj (s.when b f) = proj s := by
  cases b
  · rfl
  · exact h

theorem cfNext_ev (s : State) : (cfNext s).ev = s.ev := by
  unfold cfNext
  split
  · rfl
  · dsimp only
    split <;> rfl

theorem cfPush_ev (opcode cls addr count sram : Nat) (data : List Word) (why : CfPurpose) (s : State) :
    (cfPush opcode cls addr count sram data why s).ev = s.ev := cfNext_ev _

theorem cfAppend_ev (a : Area) (cls : Nat) (ws : List Word) (why : CfPurpose) (s : State) : (cfAppend a cls ws why s).ev = s.ev := by
  unfold cfAppend
  generalize areaSpan a = span
  obtain ⟨base, n⟩ := span
  dsimp only
  rw [cfPush_ev, State.when_same State.ev (cfPush_ev ..)]

theorem occurQuiet_lasting (n arg : Nat) (s : State) : (occurQuiet n arg s).ev.lasting = s.ev.lasting := by
  unfold occurQuiet
  extract_lets s₁ s₂ s₃ s₄ s₅
  have h₄ : s₄.ev.lasting = s.ev.lasting := by
    dsimp only [s₄]
    split
    · rfl
    · unfold State.when; split <;> rfl
  split
  · split <;> exact h₄
  · exact h₄

theorem logEvent_lasting (n arg : Nat) (s : State) : (logEvent n arg s).ev.lasting = s.ev.lasting := by
  unfold logEvent
  split
  · rfl
  · split
    · split
      · rfl
      · exact occurQuiet_lasting 1172 0 s
    · unfold logWrite
      extract_lets recent r
      split
      · exact congrArg Events.lasting (cfAppend_ev ..)
      · exact occurQuiet_lasting 1172 0 _

theorem occur_lasting (n arg : Nat) (s : State) : (occur n arg s).ev.lasting = s.ev.lasting := by
  unfold occur
  extract_lets logged t
  have ht : t.ev.lasting = s.ev.lasting := occurQuiet_lasting n arg s
  unfold State.when
  split
  · exact (logEvent_lasting n arg t).trans ht
  · exact ht

/-- An occurrence neither requests nor cancels a raise of VDD_CORE. -/
theorem occur_vidPending (n arg : Nat) (s : State) : (occur n arg s).ev.vidPending = s.ev.vidPending := by
  have h : (occur n arg s).ev.lasting.vidPending = s.ev.lasting.vidPending := congrArg Events.vidPending (occur_lasting n arg s)
  exact h

/-! ## Clear (R474) -/

theorem clearEffect_latched (n : Nat) (s : State) : (clearEffect n s).get (K.evLatched n) = 0 := State.get_set_self ..

theorem clearEffect_get {n j : Nat} (h : j ≠ K.evLatched n) (s : State) : (clearEffect n s).get j = s.get j := State.get_set_ne _ _ h

/-- The objects of a source that does not exist do not exist (R489). -/
theorem rowsAt_absentSource {n : Nat} (hn : n < 1536) (hx : sourceExists n = false) : rowsAt (0xD000 + n) = none := by
  have hsource : ¬ (0xD000 ≤ 0xD000 + n ∧ 0xD000 + n < 0xD600 ∧ sourceExists (0xD000 + n - 0xD000) = true) := by
    rw [Nat.add_sub_cancel_left, hx]
    exact fun h => Bool.false_ne_true h.2.2
  unfold rowsAt
  have hlow : 0xD000 ≤ 0xD000 + n := Nat.le_add_right ..
  have hhigh : 0xD000 + n < 0xD600 := by omega
  generalize 0xD000 + n = idx at hsource hlow hhigh
  iterate 11 rw [if_neg (by omega)]
  rw [if_neg hsource]
  split <;> first | rfl | omega

/-- A write to an object that is no violation names an object that exists. -/
theorem rowsAt_of_mayWrite {s : State} {p : Path} {idx sub v : Nat} (h : s.mayWrite p idx sub v = true) (h0 : sub ≠ 0) : rowsAt idx ≠ none := by
  intro hrows
  have hnone : objAt idx sub = none := by
    unfold objAt rowOf
    rw [if_neg h0, hrows]
  unfold State.mayWrite at h
  rw [hnone] at h
  exact Bool.false_ne_true h

/-- A source whose Clear may be written exists (R489). -/
theorem sourceExists_of_mayWrite {s : State} {p : Path} (n : Fin 1536) {sub v : Nat} (h : s.mayWrite p (0xD000 + n.val) sub v = true) (h0 : sub ≠ 0) :
    sourceExists n.val = true := by
  cases hx : sourceExists n.val with
  | true => rfl
  | false => exact absurd (rowsAt_absentSource n.isLt hx) (rowsAt_of_mayWrite h h0)

/-- A write of 1 to the Clear of a source is answered after its effect (R49, R474). -/
theorem exec_clear {p : Path} {s : State} (tag : BitVec 8) (n : Fin 1536) (hm : s.awake.mayWrite p (0xD000 + n.val) 7 1 = true) :
    exec (.clear p tag n) s = .next (respond p 1 (oneHeader tag (0xD000 + n.val) 7 1) [] (clearEffect n s.awake)) := by
  have hx := sourceExists_of_mayWrite n hm (by decide)
  have heff : writeEffect p (0xD000 + n.val) 7 n.val (1 &&& allOnes40) s.awake = clearEffect n s.awake :=
    (writeEffect_source p 7 n.val 1 s.awake (by omega) (by omega)).trans ((if_pos rfl).trans (if_pos rfl))
  exact congrArg Host.Outcome.next
    (serve_write_group tag (wordsNat_one 1) hm (objAt_source n (by decide) hx rfl) (by omega) (by decide) rfl (by decide) rfl heff)

/-- Settles O48: Clear sets Latched and nothing else, and every occurrence sets it. -/
theorem clearOfAnEventSource : Obligations.ClearOfAnEventSource := by
  intro n s
  have hcount : K.evCount n ≠ K.evLatched n := evKey_ne_of_sub (by decide)
  have hpending : K.evPending n ≠ K.evLatched n := evKey_ne_of_sub (by decide)
  refine ⟨clearEffect_latched n s, clearEffect_get hcount s, clearEffect_get hpending s, rfl, fun arg => occur_latched n arg _,
    fun arg hn => ⟨clearEffect_latched n _, ?_⟩, fun p tag hm => exec_clear tag n hm⟩
  rw [clearEffect_get hcount, occur_count hn]

/-! ## Trips and wedges that Pepper causes (R484) -/

/-- A change of PepperActive is at most one occurrence of PepperChange (R479, R485). -/
theorem pepperChanged_eq (was : Bool) (s : State) : pepperChanged was s = s ∨ ∃ arg, pepperChanged was s = occur 1233 arg s := by
  unfold pepperChanged
  split
  · exact .inl rfl
  · exact .inr ⟨_, rfl⟩

theorem pepperChanged_get (was : Bool) (s : State) {j : Nat} (h : j / 256 ≠ 0xD000 + 1233) (h' : j / 256 ≠ 0xD000 + 1172) :
    (pepperChanged was s).get j = s.get j := by
  obtain heq | ⟨arg, heq⟩ := pepperChanged_eq was s <;> rw [heq]
  exact occur_get _ _ _ h h'

theorem pepperChanged_vidPending (was : Bool) (s : State) : (pepperChanged was s).ev.vidPending = s.ev.vidPending := by
  obtain heq | ⟨arg, heq⟩ := pepperChanged_eq was s <;> rw [heq]
  exact occur_vidPending ..

theorem pepperChanged_rings (was : Bool) (s : State) : (pepperChanged was s).rings = s.rings := by
  obtain heq | ⟨arg, heq⟩ := pepperChanged_eq was s <;> rw [heq]
  exact occur_rings ..

/-- What a trip that Pepper causes does after its occurrence: one phase fewer is delayed (R484). -/
def pepperTrip (cls : Nat) (s : State) : State :=
  if s.get (K.stagePhases cls) = 0 ∨ s.get (K.stagePhases cls) = 0xFFFFF then s
  else pepperChanged s.pepperActive (s.set (K.stagePhases cls) (s.get (K.stagePhases cls) - 1))

theorem exec_handshakeWatchdog_forced (cls : Fin 8) (stage : Fin 4096) {s : State} (h : s.flag K.pepperEnable = true) :
    exec (.handshakeWatchdog cls stage true) s
      = .next (pepperTrip cls ((occur (1152 + cls) stage s).modEv (fun e => { e with tripAt := some s.now }))) := by
  have henabled : ((occur (1152 + cls) stage s).modEv (fun e => { e with tripAt := some s.now })).flag K.pepperEnable = true := by
    rw [← h]
    exact congrArg (fun v => decide (v ≠ 0)) (occur_get _ _ s (by rw [key_div (by decide)]; omega) (by rw [key_div (by decide)]; omega))
  simp only [exec, execHandshakeWatchdog, henabled, Bool.and_self, if_true]
  rfl

/-- A trip that Pepper causes changes StagePhases and at most the objects of PepperChange and LogThrottled. -/
theorem pepperTrip_get (cls : Nat) (s : State) {j : Nat} (hphases : j / 256 ≠ 0xE012) (h : j / 256 ≠ 0xD000 + 1233) (h' : j / 256 ≠ 0xD000 + 1172)
    (hcls : cls < 8) : (pepperTrip cls s).get j = s.get j := by
  unfold pepperTrip
  split
  · rfl
  · rw [pepperChanged_get _ _ h h', State.get_set_ne]
    rintro rfl
    exact hphases (key_div (by omega))

theorem pepperTrip_vidPending (cls : Nat) (s : State) : (pepperTrip cls s).ev.vidPending = s.ev.vidPending := by
  unfold pepperTrip
  split
  · rfl
  · exact pepperChanged_vidPending ..

theorem pepperTrip_rings (cls : Nat) (s : State) : (pepperTrip cls s).rings = s.rings := by
  unfold pepperTrip
  split
  · rfl
  · exact pepperChanged_rings ..

/-- Settles O49: the trip is its occurrence, its time and one phase fewer; STAGE_WEDGED does not look at what Pepper does. -/
theorem pepperTripsAndWedges : Obligations.PepperTripsAndWedges := by
  intro cls stage s
  refine ⟨fun henable => ⟨_, exec_handshakeWatchdog_forced cls stage henable, ?_⟩, rfl⟩
  have hcls := cls.isLt
  have hget {j : Nat} (hphases : j / 256 ≠ 0xE012) (h : j / 256 ≠ 0xD000 + 1233) (h' : j / 256 ≠ 0xD000 + 1172) :=
    pepperTrip_get cls ((occur (1152 + cls) stage s).modEv (fun e => { e with tripAt := some s.now })) hphases h h' hcls
  refine ⟨?count, ?latched, ?code, ?raises, ?pending, ?rings⟩
  case count =>
    rw [hget (by rw [key_div (by decide)]; omega) (by rw [key_div (by decide)]; omega) (by rw [key_div (by decide)]; omega)]
    exact occur_count (by omega) stage s
  case latched =>
    rw [State.flag, hget (by rw [key_div (by decide)]; omega) (by rw [key_div (by decide)]; omega) (by rw [key_div (by decide)]; omega)]
    exact occur_latched (1152 + cls) stage s
  case code =>
    rw [hget (by decide) (by decide) (by decide)]
    exact occur_get _ _ s (by rw [key_div (by decide)]; omega) (by decide)
  case raises =>
    rw [hget (by decide) (by decide) (by decide)]
    exact occur_get _ _ s (by rw [key_div (by decide)]; omega) (by decide)
  case pending => exact (pepperTrip_vidPending ..).trans (occur_vidPending ..)
  case rings => exact (pepperTrip_rings ..).trans (occur_rings ..)

/-! ## Wedged stages and warden faults (R481 to R483) -/

/-- A warden dump starts or does not: of the objects only DumpState changes (R467). -/
theorem faultDump_get (s : State) {j : Nat} (h : j ≠ K.dumpState) : (faultDump s).get j = s.get j := by
  unfold faultDump startDump
  split
  · rfl
  · split
    · rfl
    · dsimp only
      rw [State.get_of_objs (cfPush_objs ..)]
      exact State.get_set_ne _ _ h

/-- An occurrence with its dump leaves the mode. -/
theorem faultDump_occur_mode (n arg : Nat) (s : State) (hn : n < 1536) : (faultDump (occur n arg s)).mode = s.mode := by
  rw [State.mode, faultDump_get _ (by decide), occur_get _ _ _ (by rw [key_div (by decide)]; omega) (by decide)]

section
variable {s : State} {cls : Fin 8} {stage : Fin 4096} {b : Bool}

theorem exec_stageWedged_of_first (hcold : s.mode ≠ 0) (hvigil : s.mode ≠ 5) (hwedged : (cls.val, stage.val) ∉ s.ev.wedged)
    (hfenced : (cls.val, stage.val) ∉ s.ev.fenced)
    (hcleaned : (s.ev.cleaned.any (fun e => decide (e.1 = cls.val) && decide (e.2.1 = stage.val) && decide (s.now < e.2.2 + 60000000))) = false) :
    exec (.stageWedged cls stage b) s = .next (leaveUnheld (wedgeAbort cls stage (deriveMode ((faultDump (occur (1160 + cls) stage s)).modEv
      (fun e => { e with wedged := e.wedged ++ [(cls.val, stage.val)] }))))) := by
  have hmode := faultDump_occur_mode (1160 + cls) stage s (by omega)
  simp only [exec, execStageWedged, hcleaned, if_neg (not_or.mpr ⟨hwedged, hfenced⟩), Bool.false_eq_true, if_false, Nat.add_zero]
  exact congrArg Host.Outcome.next (if_neg (not_or.mpr ⟨fun h => hcold (hmode.symm.trans h), fun h => hvigil (hmode.symm.trans h)⟩))

theorem exec_stageWedged_of_again (hcold : s.mode ≠ 0) (hvigil : s.mode ≠ 5) (hwedged : (cls.val, stage.val) ∉ s.ev.wedged)
    (hfenced : (cls.val, stage.val) ∉ s.ev.fenced)
    (hcleaned : (s.ev.cleaned.any (fun e => decide (e.1 = cls.val) && decide (e.2.1 = stage.val) && decide (s.now < e.2.2 + 60000000))) = true) :
    exec (.stageWedged cls stage b) s = .next (leaveUnheld (wedgeAbort cls stage (deriveMode ((faultDump (occur (1160 + cls) (stage + 4096) s)).modEv
      (fun e => { e with fenced := e.fenced ++ [(cls.val, stage.val)] }))))) := by
  have hmode := faultDump_occur_mode (1160 + cls) (stage + 4096) s (by omega)
  simp only [exec, execStageWedged, hcleaned, if_neg (not_or.mpr ⟨hwedged, hfenced⟩), if_true]
  exact congrArg Host.Outcome.next (if_neg (not_or.mpr ⟨fun h => hcold (hmode.symm.trans h), fun h => hvigil (hmode.symm.trans h)⟩))

theorem exec_stageSelfTest_of_aborted {passed : Bool} (hwedged : (cls.val, stage.val) ∈ s.ev.wedged) (haborted : s.wedgeAborted cls stage = true) :
    exec (.stageSelfTest cls stage passed) s = .next (let u := s.modEv (fun e => { e with wedged := e.wedged.erase (cls.val, stage.val) })
      if passed then deriveMode (u.modEv
        (fun e => { e with cleaned := e.cleaned.filter (fun x => x.1 ≠ cls.val || x.2.1 ≠ stage.val) ++ [(cls.val, stage.val, s.now)] }))
      else deriveMode (occur (1160 + cls) (stage + 4096) (u.modEv (fun e => { e with fenced := e.fenced ++ [(cls.val, stage.val)] })))) := by
  have hgoes : ¬ ((cls.val, stage.val) ∉ s.ev.wedged ∨ s.wedgeAborted cls stage = false) := by
    rw [haborted]
    exact not_or.mpr ⟨not_not_intro hwedged, (Bool.false_ne_true ·.symm)⟩
  exact congrArg Host.Outcome.next (if_neg hgoes)

end

/-- Outside Cold a warden fault is its event, a dump, and the restart of the core, or of all four at a second fault within 10 s (R481). -/
theorem wardenFault_of_powered {s : State} {core kind cores : Nat} (hcold : s.mode ≠ 0)
    (hcores : cores = match s.ev.wardenFaultAt with | some t => if s.now < t + 10000000 then 15 else 2 ^ core | none => 2 ^ core) :
    wardenFault core kind s = ((faultDump (occur 1170 (core + 4 * kind) s)).emit (.coreRestart cores)).modEv
      (fun e => { e with wardenFaultAt := some (faultDump (occur 1170 (core + 4 * kind) s)).now }) := by
  subst hcores
  unfold wardenFault
  rw [if_neg hcold]
  cases h : s.ev.wardenFaultAt with
  | none => rfl
  | some t => simp only [decide_eq_true_eq]

/-- Settles O29: one lemma per command; the three warden faults differ in their kind. -/
theorem wedgedStages : Obligations.WedgedStages := by
  intro s
  refine ⟨fun cls stage b => exec_stageWedged_of_first, fun cls stage b => exec_stageWedged_of_again, fun cls stage hwedged haborted =>
    ⟨exec_stageSelfTest_of_aborted hwedged haborted, exec_stageSelfTest_of_aborted hwedged haborted⟩, fun core cores hcold hcores => ?_⟩
  exact ⟨congrArg Host.Outcome.next (wardenFault_of_powered hcold hcores), congrArg Host.Outcome.next (wardenFault_of_powered hcold hcores),
    congrArg Host.Outcome.next (wardenFault_of_powered hcold hcores)⟩

end Sys2Proof.Machine
end

section
/-! SUPPORT. Proofs of the sideband family (14_measurement_sideband.md): port resets and transfers in S0. -/

namespace Sys2Proof.Machine

/-! ## Port resets (R403 to R405, R408) -/

section
variable {s : State} {port : Fin 2}

theorem exec_stretchTimeout_of_alive (halive : s.sbAlive port = true) :
    exec (.stretchTimeout port) s = .next (portReset port 1 (s.inc (K.sbStretchTimeouts port))) :=
  congrArg Host.Outcome.next (if_pos halive)

theorem exec_sclLowTimeout_of_alive (halive : s.sbAlive port = true) :
    exec (.sclLowTimeout port) s = .next (portReset port 2 (s.inc (K.sbSclLowTimeouts port))) :=
  congrArg Host.Outcome.next (if_pos halive)

theorem exec_sdaStuckRelease_of_alive (halive : s.sbAlive port = true) :
    exec (.sdaStuckRelease port) s = .next (portReset port 3 (s.inc (K.sbSdaStuckReleases port))) :=
  congrArg Host.Outcome.next (if_pos halive)

theorem exec_hangRecovery_of_alive (halive : s.sbAlive port = true) : exec (.hangRecovery port) s = .next (sbStop port (portReset port 5 s)) :=
  congrArg Host.Outcome.next (if_pos halive)

theorem exec_sb1RstN_of_alive (halive : s.sbAlive 1 = true) :
    exec .sb1RstN s = .next ((portReset 1 4 s).modSb 1 (fun x => { x with released := true })) := by
  simp only [exec, execSb1RstN, halive, State.when_true]

end

/-- The loss of TEST on a path changes its TestState and at most the objects of TestUnlocked and LogThrottled. -/
theorem loseTest_get (p : Path) (s : State) {j : Nat} (hstate : j ≠ pathKey p 0x1E00 5) (h : j / 256 ≠ 0xD000 + 1232) (h' : j / 256 ≠ 0xD000 + 1172) :
    (loseTest p s).get j = s.get j := by
  unfold loseTest State.when
  extract_lets held verifying s₁ s₂
  have h₂ : s₂.get j = s.get j := State.get_set_ne s₁ 0 hstate
  split
  · exact (occur_get _ _ _ h h').trans h₂
  · exact h₂

theorem loseTest_out (p : Path) (s : State) : (loseTest p s).out = s.out :=
  State.when_same State.out (occur_out ..)

theorem loseTest_rings (p : Path) (s : State) : (loseTest p s).rings = s.rings :=
  State.when_same State.rings (occur_rings ..)

theorem loseTest_win (p : Path) (s : State) : (loseTest p s).win = s.win :=
  State.when_same State.win (occur_win ..)

/-- Objects of one index with different subindices are different. -/
theorem key_ne_of_sub {idx a b : Nat} (h : a ≠ b) : key idx a ≠ key idx b := by
  unfold key
  omega

section
variable {port : Fin 2} {cause : Nat} (s : State)

/-- A sideband port's objects are kept by the loss of TEST (R41). -/
theorem loseTest_get_port {sub : Nat} (p : Path) (hs : sub < 256) :
    (loseTest p s).get (key (0x3800 + port.val) sub) = s.get (key (0x3800 + port.val) sub) := by
  have hdiv : key (0x3800 + port.val) sub / 256 = 0x3800 + port.val := key_div hs
  refine loseTest_get p s ?_ (by omega) (by omega)
  show key (0x3800 + port.val) sub ≠ 256 * 0x1E00 + 5 + (pathCode p + 1) * 4294967296
  omega

/-- A port reset counts itself (R405). -/
theorem portReset_resets : (portReset port cause s).get (K.sbPortResets port) = s.get (K.sbPortResets port) + 1 := by
  unfold portReset
  rw [loseTest_get_port _ _ (by decide), State.get_set_ne _ _ (key_ne_of_sub (by decide))]
  exact State.get_set_self ..

/-- A port reset keeps its cause (R405). -/
theorem portReset_cause : (portReset port cause s).get (K.sbLastResetCause port) = cause := by
  unfold portReset
  rw [loseTest_get_port _ _ (by decide)]
  exact State.get_set_self ..

/-- A port reset leaves what the port has counted else (R403 to R405). -/
theorem portReset_get {sub : Nat} (hs : sub < 256) (hresets : sub ≠ 7) (hcause : sub ≠ 12) :
    (portReset port cause s).get (key (0x3800 + port.val) sub) = s.get (key (0x3800 + port.val) sub) := by
  unfold portReset
  rw [loseTest_get_port _ _ hs, State.get_set_ne _ _ (key_ne_of_sub hcause)]
  exact State.get_set_ne _ _ (key_ne_of_sub hresets)

end

/-- Settles O47: the stretch is counted, and the port reset that follows releases the bus and takes TEST from the path. -/
theorem stretchTimeoutResetsThePort : Obligations.StretchTimeoutResetsThePort := by
  intro port s halive
  refine ⟨_, exec_stretchTimeout_of_alive halive, ?count, ?resets, portReset_cause _, loseTest_out .., (testLost _ _).1, loseTest_rings ..,
    loseTest_win ..⟩
  case count =>
    rw [portReset_get _ (by decide) (by decide) (by decide)]
    exact State.get_set_self ..
  case resets =>
    rw [portReset_resets]
    exact congrArg (· + 1) (State.get_set_ne _ _ (key_ne_of_sub (by decide)))

/-! ## Transfers in S0 (R56, R402) -/

/-- In S0 no power state ends (R357). -/
theorem exitPower_of_s0 {s : State} (cause by_ : Nat) (h : s.get K.powerState = 0) : exitPower cause by_ s = s := if_pos h

/-- In S0 a port whose own logic runs takes a transfer (R409). -/
theorem sbAddress_of_s0 {s : State} {port : Fin 2} (halive : s.sbAlive port = true) (h : s.get K.powerState = 0) : sbAddress port s = (true, s) := by
  simp [sbAddress, halive, h, exitPower_of_s0]

section
variable {s : State} {port : Fin 2} {body : List Byte}

/-- The PEC byte of a transfer is its last byte, and the bytes that it covers are those before it (R402). -/
theorem transfer_getLast? (n e : Byte) : (n :: (body ++ [e])).getLast? = some e := List.getLast?_concat (l := n :: body)

theorem transfer_dropLast (n e : Byte) : (n :: (body ++ [e])).dropLast = n :: body := List.dropLast_concat (l₁ := n :: body)

/-- A write transfer whose length byte and PEC are right is served as the request that its bytes spell (R56, R402). -/
theorem exec_sbWriteTransfer_of_right {op : Nat} {r : ReqHeader} {ws : List Word} (halive : s.sbAlive port = true) (h : s.get K.powerState = 0)
    (hlen : body.length < 256) (hreq : requestOf body = some (op, r, ws)) :
    exec (.sbWriteTransfer port (BitVec.ofNat 8 body.length :: body ++ [pec (s.addressByte port 0 :: BitVec.ofNat 8 body.length :: body)])) s
      = .next (sbStop port (serve (sbPath port) op r ws (s.modSb port (fun x => { x with response := none })))) := by
  simp [exec, execSbWriteTransfer, sbAddress_of_s0 halive h, nth, hlen, hreq, transfer_getLast?, transfer_dropLast]

/-- A write transfer with a wrong PEC is not acknowledged, and counted (R402). -/
theorem exec_sbWriteTransfer_of_wrongPec {e : Byte} (halive : s.sbAlive port = true) (h : s.get K.powerState = 0)
    (hpec : e ≠ pec (s.addressByte port 0 :: BitVec.ofNat 8 body.length :: body)) :
    exec (.sbWriteTransfer port (BitVec.ofNat 8 body.length :: body ++ [e])) s
      = .next (sbStop port ((s.inc (K.sbPecFailures port)).emit (.sbNack port))) := by
  simp [exec, execSbWriteTransfer, sbAddress_of_s0 halive h, nth, hpec, transfer_getLast?, transfer_dropLast]

theorem exec_sbReadTransfer_of_s0 (halive : s.sbAlive port = true) (h : s.get K.powerState = 0) (hbody : (s.sbPort port).response.getD [] = body) :
    exec (.sbReadTransfer port) s = .next (sbStop port ((s.emit (.sbBytes port (BitVec.ofNat 8 body.length :: body
      ++ [pec (s.addressByte port 1 :: BitVec.ofNat 8 body.length :: body)]))).modSb port (fun x => { x with response := none }))) := by
  subst hbody
  simp [exec, execSbReadTransfer, sbAddress_of_s0 halive h, State.emit, State.addressByte, State.get, State.sbPort]

end

/-- Settles O42: one lemma per command; a transfer in S0 ends no power state. -/
theorem sidebandPorts : Obligations.SidebandPorts := by
  intro port s
  exact ⟨exec_stretchTimeout_of_alive, exec_sclLowTimeout_of_alive, exec_sdaStuckRelease_of_alive, exec_hangRecovery_of_alive, exec_sb1RstN_of_alive,
    rfl, fun _ _ _ _ => exec_sbWriteTransfer_of_right, fun _ _ => exec_sbWriteTransfer_of_wrongPec, fun _ => exec_sbReadTransfer_of_s0⟩

end Sys2Proof.Machine
end

section
/-! SUPPORT. Proofs of the warden and code-flash family (16_warden_codeflash.md): bytes of the shared window, descriptors and completions, the update
mailbox, and the command objects of code flash, events and Pepper. -/

namespace Sys2Proof.Machine

/-! ## Bytes of the shared window (R74, R99, R100, R447) -/

/-- Above the doorbells the host sees its last store that is not yet visible, or what all see (R74, R99). -/
theorem State.windowByte_of_ge {off : Nat} (h : 0x10000 ≤ off) (s : State) :
    s.windowByte off
      = ((s.win.pendingStores.flatten.reverse.find? (fun e => decide (e.1 = off))).map Prod.snd).getD (SMap.getD s.win.bytes off 0) := by
  rw [State.windowByte, if_neg (by omega), if_neg (by omega)]
  cases s.win.pendingStores.flatten.reverse.find? (fun e => decide (e.1 = off)) <;> rfl

/-- An offset with no store under way reads as all see it. -/
theorem State.windowByte_of_settled {off : Nat} (h : 0x10000 ≤ off) {s : State} (hp : ∀ l ∈ s.win.pendingStores, ∀ e ∈ l, e.1 ≠ off) :
    s.windowByte off = SMap.getD s.win.bytes off 0 := by
  have hnone : s.win.pendingStores.flatten.reverse.find? (fun e => decide (e.1 = off)) = none := by
    simp only [List.find?_eq_none, List.mem_reverse, List.mem_flatten, decide_eq_true_eq]
    rintro e ⟨l, hl, he⟩
    exact hp l hl e he
  rw [State.windowByte_of_ge h, hnone]
  rfl

/-- The bits above the mailbox's slots are kept whole (R447). -/
theorem orderedMask_above {off : Nat} (h : 0x10040 ≤ off) : orderedMask off = 0xFF := if_pos h

/-- The mailbox slots that R447 does not list keep nothing. -/
theorem orderedMask_unlisted {off : Nat} (h : 0x10014 ≤ off) (h' : off < 0x10020) : orderedMask off = 0 := by
  have hslot : ¬ ((off - 0x10000) / 4 < 5 ∨ (8 ≤ (off - 0x10000) / 4 ∧ (off - 0x10000) / 4 < 11)) := by omega
  rw [orderedMask, if_neg (by omega)]
  exact if_neg hslot

theorem storeByte_windowByte_self {off : Nat} (h : 0x10000 ≤ off) (b : Byte) {s : State}
    (hp : ∀ l ∈ s.win.pendingStores, ∀ e ∈ l, e.1 ≠ off) : (storeByte off b s).windowByte off = b &&& orderedMask off := by
  rw [State.windowByte_of_settled h (by exact hp)]
  exact SMap.getD_put_self 0 _ _ _

theorem storeByte_windowByte_ne {off a : Nat} (ha : a ≠ off) (h : 0x10000 ≤ a) (b : Byte) (s : State) :
    (storeByte off b s).windowByte a = s.windowByte a := by
  have hb : SMap.getD (storeByte off b s).win.bytes a 0 = SMap.getD s.win.bytes a 0 := SMap.getD_put_ne 0 _ _ ha
  rw [State.windowByte_of_ge h, State.windowByte_of_ge h, hb]
  rfl

/-- With one entry for each key, a key's entry is the one found. -/
theorem find?_key_of_mem {l : List (Nat × Byte)} (hl : l.Pairwise (fun e f => e.1 ≠ f.1)) {a : Nat} {x : Byte} (h : (a, x) ∈ l) :
    l.find? (fun e => decide (e.1 = a)) = some (a, x) := by
  induction l with
  | nil => cases h
  | cons e l ih =>
    obtain ⟨hne, hl⟩ := List.pairwise_cons.mp hl
    rcases List.mem_cons.mp h with rfl | h
    · simp
    · rw [List.find?_cons_of_neg (by simpa using hne _ h), ih hl h]

theorem find?_key_of_not_mem {l : List (Nat × Byte)} {a : Nat} (h : ∀ e ∈ l, e.1 ≠ a) : l.find? (fun e => decide (e.1 = a)) = none := by
  simpa [List.find?_eq_none] using h

theorem storeWord_windowByte_of_mem {l : List (Nat × Byte)} {a : Nat} {x : Byte} (hl : l.Pairwise (fun e f => e.1 ≠ f.1)) (hx : (a, x) ∈ l)
    (ha : 0x10000 ≤ a) (s : State) : (storeWord l s).windowByte a = x := by
  have hrev : l.reverse.find? (fun e => decide (e.1 = a)) = some (a, x) :=
    find?_key_of_mem (List.pairwise_reverse.mpr (hl.imp Ne.symm)) (List.mem_reverse.mpr hx)
  rw [State.windowByte_of_ge ha]
  simp [storeWord, hrev]

theorem storeWord_windowByte_of_not_mem {l : List (Nat × Byte)} {a : Nat} (hl : ∀ e ∈ l, e.1 ≠ a) (ha : 0x10000 ≤ a) (s : State) :
    (storeWord l s).windowByte a = s.windowByte a := by
  have hrev : l.reverse.find? (fun e => decide (e.1 = a)) = none := find?_key_of_not_mem (by simpa using hl)
  rw [State.windowByte_of_ge ha, State.windowByte_of_ge ha]
  simp [storeWord, hrev]

theorem getD_showStore_of_not_mem {l : List (Nat × Byte)} {a : Nat} (h : ∀ e ∈ l, e.1 ≠ a) (m : SMap Byte) :
    SMap.getD (showStore m l) a 0 = SMap.getD m a 0 := by
  induction l generalizing m with
  | nil => rfl
  | cons e l ih =>
    have htail := ih (fun f hf => h f (List.mem_cons_of_mem _ hf)) (SMap.put 0 m e.1 e.2)
    exact htail.trans (SMap.getD_put_ne 0 _ _ (h e List.mem_cons_self).symm)

theorem getD_showStore_of_mem {l : List (Nat × Byte)} (hl : l.Pairwise (fun e f => e.1 ≠ f.1)) {a : Nat} {x : Byte} (h : (a, x) ∈ l) (m : SMap Byte) :
    SMap.getD (showStore m l) a 0 = x := by
  induction l generalizing m with
  | nil => cases h
  | cons e l ih =>
    obtain ⟨hne, hl⟩ := List.pairwise_cons.mp hl
    rcases List.mem_cons.mp h with rfl | h
    · exact (getD_showStore_of_not_mem (fun f hf => (hne f hf).symm) _).trans (SMap.getD_put_self 0 _ _ _)
    · exact ih hl h _

/-- The store that becomes visible last stands (R99). -/
theorem drainStores_storeWord_of_mem {l : List (Nat × Byte)} {a : Nat} {x : Byte} (hl : l.Pairwise (fun e f => e.1 ≠ f.1)) (hx : (a, x) ∈ l)
    (s : State) : SMap.getD (drainStores (storeWord l s)).win.bytes a 0 = x := by
  have hlast : (drainStores (storeWord l s)).win.bytes = showStore (s.win.pendingStores.foldl showStore s.win.bytes) l := by
    simp [drainStores, storeWord]
  rw [hlast]
  exact getD_showStore_of_mem hl hx _

/-- Settles O44: bytes stored to the ordered window, and words stored to the general window before and after they become visible. -/
theorem windowStores : Obligations.WindowStores := by
  intro off b s
  refine ⟨fun h hp => storeByte_windowByte_self h b hp, orderedMask_above, orderedMask_unlisted, fun a ha h => storeByte_windowByte_ne ha h b s,
    fun l a => rfl, fun l a x hl hx ha => ?_, fun l a hl ha => storeWord_windowByte_of_not_mem hl ha s⟩
  exact ⟨storeWord_windowByte_of_mem hl hx ha s, drainStores_storeWord_of_mem hl hx s⟩

/-! ## Descriptors and completions (R463, R464) -/

section
variable {s : State}

/-- What acts only while warden firmware runs acts then. -/
theorem when_wardenRuns (h : s.wardenRuns = true) (f : State → State) : Host.Outcome.next (s.when s.wardenRuns f) = (.next (f s) : Res) := by
  rw [h]
  rfl

/-- The operation in progress ends by the outcome of its completion, a stop only where it was asked to stop (R464; log entry 46). -/
theorem exec_codeFlashCompletion_of_cur {d : CfDesc} {o : CfOutcome} (hcur : s.cf.cur = some d)
    (hstop : ∀ a b, o = .stopped a b → s.cf.stopping = true) : exec (.codeFlashCompletion o) s = .next (cfEnded d o s) := by
  cases o with
  | stopped a b => simp only [exec, execCodeFlashCompletion, hcur, hstop a b rfl]
  | ran n => cases hs : s.cf.stopping <;> simp only [exec, execCodeFlashCompletion, hcur, hs]
  | failed n => cases hs : s.cf.stopping <;> simp only [exec, execCodeFlashCompletion, hcur, hs]

/-! ## The update mailbox (R448) -/

theorem exec_updateChunk_of_inRange (hwaits : s.mailboxWaits 1 = true) (hop : s.mailbox 0x10004 = 1)
    (hin : s.mailboxIn (s.mailbox 0x1000C) (s.mailbox 0x10010) = true) (hunits : s.mailbox 0x10008 + s.mailbox 0x10010 ≤ 640) :
    exec .updateChunk s
      = .next (mailboxAck (s.mailbox 0x10000) 0 (s.mailbox 0x10010) (takeChunk (s.mailbox 0x10008) (s.mailbox 0x1000C) (s.mailbox 0x10010) s)) := by
  simp only [exec, execUpdateChunk, hwaits, hop, hin, Nat.not_lt.mpr hunits, Bool.not_true, Bool.false_eq_true, ne_eq,
    not_true_eq_false, or_self, if_false]

theorem exec_updateChunk_of_outOfRange (hwaits : s.mailboxWaits 1 = true)
    (hout : s.mailboxIn (s.mailbox 0x1000C) (s.mailbox 0x10010) = false ∨ 640 < s.mailbox 0x10008 + s.mailbox 0x10010) :
    exec .updateChunk s = .next (mailboxAck (s.mailbox 0x10000) 0 0 s) := by
  have hrefused : s.mailbox 0x10004 ≠ 1 ∨ (!s.mailboxIn (s.mailbox 0x1000C) (s.mailbox 0x10010)) = true ∨
      640 < s.mailbox 0x10008 + s.mailbox 0x10010 :=
    .inr (hout.imp_left (by simp [·]))
  simp only [exec, execUpdateChunk, hwaits, if_pos hrefused, Bool.not_true, Bool.false_eq_true, if_false]

theorem exec_readArea_of_inRange (hwaits : s.mailboxWaits 2 = true) (hcur : s.cf.cur = none) (hop : s.mailbox 0x10004 = 2)
    (hin : s.mailboxIn (s.mailbox 0x1000C) (s.mailbox 0x10010) = true) (hunits : s.mailbox 0x10008 + s.mailbox 0x10010 ≤ 4096) :
    exec .readArea s = .next (let bad := badWords (s.areaWords (s.mailbox 0x10008) (s.mailbox 0x10010))
      mailboxAck (s.mailbox 0x10000) (if bad = 0 then 0 else 1) (s.mailbox 0x10010)
        ((putArea (s.mailbox 0x10008) (s.mailbox 0x1000C) (s.mailbox 0x10010) s).add K.checkFailsMet bad)) := by
  simp only [exec, execReadArea, hwaits, hcur, hop, hin, Nat.not_lt.mpr hunits, Option.isSome_none, Bool.not_true, Bool.false_eq_true, ne_eq,
    not_true_eq_false, or_self, if_false]

theorem exec_readArea_of_outOfRange (hwaits : s.mailboxWaits 2 = true) (hcur : s.cf.cur = none)
    (hout : s.mailboxIn (s.mailbox 0x1000C) (s.mailbox 0x10010) = false ∨ 4096 < s.mailbox 0x10008 + s.mailbox 0x10010) :
    exec .readArea s = .next (mailboxAck (s.mailbox 0x10000) 0 0 s) := by
  have hrefused : s.mailbox 0x10004 ≠ 2 ∨ (!s.mailboxIn (s.mailbox 0x1000C) (s.mailbox 0x10010)) = true ∨
      4096 < s.mailbox 0x10008 + s.mailbox 0x10010 :=
    .inr (hout.imp_left (by simp [·]))
  simp only [exec, execReadArea, hwaits, hcur, if_pos hrefused, Option.isSome_none, Bool.not_true, Bool.false_eq_true, or_self, if_false]

end

/-- Settles O46: one lemma per command; each descriptor is queued where warden firmware runs. -/
theorem codeFlashCommands : Obligations.CodeFlashCommands := by
  intro s
  refine ⟨fun h cls addr count sram ws sector x word => ?_, fun d o => exec_codeFlashCompletion_of_cur, exec_updateChunk_of_inRange,
    exec_updateChunk_of_outOfRange, exec_readArea_of_outOfRange, exec_readArea_of_inRange⟩
  exact ⟨when_wardenRuns h _, when_wardenRuns h _, when_wardenRuns h _, when_wardenRuns h _, when_wardenRuns h _, when_wardenRuns h _⟩

/-! ## Command objects of code flash and Pepper (R461, R462, R467, R469, R471, R485, R487) -/

section
variable {s : State} {p : Path} {idx sub inst v w : Nat} {r : ObjRow}

/-- Where a value may be written, any other value in range may be that no other object of its index bounds. -/
theorem mayWrite_of_mayWrite (ho : objAt idx sub = some (inst, r)) (h : s.mayWrite p idx sub v = true)
    (hok : s.valueOk p idx sub inst r w = true) (htogether : togetherOk idx [(sub, w &&& r.keep)] s = true) : s.mayWrite p idx sub w = true := by
  obtain ⟨hans, hmode, hclass, hacc, -, -⟩ := mayWrite_parts h ho
  unfold State.mayWrite
  rw [ho]
  simp only [hans, hmode, hclass, hok, htogether, ne_eq, not_false_eq_true, decide_true, Bool.and_true, Bool.true_and]
  exact hacc

/-- A write of one element that is a violation only by its value is answered with its header, and nothing changes (R63). -/
theorem serve_write_refused {typ : Nat} {ws : List Word} (tag : BitVec 8) (hm : s.awake.mayWrite p idx sub v = true)
    (ho : objAt idx sub = some (inst, r)) (hi : idx < 65536) (hs : sub < 256) (hc : r.ty.code = typ) (ht : typ < 8)
    (hl : ws.length = typeWords typ) (hok : s.awake.valueOk p idx sub inst r (wordsNat ws) = false) :
    serve p 1 (oneHeader tag idx sub typ) ws s = respond p 1 (oneHeader tag idx sub typ) [] s.awake := by
  have hw : r.wordwise = false := ObjRow.wordwise_eq_false (hc ▸ ht)
  obtain ⟨hans, hmode, hclass, hacc, -, -⟩ := mayWrite_parts hm ho
  have hnamed := named_one (s := s.awake) (p := p) tag true hi hs (Nat.lt_trans ht (by decide : 8 < 16)) ho hw hmode
    (by simp [State.allows, hc, hclass]; exact hacc)
  have hrefused : s.awake.writeOk p (oneHeader tag idx sub typ) [⟨sub, inst, r⟩] ws = false := by
    simp [State.writeOk, valuesOf_one tag _ ws (Nat.lt_trans ht (by decide : 8 < 16)) hl, hw, oneHeader_index, hi, hok]
  have hwrite : almanacWrite p (oneHeader tag idx sub typ) ws s.awake = ([], s.awake) := by
    simp only [almanacWrite, hnamed, hrefused, if_true]
  have hcount : ws.length = valueCount (oneHeader tag idx sub typ) := by rw [valueCount_one tag idx sub (by omega), hl]
  have hanswers : s.answers p = true := hans
  have horder : orderStores p 1 s.awake = s.awake := by simp [orderStores]
  have hserve : serve p 1 (oneHeader tag idx sub typ) ws s
      = serveWith (respond p 1 (oneHeader tag idx sub typ)) p 1 (oneHeader tag idx sub typ) ws s := by
    simp [serve, hanswers, hcount]
  have hwith : serveWith (respond p 1 (oneHeader tag idx sub typ)) p 1 (oneHeader tag idx sub typ) ws s
      = afterWrite (oneHeader tag idx sub typ).index.toNat (almanacWrite p (oneHeader tag idx sub typ) ws (orderStores p 1 s.awake)).1
        (respond p 1 (oneHeader tag idx sub typ) [] (almanacWrite p (oneHeader tag idx sub typ) ws (orderStores p 1 s.awake)).2) := rfl
  rw [hserve, hwith, horder, hwrite]
  rfl

end

theorem objAt_updateCommit : objAt 0x8000 7 = some (0, ⟨"UpdateCommit", 7, 7, .bool, .wo, 1, .lit 0, .full, allOnes40, 1⟩) := rfl

theorem objAt_customerKeyBurn : objAt 0x8003 7 = some (0, ⟨"CustomerKeyBurn", 7, 7, .bool, .wo, 3, .lit 0, .full, allOnes40, 1⟩) := rfl

theorem objAt_pepperEnable : objAt 0xE000 1 = some (0, ⟨"PepperEnable", 1, 1, .bool, .rw, 8, .lit 0, .full, allOnes40, 1⟩) := rfl

section
variable {s : State} {p : Path}

/-- 1 is in range of UpdateCommit exactly while an update may be committed (R462). -/
theorem valueOk_updateCommit {r : ObjRow} (hty : r.ty = .bool) (hrange : r.range = .full) (hkeep : r.keep = allOnes40) :
    s.valueOk p 0x8000 7 0 r 1 = s.updateOk := by
  simp [State.valueOk, hty, hrange, hkeep, Range.holds, allOnes40, State.rangeOk, managerOnly]

theorem valueOk_customerKeyBurn {r : ObjRow} (hty : r.ty = .bool) (hrange : r.range = .full) (hkeep : r.keep = allOnes40) :
    s.valueOk p 0x8003 7 0 r 1 = s.keyBurnOk := by
  simp [State.valueOk, hty, hrange, hkeep, Range.holds, allOnes40, State.rangeOk, managerOnly]

theorem exec_updateCommit_of_ok (tag : BitVec 8) (hm : s.awake.mayWrite p 0x8000 7 0 = true) (hok : s.awake.updateOk = true) :
    exec (.updateCommit p tag) s = .next (respond p 1 (oneHeader tag 0x8000 7 1) [] (updateCommitEffect s.awake)) := by
  have hm1 := mayWrite_of_mayWrite objAt_updateCommit hm ((valueOk_updateCommit rfl rfl rfl).trans hok) rfl
  exact congrArg Host.Outcome.next (serve_write_media_wo tag (wordsNat_one 1) hm1 rfl (by decide) (by decide) rfl (by decide) rfl rfl)

theorem exec_updateCommit_of_refused (tag : BitVec 8) (hm : s.awake.mayWrite p 0x8000 7 0 = true) (hok : s.awake.updateOk = false) :
    exec (.updateCommit p tag) s = .next (respond p 1 (oneHeader tag 0x8000 7 1) [] s.awake) :=
  congrArg Host.Outcome.next (serve_write_refused (ws := [1]) tag hm objAt_updateCommit (by decide) (by decide) rfl (by decide) rfl
    ((valueOk_updateCommit rfl rfl rfl).trans hok))

theorem exec_customerKeyBurn_of_ok (tag : BitVec 8) (hm : s.awake.mayWrite p 0x8003 7 0 = true) (hok : s.awake.keyBurnOk = true) :
    exec (.customerKeyBurn p tag) s = .next (respond p 1 (oneHeader tag 0x8003 7 1) [] (keyBurnEffect s.awake)) := by
  have hm1 := mayWrite_of_mayWrite objAt_customerKeyBurn hm ((valueOk_customerKeyBurn rfl rfl rfl).trans hok) rfl
  exact congrArg Host.Outcome.next (serve_write_media_wo tag (wordsNat_one 1) hm1 rfl (by decide) (by decide) rfl (by decide) rfl rfl)

theorem exec_customerKeyBurn_of_refused (tag : BitVec 8) (hm : s.awake.mayWrite p 0x8003 7 0 = true) (hok : s.awake.keyBurnOk = false) :
    exec (.customerKeyBurn p tag) s = .next (respond p 1 (oneHeader tag 0x8003 7 1) [] s.awake) :=
  congrArg Host.Outcome.next (serve_write_refused (ws := [1]) tag hm objAt_customerKeyBurn (by decide) (by decide) rfl (by decide) rfl
    ((valueOk_customerKeyBurn rfl rfl rfl).trans hok))

/-- RaiseSecurityVersion takes a value of 8 bits (R469). -/
theorem exec_raiseSecurityVersion_of_mayWrite (tag v : BitVec 8) (hm : s.awake.mayWrite p 0x8003 9 v.toNat = true) :
    exec (.raiseSecurityVersion p tag v) s = .next (respond p 1 (oneHeader tag 0x8003 9 2) [] (raiseEffect v.toNat s.awake)) := by
  have hv : (v.setWidth 20).toNat = v.toNat := by
    have := v.isLt
    rw [BitVec.toNat_setWidth, Nat.mod_eq_of_lt (by omega)]
  exact congrArg Host.Outcome.next
    (serve_write_media_wo tag ((wordsNat_one _).trans hv) hm rfl (by decide) (by decide) rfl (by decide) rfl rfl)

theorem writeEffect_pepperEnable (v : Nat) : writeEffect p 0xE000 1 0 v s = pepperEnableEffect (v == 1) s := rfl

theorem writeEffect_pepperClearAll (v : Nat) : writeEffect p 0xE000 3 0 v s = if v = 1 then pepperClearAllEffect s else s := rfl

/-- PepperEnable takes its value by its effect (R485). -/
theorem writeObj_pepperEnable (v : Bool) {r : ObjRow} (hkeep : r.keep = allOnes40) (hacc : r.acc = .rw) :
    writeObj p 0xE000 1 0 r (boolWord v).toNat s = pepperEnableEffect v s := by
  have hself : selfSet 0xE000 1 = true := rfl
  have hand : (boolWord v).toNat &&& allOnes40 = (boolWord v).toNat := by cases v <;> rfl
  have hbool : ((boolWord v).toNat == 1) = v := by cases v <;> rfl
  have hlow : decide (0xE010 ≤ 0xE000) = false := rfl
  simp only [writeObj, hkeep, hand, hacc, hself, writeEffect_pepperEnable, hbool, hlow, Bool.false_and, State.when_false, Bool.true_eq_false,
    and_false, if_false, reduceCtorEq, decide_false]

theorem exec_pepperEnable_of_mayWrite (tag : BitVec 8) (v : Bool) (hm : s.awake.mayWrite p 0xE000 1 (if v then 1 else 0) = true) :
    exec (.pepperEnable p tag v) s = .next (respond p 1 (oneHeader tag 0xE000 1 1) [] (pepperEnableEffect v s.awake)) := by
  have hword : wordsNat [boolWord v] = if v then 1 else 0 := by cases v <;> exact wordsNat_one _
  rw [← hword] at hm
  refine congrArg Host.Outcome.next ((serve_write_one tag hm objAt_pepperEnable (by decide) (by decide) rfl (by decide) rfl rfl).trans ?_)
  rw [if_neg (by decide), if_neg (by decide), afterEffect_none _ _ _ _ (by decide) (by decide) (.inr (by decide)), wordsNat_one,
    writeObj_pepperEnable v rfl rfl]
  rfl

end

/-- Settles O55: each is a write of one element; a commit of an update and a burn of the customer key that are out of range are refused by their
value. -/
theorem flashAndFaultObjects : Obligations.FlashAndFaultObjects := by
  intro p tag s
  refine ⟨exec_updateCommit_of_ok tag, exec_updateCommit_of_refused tag, fun hm => congrArg Host.Outcome.next ?protectStandby,
    fun hm => congrArg Host.Outcome.next ?cfRead, fun hm => congrArg Host.Outcome.next ?dumpRequest,
    fun hm => congrArg Host.Outcome.next ?dumpRelease, exec_customerKeyBurn_of_ok tag, exec_customerKeyBurn_of_refused tag,
    fun v => exec_raiseSecurityVersion_of_mayWrite tag v, fun source => exec_clear tag source, fun v => exec_pepperEnable_of_mayWrite tag v,
    fun hm => congrArg Host.Outcome.next ?pepperClearAll, fun hm => congrArg Host.Outcome.next ?forceRealign⟩
  case protectStandby | cfRead | dumpRequest | dumpRelease =>
    exact serve_write_media_wo tag (wordsNat_one 1) hm rfl (by decide) (by decide) rfl (by decide) rfl rfl
  case pepperClearAll =>
    have heff : writeEffect p 0xE000 3 0 1 s.awake = pepperClearAllEffect s.awake := (writeEffect_pepperClearAll 1).trans (if_pos rfl)
    exact serve_write_group tag (wordsNat_one 1) hm rfl (by decide) (by decide) rfl (by decide) rfl heff
  case forceRealign => exact serve_write_group tag (wordsNat_one 1) hm rfl (by decide) (by decide) rfl (by decide) rfl rfl

end Sys2Proof.Machine
end

section
/-! SUPPORT. Proofs of the start-up and Vigil family (12_bringup_modes.md, 13_power_vigil.md): entry to Cold and to Vigil, start-up, conversions and
the hold-up bank. -/

namespace Sys2Proof.Machine

/-! ## Entry to Cold and to Vigil (R350, R372, R374, R386, R435) -/

section
variable {s : State}

theorem exec_modRstNFall_of_powered (hhigh : s.pw.resetLow = false) (hcold : s.mode ≠ 0) (hvigil : s.mode ≠ 5) :
    exec .modRstNFall s = .next ((railsOff (enterCold 2 false ((s.emit (.busRelease 0)).emit (.busRelease 1)))).modPw
      (fun p => { p with resetLow := true, vinWait := false })) := by
  have hcold' : ((s.emit (.busRelease 0)).emit (.busRelease 1)).mode ≠ 0 := hcold
  have hvigil' : ((s.emit (.busRelease 0)).emit (.busRelease 1)).mode ≠ 5 := hvigil
  simp only [exec, execModRstNFall, hhigh, if_neg hcold', if_neg hvigil', Bool.false_eq_true, if_false]

theorem exec_modRstNFall_of_cold (hhigh : s.pw.resetLow = false) (hcold : s.mode = 0) :
    exec .modRstNFall s = .next ((railsOff (coldAgain 2 false ((s.emit (.busRelease 0)).emit (.busRelease 1)))).modPw
      (fun p => { p with resetLow := true, vinWait := false })) := by
  have hcold' : ((s.emit (.busRelease 0)).emit (.busRelease 1)).mode = 0 := hcold
  simp only [exec, execModRstNFall, hhigh, if_pos hcold', Bool.false_eq_true, if_false]

theorem exec_modRstNFall_of_vigil (hhigh : s.pw.resetLow = false) (hvigil : s.mode = 5) :
    exec .modRstNFall s = .next ((railsOff ((vigilOver false ((s.emit (.busRelease 0)).emit (.busRelease 1))).modPw
      (fun p => { p with cause := 2 }))).modPw (fun p => { p with resetLow := true, vinWait := false })) := by
  have hcold' : ((s.emit (.busRelease 0)).emit (.busRelease 1)).mode ≠ 0 := fun h => absurd (hvigil.symm.trans h) (by decide)
  have hvigil' : ((s.emit (.busRelease 0)).emit (.busRelease 1)).mode = 5 := hvigil
  simp only [exec, execModRstNFall, hhigh, if_neg hcold', if_pos hvigil', Bool.false_eq_true, if_false]

theorem exec_supplyFall_of_powered (aon : Bool) (hcold : s.mode ≠ 0) (hvigil : s.mode ≠ 5) :
    exec (.supplyFall aon) s = .next (((enterCold 7 false s).when aon railsOff).modPw
      (fun p => { p with supplyLow := true, aonValid := p.aonValid && !aon, coreEn := p.coreEn && !aon })) := by
  simp only [exec, execSupplyFall, if_neg hcold, if_neg hvigil]

/-- Bringup is no serving mode. -/
theorem serving_of_bringup (h : s.mode = 1) : s.serving = false := by
  simp [State.serving, h]

theorem exec_vinFail_of_bringup (h : s.mode = 1) : exec .vinFail s = .next (enterCold 7 false s) := by
  simp only [exec, execVinFail, serving_of_bringup h, h, Bool.false_eq_true, if_false, if_true]

theorem exec_vigilEndMark_of_met {v : Vigil} {e : VigilEntry} (hvigil : s.pw.vigil = some v) (hentry : s.nv.vigilEntry = some e) (hmode : s.mode = 5)
    (hstep : s.vigilStepMet v 9 = true) (hwedged : s.ev.wedged = []) (hsupply : s.pw.supplyLow = false) :
    exec .vigilEndMark s = .next (vigilOver true ((cfPut (e.addr + 13) (cfEncode 0) s).modNv
      (fun n => { n with vigilEntry := some { e with marks := e.marks ++ [5] } }))) := by
  simp [exec, execVigilEndMark, hvigil, hentry, hmode, hstep, hwedged, hsupply]

end

/-- Settles O36: one lemma per command and mode. -/
theorem coldCommands : Obligations.ColdCommands := by
  intro s
  exact ⟨exec_modRstNFall_of_powered, exec_modRstNFall_of_cold, exec_modRstNFall_of_vigil, fun aon => exec_supplyFall_of_powered aon,
    fun h => congrArg Host.Outcome.next (if_pos h), exec_vinFail_of_bringup, fun h => congrArg Host.Outcome.next (if_pos h),
    fun h => congrArg Host.Outcome.next (if_pos h), fun v e => exec_vigilEndMark_of_met⟩

/-! ## Start-up: pins, step 1 and step 2 (R343, R386, R460, R492) -/

section
variable {s : State}

theorem exec_modRstNRise_of_powered {l2 l1 l0 : Fin 3} {m : Bool} (hlow : s.pw.resetLow = true) (haon : s.pw.aonValid = true) :
    exec (.modRstNRise l2 l1 l0 m) s = .next (tryStep1 (s.modPw
      (fun p => { p with resetLow := false, supplyLow := false, straps := (l2.val, l1.val, l0.val), manager := m, riseAt := s.now }))) :=
  congrArg Host.Outcome.next (if_pos ⟨hlow, haon⟩)

theorem exec_vddAonInRange_of_low (haon : s.pw.aonValid = false) :
    exec .vddAonInRange s = .next ((s.set K.vidCode 9).modPw (fun p => { p with aonValid := true, coreEn := true })) :=
  congrArg Host.Outcome.next (if_neg (by rw [haon]; exact Bool.false_ne_true))

theorem exec_firmwareVerified_of_slot {slot : Nat} (hmode : s.mode = 1) (hstep : s.get K.bringupStep = 2) (hslot : s.bootSlot = some slot) :
    exec .firmwareVerified s = .next (bootImage slot s) := by
  simp only [exec, execFirmwareVerified, hmode, hstep, and_self, if_true, hslot]

theorem exec_firmwareVerified_of_none (hmode : s.mode = 1) (hstep : s.get K.bringupStep = 2) (hslot : s.bootSlot = none) :
    exec .firmwareVerified s = .next (s.report K.bringupFault 1) := by
  simp only [exec, execFirmwareVerified, hmode, hstep, and_self, if_true, hslot]

/-- Step 1 whose conditions hold ends in step 2 (R343). -/
theorem tryStep1_bringupStep (hmode : s.mode = 0) (hboot : s.bootRuns = true) (hcooled : s.cooled = true) :
    (tryStep1 s).get K.bringupStep = 2 := by
  rw [tryStep1, if_pos ⟨hmode, hboot, hcooled⟩]
  exact State.get_set_self ..

/-! ## Start-up: rails (R365, R366) -/

theorem exec_railPowerGood_of_waiting (hrun : s.railsRunning = true) (hhold : s.pw.hold = false) :
    exec .railPowerGood s = .next ((s.set K.railPowerGood (s.get K.railPowerGood |||
      (groupPairs s.pw.groups).foldl (fun a k => a + 2 ^ k) 0)).modPw (fun p => { p with hold := true })) :=
  congrArg Host.Outcome.next (if_pos ⟨hrun, by rw [hhold]; rfl⟩)

theorem exec_railGroupHold_of_more (hrun : s.railsRunning = true) (hhold : s.pw.hold = true) (hgroups : s.pw.groups ≠ 4) :
    exec .railGroupHold s = .next (s.modPw (fun p => { p with groups := p.groups + 1, hold := false })) :=
  congrArg Host.Outcome.next ((if_pos ⟨hrun, hhold⟩).trans (if_neg hgroups))

theorem exec_railGroupHold_of_last (hrun : s.railsRunning = true) (hhold : s.pw.hold = true) (hgroups : s.pw.groups = 4) :
    exec .railGroupHold s
      = .next (startInterfaces (((s.set K.bringupStep 7).report K.bringupFault 0).modPw (fun p => { p with hold := false, railsDone := true }))) :=
  congrArg Host.Outcome.next ((if_pos ⟨hrun, hhold⟩).trans (if_pos hgroups))

theorem exec_railSequenceTimeout_of_waiting {k : Fin 12} (hrun : s.railsRunning = true) (hhold : s.pw.hold = false)
    (hpair : (groupPairs s.pw.groups).contains k.val = true) : exec (.railSequenceTimeout k) s = .next (railStartFault k s) :=
  congrArg Host.Outcome.next (if_pos ⟨hrun, by rw [hhold]; rfl, hpair⟩)

theorem exec_railPowerGoodLow_of_running {k : Fin 12} (hgood : (s.get K.railPowerGood).testBit k = true) (hrun : (railGone k s).railsRunning = true) :
    exec (.railPowerGoodLow k) s = .next (railStartFault k (railGone k s)) := by
  simp only [exec, execRailPowerGoodLow, hgood, hrun, Bool.not_true, Bool.false_eq_true, if_false, if_true]

/-! ## Start-up: training and the last steps (R219, R278, R343, R345, R416) -/

theorem exec_channelTraining_of_first {c : Fin 96} {r : ChannelResult} (hmode : s.mode = 1) (hrails : s.pw.railsDone = true)
    (hnew : (s.chan c).trained = false) (hrestore : s.pw.restored = false) :
    exec (.channelTraining c r) s = .next (trainingAdvance (trainChannel c r s)) := by
  simp only [exec, execChannelTraining, hmode, hrails, hnew, hrestore, Bool.not_false, and_self, if_true]

theorem exec_dramTraining_of_passed {rs : List RankResult} {u : State} (hmode : s.mode = 1) (hrails : s.pw.railsDone = true)
    (hdone : s.pw.dramDone = false) (htrain : trainDram rs s = (false, u)) :
    exec (.dramTraining rs) s = .next (trainingAdvance (((u.report K.bringupFault 0).modDram (fun d => { d with trained := true })).modPw
      (fun p => { p with dramDone := true }))) := by
  simp only [exec, execDramTraining, hmode, hrails, hdone, htrain, Bool.not_false, and_self, if_true, Bool.false_eq_true, if_false]

theorem exec_groupWaitEnd_of_step10 {u : State} (hmode : s.mode = 1) (hstep : s.get K.bringupStep = 10) (hrestore : s.pw.restored = false)
    (hu : u = (restore (if s.get K.groupState = 0 then s.set K.groupState 1 else s)).set K.bringupStep 11) :
    exec .groupWaitEnd s = .next (u.report K.bringupFault (if u.bankReady then 0 else 3)) := by
  have hexec : exec .groupWaitEnd s = execGroupWaitEnd s := rfl
  rw [hexec, execGroupWaitEnd, if_pos ⟨hmode, hstep, by rw [hrestore]; rfl⟩, hu]

end

/-- Settles O35: one lemma per command of start-up. -/
theorem bringupCommands : Obligations.BringupCommands := by
  intro s
  refine ⟨fun l2 l1 l0 m => exec_modRstNRise_of_powered, exec_vddAonInRange_of_low,
    fun hmode hwait => congrArg Host.Outcome.next (if_pos ⟨hmode, hwait⟩), fun hmode hstep => ?boot,
    fun slot => exec_firmwareVerified_of_slot, fun u => tryStep1_bringupStep,
    exec_railPowerGood_of_waiting, exec_railGroupHold_of_more, exec_railGroupHold_of_last, fun k => exec_railSequenceTimeout_of_waiting,
    fun k => exec_railPowerGoodLow_of_running, fun hmode hretry => congrArg Host.Outcome.next (if_pos ⟨hmode, hretry⟩),
    fun c r => exec_channelTraining_of_first, fun rs u => exec_dramTraining_of_passed, fun u => exec_groupWaitEnd_of_step10,
    fun hmode hstep hbank => congrArg Host.Outcome.next (if_pos ⟨hmode, hstep, hbank⟩)⟩
  case boot =>
    cases hslot : s.bootSlot with
    | none => exact exec_firmwareVerified_of_none hmode hstep hslot
    | some slot => exact exec_firmwareVerified_of_slot hmode hstep hslot

/-! ## Conversions and the hold-up bank (R369, R370, R388) -/

section
variable {s u : State} {raw value peak : BitVec 20}

/-- The scan's next input converts, and its last ends it (R388). -/
theorem exec_adcConversion_of_converted (hinputs : s.adcInputs ≠ 0)
    (hu : u = convert (s.mon.next % s.adcInputs) (s20 raw.toNat) (s20 value.toNat) (s20 peak.toNat)
      (s.modMon (fun m => { m with next := (s.mon.next % s.adcInputs + 1) % s.adcInputs }))) :
    exec (.adcConversion raw value peak) s = .next (if u.mode = 0 then tryStep1 u
      else if s.mon.next % s.adcInputs = 47 then bankScan (u.inc K.scanCount) else u) := by
  subst hu
  exact congrArg Host.Outcome.next (if_neg hinputs)

theorem exec_holdupChargeRetry_of_shorted (hshorted : s.pw.shorted = true) (hoff : s.pw.charger = false) (hlow : 1 ≤ s.mode) (hhigh : s.mode ≤ 4) :
    exec .holdupChargeRetry s = .next (startCharging s) :=
  congrArg Host.Outcome.next (if_pos ⟨hshorted, by rw [hoff]; rfl, hlow, hhigh⟩)

theorem exec_holdupTestEnd_of_converted {v0 : Nat} (htest : s.pw.test = true) (hv0 : s.mon.v0 = some v0) (hgood : s.get (K.adcSample 25) % 4 = 0) :
    exec .holdupTestEnd s = .next (finishTest v0 s.bankMv s) := by
  simp only [exec, execHoldupTestEnd, htest, hv0, hgood, if_true]

end

/-- Settles O34: a conversion by the mode it leaves and its place in the scan, and one lemma per command of the bank. -/
theorem measurementCommands : Obligations.MeasurementCommands := by
  intro s
  refine ⟨fun raw value peak hinputs hplace hmode => ?inside, fun raw value peak u hinputs hu => ⟨fun hmode => ?cold, fun hmode hplace => ?last⟩,
    fun hcharger hbank => congrArg Host.Outcome.next (if_pos ⟨hcharger, hbank⟩), exec_holdupChargeRetry_of_shorted,
    fun hmode hcharger => congrArg Host.Outcome.next (if_pos ⟨hmode, hcharger⟩), fun hserving => congrArg Host.Outcome.next (if_pos hserving),
    fun v0 => exec_holdupTestEnd_of_converted⟩
  case inside => rw [exec_adcConversion_of_converted hinputs rfl, if_neg hmode, if_neg hplace]
  case cold => rw [exec_adcConversion_of_converted hinputs hu, if_pos hmode]
  case last => rw [exec_adcConversion_of_converted hinputs hu, if_neg hmode, if_pos hplace]

end Sys2Proof.Machine
end

section
/-! SUPPORT. Proofs of the board group family (15_board_group.md): timers and lines of the group, the peer packets that are taken, and
what each does. -/

namespace Sys2Proof.Machine

/-! ## Timers of the board group (R418, R422, R440, R441) -/

section
variable {s : State}

theorem exec_discoverTimer_of_manager (hmanager : s.isManager = true) (hstep : s.pastStep3 = true) :
    exec .discoverTimer s = .next (s.over ([1, 2].filter (fun p => s.get (K.portLinkState p) = 2))
      (fun s p => sendPeer p 0x13 0 0 0 15 (s.get K.barrierNumber) 0 true 0x01 s)) :=
  congrArg Host.Outcome.next (if_pos ⟨hmanager, hstep⟩)

theorem exec_heartbeatTimer_of_manager (hmanager : s.isManager = true) (hstep : s.pastStep3 = true)
    (hawake : (s.rosterMembers.any (fun k => k ≠ 0 && s.rosterState k ≠ 3)) = true) :
    exec .heartbeatTimer s = .next (broadcastTo (fun k => decide (s.rosterState k ≠ 3)) (controlPacket 0x05 0 s) s) :=
  congrArg Host.Outcome.next (if_pos ⟨hmanager, hstep, hawake⟩)

theorem exec_memberUnreachable_of_present {k : Fin 16} (hmanager : s.isManager = true) (hk : k.val ≠ 0) (hpresent : s.rosterState k = 2) :
    exec (.memberUnreachable k) s = .next (memberGone k 5 s) :=
  congrArg Host.Outcome.next (if_pos ⟨hmanager, hk, hpresent⟩)

theorem exec_managerUnreachable_of_worker (hworker : s.isManager = false) (hgroup : s.get K.groupState = 2) (hcold : s.mode ≠ 0)
    (hvigil : s.mode ≠ 5) : exec .managerUnreachable s = .next (s.set K.groupState 4) :=
  congrArg Host.Outcome.next (if_pos ⟨by rw [hworker]; rfl, hgroup, hcold, hvigil⟩)

/-! ## The barrier line and snapshots (R430 to R433) -/

/-- The line's level changes no mode. -/
theorem not_off_of_powered (hcold : s.mode ≠ 0) (hvigil : s.mode ≠ 5) : ¬ ((s.set K.eqxLine 1).mode = 5 ∨ (s.set K.eqxLine 1).mode = 0) := by
  have hmode : (s.set K.eqxLine 1).mode = s.mode := State.get_set_ne _ _ (by decide)
  rw [hmode]
  exact not_or.mpr ⟨hvigil, hcold⟩

theorem exec_eqxNRise_of_pending (hcold : s.mode ≠ 0) (hvigil : s.mode ≠ 5) (hjoined : s.grp.joining = false) (hpending : 2 ≤ s.get K.barrierState)
    (hrearm : s.grp.rearm = false) :
    exec .eqxNRise s = .next (completeBarrier ((s.set K.eqxLine 1).get K.barrierNumber)
      (nextBarrier ((s.set K.eqxLine 1).set K.lastBarrierTime ((s.now - s.grp.arrivedAt) % 2 ^ 40)))) := by
  have hoff := not_off_of_powered hcold hvigil
  have hwaits : ¬ ((s.set K.eqxLine 1).get K.barrierState < 2 ∨ (s.set K.eqxLine 1).grp.rearm = true) := by
    refine not_or.mpr ⟨Nat.not_lt.mpr ?_, ?_⟩
    · rwa [State.get_set_ne _ _ (by decide)]
    · exact hrearm ▸ Bool.false_ne_true
  have hplain : ¬ (s.set K.eqxLine 1).grp.joining = true := hjoined ▸ Bool.false_ne_true
  exact congrArg Host.Outcome.next ((if_neg hoff).trans ((if_neg hplain).trans (if_neg hwaits)))

theorem exec_eqxNRise_of_joining (hcold : s.mode ≠ 0) (hvigil : s.mode ≠ 5) (hjoining : s.grp.joining = true) :
    exec .eqxNRise s = .next (nextBarrier (s.set K.eqxLine 1)) := by
  have hoff := not_off_of_powered hcold hvigil
  exact congrArg Host.Outcome.next ((if_neg hoff).trans (if_pos hjoining))

theorem exec_eqxRearm_of_member (hrearm : s.grp.rearm = true) (hmember : s.isMember = true) (hvigil : s.mode ≠ 5) :
    exec .eqxRearm s = .next (armBarrier s) :=
  congrArg Host.Outcome.next (if_pos ⟨hrearm, hmember, hvigil⟩)

theorem exec_eqxNFall_of_powered (hcold : s.mode ≠ 0) (hvigil : s.mode ≠ 5) : exec .eqxNFall s = .next (exitPower 3 3 (s.set K.eqxLine 0)) :=
  congrArg Host.Outcome.next (if_neg (not_or.mpr ⟨hcold, hvigil⟩))

theorem exec_barrierTimeout_of_arrived (harrived : s.get K.barrierState = 2 ∨ s.get K.barrierState = 3) (hrearm : s.grp.rearm = false)
    (hvigil : s.mode ≠ 5) :
    exec .barrierTimeout s = .next ((occur 1226 (s.get K.barrierNumber % 524288) (abandonSnapshot s)).set K.barrierState 4) :=
  congrArg Host.Outcome.next (if_pos ⟨harrived, by rw [hrearm]; rfl, hvigil⟩)

theorem exec_snapshotHoldLimit_of_holding (hholds : s.get K.barrierState = 3) (hvigil : s.mode ≠ 5) :
    exec .snapshotHoldLimit s = .next ((abandonSnapshot s).set K.barrierState 2) :=
  congrArg Host.Outcome.next (if_pos ⟨hholds, hvigil⟩)

theorem exec_snapshotDurable_of_durable (hcut : s.get K.snapshotState = 1) (hdurable : s.get K.snapshotSequence ≤ s.get K.journalDurable) :
    exec .snapshotDurable s = .next (s.set K.snapshotState 2) :=
  congrArg Host.Outcome.next (if_pos ⟨hcut, hdurable⟩)

/-! ## Board reset, relays and transfers (R424, R434, R436) -/

theorem exec_drainComplete_of_worker (hprepares : s.grp.preparing = true) (hreported : s.grp.reported = false) (hdrained : s.isDrained = true)
    (hworker : s.isManager = false) :
    exec .drainComplete s = .next (sendControl 0x09 0 0 0 (s.modGrp (fun g => { g with reported := true }))) := by
  have hworker' : ¬ (s.modGrp (fun g => { g with reported := true })).isManager = true := hworker ▸ Bool.false_ne_true
  exact congrArg Host.Outcome.next ((if_pos ⟨hprepares, by rw [hreported]; rfl, hdrained⟩).trans (if_neg hworker'))

theorem exec_drainComplete_of_manager (hprepares : s.grp.preparing = true) (hreported : s.grp.reported = false) (hdrained : s.isDrained = true)
    (hmanager : s.isManager = true) :
    exec .drainComplete s = .next (checkDrained ((s.modGrp (fun g => { g with reported := true })).modGrp
      (fun g => { g with drained := g.drained ++ [0] }))) :=
  congrArg Host.Outcome.next ((if_pos ⟨hprepares, by rw [hreported]; rfl, hdrained⟩).trans (if_pos hmanager))

/-- A reset that does not drain in time is given up, with its stragglers (R434). -/
theorem exec_resetDrainLimit_of_draining (hdrains : s.get K.resetState = 1) :
    exec .resetDrainLimit s = .next (
      let u := (s.set K.resetState 3).set K.resetStragglers (maskOf (s.rosterMembers.filter (fun k => !s.grp.drained.contains k)))
      resumeReset (broadcastControl 0x04 (maskOf u.rosterMembers) u)) :=
  congrArg Host.Outcome.next (if_pos hdrains)

theorem exec_relayTimeout_of_device {p : Path} {tag dev : Nat} (hrelay : SMap.find? s.grp.relays (pathCode p) = some (tag, dev)) (hdev : dev ≠ 0x1F) :
    exec (.relayTimeout p) s = .next (endRelay (pathCode p) 3 s) := by
  simp only [exec, execRelayTimeout, hrelay, if_neg hdev]

/-- A relay to all that has not come back ends, with a free value within the roster as RelayReached (R424; log entry 62). -/
theorem exec_relayTimeout_of_all {p : Path} {tag : Nat} (hrelay : SMap.find? s.grp.relays (pathCode p) = some (tag, 0x1F)) :
    exec (.relayTimeout p) s = .next (endRelay (pathCode p) 4 (s.free.2.set (K.relayReached + (pathCode p + 1) * pathStride)
      (maskOf (s.free.2.rosterMembers.filter (fun k => decide (k ≠ 0) && (Config.freeNat s.free.1).testBit k))))) := by
  simp only [exec, execRelayTimeout, hrelay, if_true]

theorem exec_transferUnitSend_of_next {i : Nat} {out : List Nat} {os : List PageOutcome} (hxfer : s.grp.xfer = some (i, out))
    (hunits : i < s.get K.transferUnits) (hfetches : s.fetches = true) :
    exec (.transferUnitSend os) s = .next (
      let r := transferRead (s.get K.transferSourceSet) (s.get K.transferSourceFirst + i) os s
      (sendUnit i r.1 r.2).modGrp (fun g => { g with xfer := some (i + 1, out ++ [r.2.get K.transferDestFirst + i]) })) := by
  have hgoes : ¬ (s.get K.transferUnits ≤ i ∨ (!s.fetches) = true) := by
    rw [hfetches]
    exact not_or.mpr ⟨Nat.not_le.mpr hunits, Bool.false_ne_true⟩
  simp only [exec, execTransferUnitSend, hxfer, if_neg hgoes]

end

/-- Settles O39: one lemma per timer, line and command of the group. -/
theorem groupCommands : Obligations.GroupCommands := by
  intro s
  exact ⟨exec_discoverTimer_of_manager, exec_heartbeatTimer_of_manager, fun k => exec_memberUnreachable_of_present, exec_managerUnreachable_of_worker,
    exec_eqxNRise_of_pending, exec_eqxRearm_of_member, exec_eqxNFall_of_powered, exec_eqxNRise_of_joining, exec_barrierTimeout_of_arrived,
    exec_snapshotHoldLimit_of_holding, exec_snapshotDurable_of_durable, exec_drainComplete_of_worker, exec_drainComplete_of_manager,
    exec_resetDrainLimit_of_draining, fun p _ _ t dev => exec_relayTimeout_of_device, fun p t _ _ hrelay => ⟨_, exec_relayTimeout_of_all hrelay⟩,
    fun i out os => exec_transferUnitSend_of_next⟩

/-! ## Packets of the peer ring that this buffer takes (R420, R421, R439, R440) -/

/-- A buffer whose peer ports carry packets in S0, with its manager not lost (R421, R440). -/
def State.hearsPeers (s : State) : Prop := s.mode ≠ 0 ∧ s.mode ≠ 5 ∧ s.get K.powerState = 0 ∧ s.get K.groupState ≠ 4

/-- A packet for one buffer is for this one (R420). -/
def State.isDestination (s : State) (h : PeerHdr) : Bool :=
  if h.dest = 0 then s.isManager else decide (s.get K.deviceNumber = h.dest.toNat) && s.isMember

section
variable {s : State} {port : Fin 3} {h : PeerHdr} {typ subtype : Nat} {ws : List Word} {frame : Payload} {take : State → State}

theorem heardFrom_get (h : PeerHdr) (s : State) (j : Nat) : (heardFrom h s).get j = s.get j :=
  State.when_same (fun s => s.get j) rfl

/-- A worker keeps no record of whom it heard (R422). -/
theorem heardFrom_of_worker (hworker : s.isManager = false) : heardFrom h s = s := by
  rw [heardFrom, hworker, State.when_false]

theorem arrivalWake_of_s0 (hs0 : s.get K.powerState = 0) : arrivalWake s = s :=
  if_neg (by rw [hs0]; decide)

/-- A packet for this buffer alone is taken, its sender heard (R421, R422). -/
theorem peerArrive_of_destination (hport : port ≠ 0) (hears : s.hearsPeers) (hway : wrongWay typ subtype h = false) (hone : h.broadcast = false)
    (hdest : s.isDestination h = true) : peerArrive port h typ subtype ws frame take s = take (heardFrom h s) := by
  obtain ⟨hcold, hvigil, hs0, hkept⟩ := hears
  have hport' : port.val ≠ 0 := fun hp => hport (Fin.ext hp)
  have hmine : (if h.dest = 0 then (heardFrom h s).isManager
      else decide ((heardFrom h s).get K.deviceNumber = h.dest.toNat) && (heardFrom h s).isMember) = true := by
    simpa only [State.isDestination, State.isManager, State.isMember, heardFrom_get] using hdest
  have hkept' : decide ((heardFrom h s).get K.groupState = 4) = false := by
    rw [heardFrom_get]
    exact decide_eq_false hkept
  unfold peerArrive
  simp only [hport', hcold, hvigil, or_self, if_false, hway, hone, arrivalWake_of_s0 hs0, hmine, hkept', Bool.false_eq_true, if_true]

/-- A broadcast that is not of an earlier generation is passed on and taken by a worker, and taken by the manager (R421). -/
theorem peerArrive_of_broadcast (hport : port ≠ 0) (hears : s.hearsPeers) (hway : wrongWay typ subtype h = false) (hall : h.broadcast = true)
    (hfresh : s.broadcastFresh h = true) :
    peerArrive port h typ subtype ws 0 take s = take (broadcastHeard port h typ subtype ws s) := by
  obtain ⟨hcold, hvigil, hs0, hkept⟩ := hears
  have hport' : port.val ≠ 0 := fun hp => hport (Fin.ext hp)
  unfold peerArrive broadcastHeard
  cases hrole : s.isManager with
  | true =>
    have hrole' : (heardFrom h s).isManager = true := by simpa only [State.isManager, heardFrom_get] using hrole
    simp only [hport', hcold, hvigil, or_self, if_false, hway, hall, arrivalWake_of_s0 hs0, hrole', Bool.false_eq_true, if_true]
  | false =>
    have hfresh' : (s.isMember && decide ((s.grp.grantGen + 1048576 - h.generation.toNat) % 1048576 ≠ 0)
        && decide ((s.grp.grantGen + 1048576 - h.generation.toNat) % 1048576 < 524288)) = false := by
      simpa only [State.broadcastFresh, hrole, Bool.false_or, Bool.not_eq_true'] using hfresh
    simp only [hport', hcold, hvigil, or_self, if_false, hway, hall, arrivalWake_of_s0 hs0, heardFrom_of_worker hrole, hrole, hfresh', hkept,
      Bool.false_eq_true, if_true, decide_false, Bool.false_and]

/-- A packet to the manager travels to no one else (R420). -/
theorem wrongWay_toManager (hone : h.broadcast = false) (hdest : h.dest = 0) (hsub : subtype ∈ [0x02, 0x06, 0x07, 0x09, 0x0D]) :
    wrongWay 0x13 subtype h = false := by
  have hcontains : [0x02, 0x06, 0x07, 0x09, 0x0D].contains subtype = true := List.contains_iff_mem.mpr hsub
  simp only [wrongWay, hcontains, if_true, hone, hdest, ne_eq, not_true_eq_false, decide_false, Bool.or_self]

/-- A broadcast of the manager travels as one (R420). -/
theorem wrongWay_broadcast (hall : h.broadcast = true) (hsub : subtype ∉ [0x02, 0x06, 0x07, 0x09, 0x0D]) (hgrant : subtype ≠ 0x03) :
    wrongWay 0x13 subtype h = false := by
  have hcontains : ¬ [0x02, 0x06, 0x07, 0x09, 0x0D].contains subtype = true := fun hc => hsub (List.contains_iff_mem.mp hc)
  simp only [wrongWay, if_neg hcontains, if_neg hgrant, hall, Bool.not_true]

/-- A control packet to the manager is taken there. -/
theorem controlArrive_of_manager (hport : port ≠ 0) (hears : s.hearsPeers) (hone : h.broadcast = false) (hdest : h.dest = 0)
    (hmanager : s.isManager = true) (hsub : subtype ∈ [0x02, 0x06, 0x07, 0x09, 0x0D]) :
    controlArrive port h subtype take s = take (heardFrom h s) :=
  peerArrive_of_destination hport hears (wrongWay_toManager hone hdest hsub) hone ((if_pos hdest).trans hmanager)

/-- A control packet to all is taken as its broadcast was heard. -/
theorem controlArrive_of_broadcast (hport : port ≠ 0) (hears : s.hearsPeers) (hall : h.broadcast = true) (hfresh : s.broadcastFresh h = true)
    (hsub : subtype ∉ [0x02, 0x06, 0x07, 0x09, 0x0D]) (hgrant : subtype ≠ 0x03) :
    controlArrive port h subtype take s = take (broadcastHeard port h 0x13 subtype [] s) :=
  peerArrive_of_broadcast hport hears (wrongWay_broadcast hall hsub hgrant) hall hfresh

/-- A transaction of the right length arrives as any other packet (R57). -/
theorem transactionArrive_of_whole (hwhole : (transactionOf h.byteCount.toNat ws).isSome = true) :
    transactionArrive port h typ ws take s = peerArrive port h typ 0 ws 0 take s := by
  refine if_neg fun hnone => ?_
  rw [Option.isNone_iff_eq_none.mp hnone.1] at hwhole
  exact Bool.false_ne_true hwhole

theorem exitPower_heardFrom (hears : s.hearsPeers) (cause by_ : Nat) : exitPower cause by_ (heardFrom h s) = heardFrom h s :=
  exitPower_of_s0 _ _ ((heardFrom_get h s _).trans hears.2.2.1)

end

section
variable {s : State} {port : Fin 3} {h : PeerHdr}

theorem exec_peerMgmtRequest_of_destination (hport : port ≠ 0) (hears : s.hearsPeers) (hone : h.broadcast = false) (hdest : s.isDestination h = true)
    {ws : List Word} (hwhole : (transactionOf h.byteCount.toNat ws).isSome = true) :
    exec (.peerMgmtRequest port h ws) s = .next (takePeerMgmtRequest port h ws (heardFrom h s)) := by
  have hway : wrongWay 0x10 0 h = false := hone
  refine congrArg Host.Outcome.next ((transactionArrive_of_whole hwhole).trans ((peerArrive_of_destination hport hears hway hone hdest).trans ?_))
  rw [exitPower_heardFrom hears]

theorem exec_transferData_of_destination (hport : port ≠ 0) (hears : s.hearsPeers) (hone : h.broadcast = false) (hdest : s.isDestination h = true)
    (f : Payload) : exec (.transferData port h f) s = .next (takeTransferData port h f (heardFrom h s)) := by
  have hway : wrongWay 0x14 0 h = false := hone
  refine congrArg Host.Outcome.next ((peerArrive_of_destination hport hears hway hone hdest).trans ?_)
  rw [exitPower_heardFrom hears]

theorem exec_transferAck_of_destination (hport : port ≠ 0) (hears : s.hearsPeers) (hone : h.broadcast = false) (hdest : s.isDestination h = true) :
    exec (.transferAck port h) s = .next (takeTransferAck h (heardFrom h s)) :=
  congrArg Host.Outcome.next (peerArrive_of_destination hport hears hone hone hdest)

theorem exec_peerMgmtResponse_of_manager (hport : port ≠ 0) (hears : s.hearsPeers) (hone : h.broadcast = false) (hdest : h.dest = 0)
    (hmanager : s.isManager = true) (ws : List Word) :
    exec (.peerMgmtResponse port h ws) s = .next (takePeerMgmtResponse port h ws (heardFrom h s)) := by
  have hway : wrongWay 0x11 0 h = false := by simp only [wrongWay, hone, hdest, ne_eq, not_true_eq_false, decide_false, Bool.or_self]
  exact congrArg Host.Outcome.next (peerArrive_of_destination hport hears hway hone ((if_pos hdest).trans hmanager))

theorem exec_mgmtBroadcast_of_fresh (hport : port ≠ 0) (hears : s.hearsPeers) (hall : h.broadcast = true) (hfresh : s.broadcastFresh h = true)
    {ws : List Word} (hwhole : (transactionOf h.byteCount.toNat ws).isSome = true) :
    exec (.mgmtBroadcast port h ws) s = .next (takeMgmtBroadcast port h ws (exitPower 3 port (broadcastHeard port h 0x12 0 ws s))) := by
  have hway : wrongWay 0x12 0 h = false := by simp only [wrongWay, hall, Bool.not_true]
  exact congrArg Host.Outcome.next ((transactionArrive_of_whole hwhole).trans (peerArrive_of_broadcast hport hears hway hall hfresh))

end

/-- Settles O40: a packet for this buffer alone and one to all arrive as such; a transaction is whole. -/
theorem peerPacketsTaken : Obligations.PeerPacketsTaken := by
  intro port h s hport hcold hvigil hs0 hkept
  have hears : s.hearsPeers := ⟨hcold, hvigil, hs0, hkept⟩
  refine ⟨fun hone hdest => ⟨fun ws => exec_peerMgmtRequest_of_destination hport hears hone hdest,
    exec_transferData_of_destination hport hears hone hdest, exec_transferAck_of_destination hport hears hone hdest⟩,
    fun hone hdest hmanager => ?toManager, fun hall hfresh => ?toAll⟩
  case toManager =>
    have htaken {subtype : Nat} {take : State → State} (hsub : subtype ∈ [0x02, 0x06, 0x07, 0x09, 0x0D]) :=
      congrArg (Host.Outcome.next : State → Res) (controlArrive_of_manager (take := take) hport hears hone hdest hmanager hsub)
    exact ⟨htaken (by decide), htaken (by decide), htaken (by decide), exec_peerMgmtResponse_of_manager hport hears hone hdest hmanager,
      htaken (by decide), htaken (by decide)⟩
  case toAll =>
    have htaken {subtype : Nat} {take : State → State} (hsub : subtype ∉ [0x02, 0x06, 0x07, 0x09, 0x0D]) (hgrant : subtype ≠ 0x03) :=
      congrArg (Host.Outcome.next : State → Res) (controlArrive_of_broadcast (take := take) hport hears hall hfresh hsub hgrant)
    exact ⟨htaken (by decide) (by decide), htaken (by decide) (by decide), htaken (by decide) (by decide),
      fun ws => exec_mgmtBroadcast_of_fresh hport hears hall hfresh, htaken (by decide) (by decide), htaken (by decide) (by decide),
      htaken (by decide) (by decide), htaken (by decide) (by decide)⟩

/-! ## What a packet does at the manager (R415, R418, R422, R424, R433, R434, R439) -/

section
variable {u v : State} {port : Fin 3} {h : PeerHdr} {ws : List Word}

/-- The Grant of a number from a place in the roster on, and the roster told of it (R415, R418). -/
def grantNumber (port n hops : Nat) (s : State) : State :=
  let x := sendPeer port 0x13 0 0 n hops (n * 2 ^ 28 + (s.inc20 K.rosterGeneration).get K.barrierNumber) 0 false 0x03 (s.inc20 K.rosterGeneration)
  groupChanged (maskOf x.rosterMembers) (broadcastControl 0x04 (maskOf x.rosterMembers) (x.set K.memberCount x.rosterMembers.length))

/-- A worker that gets a number from the east of a formed group is granted it, and the roster is told (R415, R418). -/
theorem takeJoinRequest_of_east {n e w : Nat} (hmanager : u.isManager = true) (hstep : u.pastStep3 = true) (hport : port = 1)
    (hnumber : u.chooseNumber (h.argument.toNat / 2 ^ 28) (h.argument.toNat / 2 ^ 20 % 16) (h.argument.toNat.testBit 27) port
      (16 - h.hops.toNat) = some n)
    (he : e = 16 - h.hops.toNat) (hw : w = match u.grp.ringSize with | some k => k - e | none => 0)
    (hv : v = (u.set (K.rosterEntry n) (2 * 2 ^ 37 + e % 16 * 2 ^ 33 + w % 16 * 2 ^ 29 + h.argument.toNat / 2 ^ 24 % 8 * 2 ^ 26)).modGrp
      (fun g => { g with heard := SMap.insert g.heard n u.now }))
    (hgroup : v.get K.groupState = 2) : takeJoinRequest port h u = grantNumber port n e v := by
  have hformed : (if v.get K.groupState = 2 then v else armBarrier (v.set K.groupState 2)) = v := if_pos hgroup
  have hgoes : ¬ (!u.isManager || !u.pastStep3) = true := by
    rw [hmanager, hstep]
    exact Bool.false_ne_true
  rw [← hformed]
  subst hport he hw hv
  unfold takeJoinRequest
  rw [if_neg hgoes]
  simp only [hnumber]
  rfl

/-- A Status of a present member whose drain it does not report updates its entry (R422). -/
theorem takeStatus_of_present {k : Nat} (hmanager : u.isManager = true) (hk : k = h.source.toNat) (hknown : u.rosterState k ≠ 0)
    (hdrain : h.argument.toNat.testBit 20 = false)
    (hv : v = setRoster k 23 3 (h.argument.toNat / 2 ^ 21 % 8) (setRoster k 26 3 (h.argument.toNat / 2 ^ 24 % 8) u))
    (hpresent : v.rosterState k = 2) :
    takeStatus h u = v := by
  subst hk
  have hgoes : (!u.isManager || decide (u.rosterState h.source.toNat = 0)) = false := by rw [hmanager, decide_eq_false hknown]; rfl
  have hback : (decide (v.rosterState h.source.toNat = 5) || decide (v.rosterState h.source.toNat = 3)) = false := by rw [hpresent]; rfl
  simp only [takeStatus, hgoes, ← hv, hback, hdrain, Bool.false_and, State.when_false, Bool.false_eq_true, if_false, -Nat.reducePow]

theorem takeLeave_of_member (hmanager : u.isManager = true) (hsource : h.source ≠ 0) (hknown : u.rosterState h.source.toNat ≠ 0) :
    takeLeave h u = memberGone h.source.toNat 0 u :=
  if_pos ⟨hmanager, hsource, hknown⟩

theorem takePeerMgmtResponse_of_relay {code : Nat} (hmanager : u.isManager = true) (hrelay : u.relayOf h.tag.toNat h.source.toNat = some code) :
    takePeerMgmtResponse port h ws u = endRelay code 2 (u.setBlob (K.relayResponse + (code + 1) * pathStride) ws) := by
  simp only [takePeerMgmtResponse, hmanager, hrelay, Bool.not_true, Bool.false_eq_true, if_false]

theorem takeSnapshotReport_of_valid (hmanager : u.isManager = true) (hvalid : h.argument.toNat.testBit 20 = true)
    (hnumber : h.argument.toNat % 1048576 = u.get K.snapshotNumber) :
    takeSnapshotReport h u = (u.set (K.snapshotTable h.source.toNat) h.duo1.toNat).set K.snapshotGathered
      (u.get K.snapshotGathered ||| 2 ^ h.source.toNat) :=
  if_pos ⟨hmanager, hvalid, hnumber⟩

theorem takeDrained_of_draining (hmanager : u.isManager = true) (hdrains : u.get K.resetState = 1) :
    takeDrained h u = checkDrained (u.modGrp (fun g => { g with drained := g.drained ++ [h.source.toNat] })) :=
  if_pos ⟨hmanager, hdrains⟩

theorem takeMgmtBroadcast_of_relay {code : Nat} (hmanager : u.isManager = true) (hrelay : u.relayOf h.tag.toNat 0x1F = some code) :
    takeMgmtBroadcast port h ws u = endRelay code 4
      (u.set (K.relayReached + (code + 1) * pathStride) (maskOf (u.rosterMembers.filter (fun k => k ≠ 0)))) := by
  simp only [takeMgmtBroadcast, hmanager, hrelay, if_true]

/-! ## What a packet does at a worker (R57, R418, R422, R425, R429, R433 to R436, R439) -/

theorem takePeerMgmtRequest_of_answers {op : Nat} {r : ReqHeader} {vs : List Word} (hwhole : transactionOf h.byteCount.toNat ws = some (op, r, vs))
    (hanswers : u.answers (sourcePath h) = true) :
    takePeerMgmtRequest port h ws u = serveWith (replyPeer h op r) (sourcePath h) op r vs u := by
  simp only [takePeerMgmtRequest, hwhole, hanswers, if_true]

theorem takeMgmtBroadcast_of_worker {op : Nat} {r : ReqHeader} {vs : List Word} (hwhole : transactionOf h.byteCount.toNat ws = some (op, r, vs))
    (hworker : u.isManager = false) (hop : op = 1 ∨ op = 2) (hanswers : u.answers (sourcePath h) = true) :
    takeMgmtBroadcast port h ws u = serveWith (fun _ s => s) (sourcePath h) op r vs u := by
  simp only [takeMgmtBroadcast, hworker, hwhole, hop, hanswers, Bool.false_eq_true, if_false, and_self, if_true]

/-- The first frame of a unit that leaves it incomplete is kept with it (R436). -/
theorem takeTransferData_of_first {f : Payload} {y : XferUnit} {set lui : Nat}
    (hset : set = h.duo1.toNat / 2 ^ 37) (hlui : lui = h.duo1.toNat % 2 ^ 35)
    (hfirst : u.grp.arriving.find? (fun (x : XferUnit) => decide (x.source = h.source.toNat) && decide (x.set = set) && decide (x.lui = lui)) = none)
    (hdefined : u.get (K.setState set) ≠ 0) (hunits : lui < u.get (K.setLogicalUnits set)) (hgroup : u.get K.groupState ≠ 3) (hstatus : h.status = 0)
    (hy : y = { source := h.source.toNat, port := port.val, set := set, lui := lui, entry := u.entry set lui, empty := false,
                frames := SMap.insert [] (h.duo1.toNat / 2 ^ 35 % 4) (arrivedFrame lui (h.duo1.toNat / 2 ^ 35 % 4) 0 f) })
    (hincomplete : y.complete = false) :
    takeTransferData port h f u = u.modGrp (fun g => { g with arriving := g.arriving ++ [y] }) := by
  have htaken : (decide (u.get (K.setState set) = 0) || decide (u.get (K.setLogicalUnits set) ≤ lui) || decide (u.get K.groupState = 3)) = false := by
    rw [decide_eq_false hdefined, decide_eq_false (Nat.not_le.mpr hunits), decide_eq_false hgroup]
    rfl
  have hnew : decide (h.status = 2) = false := by rw [hstatus]; rfl
  have hkept : h.status.toNat = 0 := by rw [hstatus]; rfl
  simp only [takeTransferData, ← hset, ← hlui, hfirst, htaken, hnew, hkept, ← hy, hincomplete, Option.getD_none, Bool.and_false, Bool.false_eq_true,
    if_false, State.when_false, -Nat.reducePow]

/-- An acknowledgement that leaves others outstanding is counted (R436). -/
theorem takeTransferAck_of_outstanding {i lui : Nat} {out : List Nat} (hxfer : u.grp.xfer = some (i, out)) (hlui : lui = h.duo1.toNat % 2 ^ 35)
    (hout : out.contains lui = true) (hstatus : h.status = 0) (hrest : out.erase lui ≠ []) :
    takeTransferAck h u = (u.inc K.transferUnitsDone).modGrp (fun g => { g with xfer := some (i, out.erase lui) }) := by
  subst hlui
  simp only [takeTransferAck, hxfer, hout, hstatus, hrest, Bool.not_true, Bool.false_eq_true, if_false, false_and, if_true]
  rfl

theorem takeDiscover_of_seeker (hworker : u.isManager = false) (hseeks : u.seeksPlace = true) :
    takeDiscover port h u = sendPeer port 0x13 0 0 0 15 (u.get K.deviceNumber * 2 ^ 28
      + (if u.serving then 2 ^ 27 else 0) + u.mode * 2 ^ 24 + u.get K.lastDeviceNumber * 2 ^ 20) 0 false 0x02
      (u.modGrp (fun g => { g with asked := true })) := by
  simp only [takeDiscover, hworker, hseeks, Bool.false_eq_true, if_false, if_true]

/-- A member that is named, or is not leaving, takes over the roster (R418, R434, R440). -/
theorem takeRoster_of_member {m : Nat} (hworker : u.isManager = false) (hmember : u.isMember = true) (hm : m = h.argument.toNat % 65536)
    (hnamed : u.get K.groupState = 3 → m.testBit (u.get K.deviceNumber) = true) :
    takeRoster h u = groupChanged m (resumeReset (dropMembers m ((u.set K.rosterGeneration h.generation.toNat).set K.memberCount
      ((List.range 16).filter (fun k => m.testBit k)).length))) := by
  have hstays : ¬ (((u.set K.rosterGeneration h.generation.toNat).set K.memberCount
      ((List.range 16).filter (fun k => m.testBit k)).length).get K.groupState = 3 ∧ m.testBit (u.get K.deviceNumber) = false) := by
    rw [State.get_set_ne _ _ (by decide), State.get_set_ne _ _ (by decide)]
    rintro ⟨hleaving, hunnamed⟩
    rw [hnamed hleaving] at hunnamed
    exact Bool.false_ne_true hunnamed.symm
  subst hm
  simp only [takeRoster, hworker, hmember, Bool.false_eq_true, if_false, if_true, if_neg hstays]

theorem takeHeartbeat_of_member (hworker : u.isManager = false) (hmember : u.isMember = true) (hkept : u.get K.groupState ≠ 4) :
    takeHeartbeat u = sendControl 0x06 0 (u.mode * 2 ^ 24 + u.get K.powerState * 2 ^ 21 + (if u.grp.reported then 2 ^ 20 else 0)) 0 u := by
  simp only [takeHeartbeat, hworker, hmember, Bool.not_true, Bool.or_self, Bool.false_eq_true, if_false, if_neg hkept]

theorem takeArriveAll_of_ok {a : Nat} (ha : a = (if h.argument.toNat.testBit 31 then 549755813888 else 0) + h.argument.toNat % 1048576)
    (hok : u.arriveOk a = true) : takeArriveAll h u = arriveEffect a u := by
  subst ha
  exact if_pos hok

/-- A worker whose cut of that number is valid reports it (R433). -/
theorem takeSnapshotGather_of_valid {n : Nat} (hworker : u.isManager = false) (hn : n = h.argument.toNat % 1048576)
    (hnumber : u.get K.snapshotNumber = n) (hcut : u.get K.snapshotState = 1 ∨ u.get K.snapshotState = 2) :
    takeSnapshotGather h u = sendControl 0x0D 0 (n + 1048576) (u.get K.snapshotSequence) u := by
  subst hn
  have hvalid : (decide (u.get K.snapshotState = 1) || decide (u.get K.snapshotState = 2)) = true := by simpa using hcut
  simp only [takeSnapshotGather, hworker, hnumber, hvalid, decide_true, Bool.and_self, Bool.false_eq_true, if_false, if_true]

theorem takeResetPrepare_of_worker (hworker : u.isManager = false) : takeResetPrepare u = prepareReset u :=
  if_neg (hworker ▸ Bool.false_ne_true)

theorem takeReset_of_worker (hworker : u.isManager = false) : takeReset u = enterCold 5 false u :=
  if_neg (hworker ▸ Bool.false_ne_true)

end

/-! ## Grant (R416, R418) -/

section
variable {s : State} {port : Fin 3} {h : PeerHdr}

theorem wrongWay_grant (hone : h.broadcast = false) : wrongWay 0x13 0x03 h = false := hone

theorem exec_grant_of_hopsLeft (hport : port ≠ 0) (hears : s.hearsPeers) (hone : h.broadcast = false) (hhops : 2 ≤ h.hops.toNat) :
    exec (.grant port h) s = .next (forwardPacket (if port = 1 then 2 else 1) (passOn h 0x13 0x03 [] 0) s) := by
  obtain ⟨hcold, hvigil, hs0, -⟩ := hears
  have hport' : port.val ≠ 0 := fun hp => hport (Fin.ext hp)
  have hfar : ¬ h.hops.toNat ≤ 1 := Nat.not_le.mpr hhops
  have hout : port.val = 1 ↔ port = 1 := Fin.val_inj (b := 1)
  simp only [exec, execGrant, hport', hcold, hvigil, hfar, wrongWay_grant hone, arrivalWake_of_s0 hs0, hout, decide_false, Bool.false_and,
    Bool.false_eq_true, and_false, false_and, or_self, if_false]

theorem exec_grant_of_arrived (hport : port ≠ 0) (hears : s.hearsPeers) (hone : h.broadcast = false) (hhops : h.hops.toNat ≤ 1)
    (hseeks : s.seeksPlace = true) (hasked : s.grp.asked = true) (hmode : s.mode = 1) :
    exec (.grant port h) s = .next (takeGrant (h.argument.toNat / 2 ^ 28) (h.argument.toNat % 1048576) h.generation.toNat s) := by
  obtain ⟨-, -, hs0, -⟩ := hears
  have hport' : port.val ≠ 0 := fun hp => hport (Fin.ext hp)
  have hmode' : decide (s.mode = 1) = true := decide_eq_true hmode
  simp only [exec, execGrant, hport', hhops, hseeks, hasked, hmode', wrongWay_grant hone, arrivalWake_of_s0 hs0, decide_true, Bool.true_or,
    Bool.and_self, Bool.false_eq_true, and_false, if_false, ne_eq, not_false_eq_true, and_self, if_true]

end

/-- An effect as it is taken is the command's. -/
theorem exec_eq_of_taken {i : Instr} {s t u : State} (htaken : exec i s = .next t) (heff : t = u) : exec i s = .next u := heff ▸ htaken

/-- Settles O41: each packet is taken as O40 says, and what it does is its operation's lemma. -/
theorem peerPacketEffects : Obligations.PeerPacketEffects := by
  intro port h s hport hcold hvigil hs0 hkept
  have hears : s.hearsPeers := ⟨hcold, hvigil, hs0, hkept⟩
  obtain ⟨htoOne, htoManager, htoAll⟩ := peerPacketsTaken port h s hport hcold hvigil hs0 hkept
  refine ⟨fun u hone hdest hu => ?one, fun u hall hfresh hu => ?discover, fun u m hall hfresh hu _ hworker hmember hm hnamed => ?roster,
    fun u hall hfresh hu hgroup hworker hmember => ?heartbeat, fun u ws op r vs hall hfresh hwhole hu => ?relay,
    fun u a hall hfresh hu ha hok => ?arriveAll, fun u n hall hfresh hu hworker hn hnumber hcut => ?gather, fun u hall hfresh hu hworker => ?prepare,
    fun u hall hfresh hu hworker => ?reset, exec_grant_of_hopsLeft hport hears, exec_grant_of_arrived hport hears⟩
  case one =>
    subst hu
    obtain ⟨hrequest, hdata, hack⟩ := htoOne hone hdest
    have hmanager (hrole : (heardFrom h s).isManager = true) : s.isManager = true := by simpa only [State.isManager, heardFrom_get] using hrole
    refine ⟨fun n e w v hto hrole hstep heast hnumber he hw hv hgroup => ?join, fun k v hto hrole hk hknown hdrain hv hpresent => ?status,
      fun hto hrole hsource hknown => ?leave, fun ws op r vs hwhole hanswers => ?request, fun ws code hto hrole hrelay => ?response,
      fun hto hrole hvalid hnumber => ?report, fun hto hrole hdrains => ?drained,
      fun f y set lui hset hlui hfirst hdefined hunits hgroup hstatus hy hincomplete =>
        exec_eq_of_taken (hdata f) (takeTransferData_of_first hset hlui hfirst hdefined hunits hgroup hstatus hy hincomplete),
      fun i out lui hxfer hlui hout hstatus hrest => exec_eq_of_taken hack (takeTransferAck_of_outstanding hxfer hlui hout hstatus hrest)⟩
    case join =>
      obtain ⟨hjoin, -⟩ := htoManager hone hto (hmanager hrole)
      exact exec_eq_of_taken hjoin (takeJoinRequest_of_east hrole hstep heast hnumber he hw hv hgroup)
    case status =>
      obtain ⟨-, hstatus, -⟩ := htoManager hone hto (hmanager hrole)
      exact exec_eq_of_taken hstatus (takeStatus_of_present hrole hk hknown hdrain hv hpresent)
    case leave =>
      obtain ⟨-, -, hleave, -⟩ := htoManager hone hto (hmanager hrole)
      exact exec_eq_of_taken hleave (takeLeave_of_member hrole hsource hknown)
    case request =>
      exact exec_eq_of_taken (hrequest ws (by rw [hwhole]; rfl)) (takePeerMgmtRequest_of_answers hwhole hanswers)
    case response =>
      obtain ⟨-, -, -, hresponse, -⟩ := htoManager hone hto (hmanager hrole)
      exact exec_eq_of_taken (hresponse ws) (takePeerMgmtResponse_of_relay hrole hrelay)
    case report =>
      obtain ⟨-, -, -, -, hreport, -⟩ := htoManager hone hto (hmanager hrole)
      exact exec_eq_of_taken hreport (takeSnapshotReport_of_valid hrole hvalid hnumber)
    case drained =>
      obtain ⟨-, -, -, -, -, hdrained⟩ := htoManager hone hto (hmanager hrole)
      exact exec_eq_of_taken hdrained (takeDrained_of_draining hrole hdrains)
  all_goals subst hu
  all_goals obtain ⟨hdiscover, hroster, hheartbeat, hrelay, harriveAll, hgather, hprepare, hreset⟩ := htoAll hall hfresh
  case discover =>
    exact ⟨fun hrole => exec_eq_of_taken hdiscover (if_pos hrole),
      fun hworker hseeks => exec_eq_of_taken hdiscover (takeDiscover_of_seeker hworker hseeks)⟩
  case roster => exact exec_eq_of_taken hroster (takeRoster_of_member hworker hmember hm hnamed)
  case heartbeat => exact exec_eq_of_taken hheartbeat (takeHeartbeat_of_member hworker hmember hgroup)
  case relay =>
    have htaken := hrelay ws (by rw [hwhole]; rfl)
    exact ⟨fun hworker hop hanswers => exec_eq_of_taken htaken (takeMgmtBroadcast_of_worker hwhole hworker hop hanswers),
      fun code hrole hcode => exec_eq_of_taken htaken (takeMgmtBroadcast_of_relay hrole hcode)⟩
  case arriveAll => exact exec_eq_of_taken harriveAll (takeArriveAll_of_ok ha hok)
  case gather => exact exec_eq_of_taken hgather (takeSnapshotGather_of_valid hworker hn hnumber hcut)
  case prepare => exact exec_eq_of_taken hprepare (takeResetPrepare_of_worker hworker)
  case reset => exact exec_eq_of_taken hreset (takeReset_of_worker hworker)

end Sys2Proof.Machine
end

section
/-! SUPPORT. Proofs of the ring family (03_rings.md), part 1: commands that store nothing to the shared window. -/

namespace Sys2Proof.Machine

/-! ## Commands that store nothing to the shared window (R74, R99) -/

theorem win_of_carried {s t : State} (h : t.carried = s.carried) : t.win = s.win := congrArg Prod.snd h

theorem pending_of_carried {s t : State} (h : t.carried = s.carried) : t.pending = s.pending := congrArg Prod.fst h

/-- A command answers a next state with the queue and the shared window that it found. -/
def Carries (s : State) (r : Res) : Prop := ∃ t, r = .next t ∧ t.carried = s.carried

theorem carries_next {s t : State} (h : t.carried = s.carried) : Carries s (.next t) := ⟨t, rfl, h⟩

theorem Carries.win {s : State} {r : Res} (h : Carries s r) : ∃ t, r = .next t ∧ t.win = s.win := by
  obtain ⟨t, rfl, ht⟩ := h
  exact ⟨t, rfl, win_of_carried ht⟩

theorem execDescriptorFetch_carries (s : State) : Carries s (execDescriptorFetch s) := by
  refine carries_next ?_
  split
  · rfl
  · split
    · rfl
    · next n u hpick =>
      have hu : u.carried = s.carried := pickRing_carried hpick
      dsimp only
      split <;> simp [hu]

theorem execRead_carries (ring : Fin 8192) (slot : Fin 65536) (s : State) : Carries s (execRead ring slot s) := by
  refine carries_next ?_
  split
  · split
    · exact endRead_carried ..
    · split
      · rfl
      · simp
  · rfl

theorem execWrite_carries (ring : Fin 8192) (slot : Fin 65536) (s : State) : Carries s (execWrite ring slot s) := by
  refine carries_next ?_
  split
  · split
    · exact finishOp_carried ..
    · split
      · exact finishReplay_carried ..
      · split
        · exact State.modOp_carried ..
        · exact joinAdmission_carried ..
  · rfl

theorem execWriteAcknowledge_carries (ring : Fin 8192) (slot : Fin 65536) (s : State) : Carries s (execWriteAcknowledge ring slot s) := by
  refine carries_next ?_
  split
  · split
    · rfl
    · split
      · rfl
      · split
        · exact startMerges_carried ..
        · exact acknowledge_carried ..
  · rfl

theorem execMemReadData_carries (tag n : BitVec 13) (poisoned : Bool) (v : BitVec 32768) (s : State) :
    Carries s (execMemReadData tag n poisoned v s) := by
  refine carries_next ?_
  split
  · exact State.inc_carried ..
  · split
    · exact hostReadBad_carried ..
    · split
      · exact State.inc_carried ..
      · exact takeHostData_carried ..

/-- What a received flit does carries, and so do its beats (R291, R304). -/
theorem execPayloadFlit_carries (port : Fin 3) (ctl : FlitCtl) (beats : FlitBeats) (s : State) : Carries s (execPayloadFlit port ctl beats s) :=
  carries_next (rxFlit_carried _ _ _ _ (fun s => by simp) s)

theorem execDieQueueIssue_carries (c : Fin 96) (d : Fin 16) (s : State) : Carries s (execDieQueueIssue c d s) := by
  refine carries_next ?_
  dsimp only
  split
  · rfl
  · generalize (if s.tablesBack then s.leadRead c d else none) = lead
    have hlead : (match lead with | some l => issueReads c d (s.mergeSet c d l) s | none => s).carried = s.carried := by
      cases lead
      · rfl
      · exact issueReads_carried ..
    split
    · split
      · exact (issueJob_carried ..).trans (State.modDie_carried ..)
      · exact hlead
    · exact hlead

theorem execBusGrant_carries (c : Fin 96) (framing : Framing) (parityBad : Option FabricStage) (s : State) :
    Carries s (execBusGrant c framing parityBad s) := by
  refine carries_next ?_
  split
  · rfl
  · split
    · rfl
    · dsimp only
      split
      · exact (grantRead_carried ..).trans (State.modChan_carried ..)
      · exact (grantDataIn_carried ..).trans (State.modChan_carried ..)

theorem execWalkStripe_carries (set : Fin 8) (outcomes : List PageOutcome) (s : State) : Carries s (execWalkStripe set outcomes s) := by
  refine carries_next ?_
  split
  · rfl
  · split
    · rfl
    · split
      · exact State.modSet_carried ..
      · split
        · rfl
        · split
          · exact makeRoom_carried ..
          · extract_lets page x u
            split
            · rfl
            · exact (relocateStripe_carried ..).trans (State.modSet_carried ..)

/-- Settles O5: the operation that each command calls leaves the queue and the window as they were. -/
theorem commandStoresToTheWindow : Obligations.CommandStoresToTheWindow := by
  intro s
  exact ⟨fun n v => Carries.win (carries_next (doorbell_carried false n v.toNat s)),
    fun m v => Carries.win (carries_next (doorbell_carried true m v.toNat s)), (execDescriptorFetch_carries s).win,
    fun n k => (execRead_carries n k s).win, fun n k => (execWrite_carries n k s).win, fun n k => (execWriteAcknowledge_carries n k s).win,
    fun tag n b v => (execMemReadData_carries tag n b v s).win, fun p ctl bs => (execPayloadFlit_carries p ctl bs s).win,
    fun c d => (execDieQueueIssue_carries c d s).win, fun c f b => (execBusGrant_carries c f b s).win,
    fun n os => (execWalkStripe_carries n os s).win⟩

end Sys2Proof.Machine
end

section
/-! SUPPORT. Proofs of the ring family (03_rings.md), part 2: posted completions and their Phase, operations that end, and notices. -/

namespace Sys2Proof.Machine

/-! ## Notices and posted completions (R84 to R87) -/

section
variable {m : Nat} {c : Completion} {s : State}

theorem when_sendNotice_cplPool (b : Bool) (s : State) : (s.when b (sendNotice m)).rings.cplPool = s.rings.cplPool := by
  cases b
  · rfl
  · exact (congrArg Rings.cplPool (sendNotice_rings m s)).trans rfl

theorem when_sendNotice_get (b : Bool) (s : State) {j : Nat} (h : j ≠ K.portFlitsSent 0) : (s.when b (sendNotice m)).get j = s.get j := by
  cases b
  · rfl
  · exact sendNotice_get m s h

theorem postEntry_of_vigil (h : s.mode = 5) : postEntry m c s = s := if_pos h

/-- Outside Vigil the completion goes to the slot at Base + Tail, with the ring's Phase, and to no other (R84, R85). -/
theorem postEntry_cplPool (h : s.mode ≠ 5) : (postEntry m c s).rings.cplPool
    = SMap.put 0 s.rings.cplPool (s.get (K.cringBase m) + s.get (K.cringTail m)) (withPhase c (s.flag (K.cringPhase m))) := by
  unfold postEntry
  rw [if_neg h]
  refine (when_sendNotice_cplPool _ _).trans ?_
  cases hwrap : decide (s.get (K.cringTail m) + 1 = s.cringSize m) <;> rfl

/-- Outside Vigil a post writes Tail and, at a wrap, Phase; its notice writes FlitsSent of the link, and no other object changes (R85 to R87). -/
theorem postEntry_get (h : s.mode ≠ 5) {j : Nat} (hj : j ≠ K.portFlitsSent 0) : (postEntry m c s).get j
    = if s.get (K.cringTail m) + 1 = s.cringSize m ∧ j = K.cringPhase m then (if s.flag (K.cringPhase m) then 0 else 1)
      else if j = K.cringTail m then (s.get (K.cringTail m) + 1) % s.cringSize m else s.get j := by
  unfold postEntry
  rw [if_neg h]
  refine (when_sendNotice_get _ _ hj).trans ?_
  by_cases hwrap : s.get (K.cringTail m) + 1 = s.cringSize m
  · simp only [hwrap, decide_true, State.when_true, true_and]
    exact (State.get_set ..).trans (by rw [State.get_set]; rfl)
  · simp only [hwrap, decide_false, State.when_false, false_and, if_false]
    exact State.get_set ..

theorem cringKey_ne_flitsSent {sub : Nat} (hs : sub < 256) : key (0xC000 + m) sub ≠ K.portFlitsSent 0 := by
  unfold K.portFlitsSent key
  omega

theorem postEntry_slot (h : s.mode ≠ 5) :
    SMap.getD (postEntry m c s).rings.cplPool (s.get (K.cringBase m) + s.get (K.cringTail m)) 0 = withPhase c (s.flag (K.cringPhase m)) := by
  rw [postEntry_cplPool h, SMap.getD_put_self]

theorem postEntry_tail (h : s.mode ≠ 5) :
    (postEntry m c s).get (K.cringTail m) = (s.get (K.cringTail m) + 1) % s.cringSize m := by
  rw [postEntry_get h (cringKey_ne_flitsSent (by decide)), if_neg (fun hp => key_ne_of_sub (by decide) hp.2), if_pos rfl]

/-- Phase toggles exactly where Tail wraps (R85). -/
theorem postEntry_phase (h : s.mode ≠ 5) : (postEntry m c s).get (K.cringPhase m)
    = if s.get (K.cringTail m) + 1 = s.cringSize m then (if s.flag (K.cringPhase m) then 0 else 1) else s.get (K.cringPhase m) := by
  have htail : K.cringPhase m ≠ K.cringTail m := key_ne_of_sub (by decide)
  rw [postEntry_get h (cringKey_ne_flitsSent (by decide)), if_neg htail]
  simp only [and_true]

end

/-- Settles O10: the slot by what a post writes to the pool, the objects by what it leaves in each. -/
theorem postedCompletion : Obligations.PostedCompletion := by
  intro m c s
  refine ⟨postEntry_of_vigil, fun hmode _ => ⟨postEntry_slot hmode, fun a ha => ?_, postEntry_tail hmode, postEntry_phase hmode, ?_⟩⟩
  · rw [postEntry_cplPool hmode, SMap.getD_put_ne _ _ _ ha]
  · have htail : K.cringHead m ≠ K.cringTail m := key_ne_of_sub (by decide)
    rw [postEntry_get hmode (cringKey_ne_flitsSent (by decide)), if_neg (fun hp => key_ne_of_sub (by decide) hp.2), if_neg htail]

/-! ## Phase (R85) -/

/-- A completion ring that is enabled starts at Tail 0 with Phase 1 (R85, R111). -/
theorem cringEnableEffect_of_disabled {m : Nat} {s : State} (h : s.flag (K.cringEnable m) = false) :
    (cringEnableEffect m 1 s).get (K.cringPhase m) = 1 ∧ (cringEnableEffect m 1 s).get (K.cringTail m) = 0 := by
  have htail : K.cringTail m ≠ K.cringPhase m := key_ne_of_sub (by decide)
  unfold cringEnableEffect
  rw [h, if_neg (by decide), if_pos rfl]
  exact ⟨State.get_set_self .., (State.get_set_ne _ _ htail).trans (State.get_set_self ..)⟩

theorem ite_flag_eq_one_sub {s : State} {k : Nat} (h : s.get k ≤ 1) : (if s.flag k then 0 else 1) = 1 - s.get k := by
  obtain hzero | hone : s.get k = 0 ∨ s.get k = 1 := by omega
  · simp [State.flag, hzero]
  · simp [State.flag, hone]

/-- Settles O13: a post from the last slot wraps Tail and inverts Phase, one from an earlier slot does neither. -/
theorem completionPhase : Obligations.CompletionPhase := by
  intro m s _
  refine ⟨cringEnableEffect_of_disabled, fun c hmode hphase => ⟨fun hlast => ?_, fun hearlier => ?_, postEntry_slot hmode⟩⟩
  · have hpos : 0 < s.cringSize m := Nat.two_pow_pos _
    have hwrap : s.get (K.cringTail m) + 1 = s.cringSize m := by omega
    rw [postEntry_tail hmode, postEntry_phase hmode, hwrap, if_pos rfl, ite_flag_eq_one_sub hphase]
    exact ⟨Nat.mod_self _, rfl⟩
  · have hnext : s.get (K.cringTail m) + 1 < s.cringSize m := by omega
    rw [postEntry_tail hmode, postEntry_phase hmode, if_neg (Nat.ne_of_lt hnext)]
    exact ⟨Nat.mod_eq_of_lt hnext, rfl⟩

/-! ## The end of an operation (R84, R86, R88, R89, R432, R487) -/

section
variable {o : Op} {status moved detail : Nat} {s : State}

/-- The completion of an operation that ends now, as it waits to be posted. -/
def endedPost (o : Op) (status moved detail : Nat) (s : State) : HeldPost :=
  { op := o.seq, ring := o.ring,
    completion := completionBits 0 o.epoch o.ring o.slot (descCommandId o.desc) status o.ladder o.degraded o.unmapped o.staged moved detail,
    snap := decide (descOpcode o.desc = 2 ∨ descOpcode o.desc = 3), due := s.now + (if s.postDelayed o.ring then s.get K.postDelay else 0) }

theorem finishOp_eq : finishOp o status moved detail s = if s.postDue (endedPost o status moved detail s)
    then postReserved o.ring o.seq (endedPost o status moved detail s).completion s
    else s.modRings (fun r => { r with ops := mapIf (fun x => x.seq = o.seq) (fun x => { x with phase := .ended }) r.ops,
                                       heldPosts := r.heldPosts ++ [endedPost o status moved detail s] }) := rfl

theorem postDue_endedPost (hsnap : s.rings.snapHold = false ∨ (descOpcode o.desc ≠ 2 ∧ descOpcode o.desc ≠ 3))
    (hdelay : s.postDelayed o.ring = false) (hsent : s.writesUnsent o.seq = false) : s.postDue (endedPost o status moved detail s) = true := by
  obtain hsnap | hsnap := hsnap <;> simp [State.postDue, endedPost, hsnap, hdelay, hsent]

theorem postDue_of_writesUnsent (hunsent : s.writesUnsent o.seq = true) : s.postDue (endedPost o status moved detail s) = false := by
  simp [State.postDue, endedPost, hunsent]

/-- A change of operations that keeps each one's fetch number keeps the list of the numbers. -/
theorem map_seq_mapIf (p : Op → Bool) {f : Op → Op} (hf : ∀ o, (f o).seq = o.seq) (l : List Op) :
    (mapIf p f l).map (fun x => x.seq) = l.map (fun x => x.seq) := by
  unfold mapIf
  rw [List.map_map]
  refine List.map_congr_left (fun x _ => ?_)
  dsimp only [Function.comp]
  split
  · exact hf x
  · rfl

end

/-- Settles O11: the completion is due, or it is held for its data writes. -/
theorem finishedOperation : Obligations.FinishedOperation := by
  intro o status moved detail s
  refine ⟨fun hsnap hdelay hsent => ?_, fun hunsent => ?_⟩
  · rw [finishOp_eq, if_pos (postDue_endedPost hsnap hdelay hsent)]
    rfl
  · rw [finishOp_eq, if_neg (Bool.eq_false_iff.mp (postDue_of_writesUnsent hunsent))]
    exact ⟨rfl, map_seq_mapIf _ (f := fun x => { x with phase := .ended }) (fun _ => rfl) _, rfl⟩

/-! ## Notices, events and losses (R87, R190, R475) -/

theorem exec_notifyDelay_of_unnoticed {ring : Fin 4096} {s : State} (hcompletions : (SMap.find? s.rings.unnoticed ring).isSome = true)
    (henabled : s.flag (K.cringNotifyEnable ring) = true) : exec (.notifyDelay ring) s = .next (sendNotice ring s) :=
  congrArg Host.Outcome.next (if_pos ⟨hcompletions, henabled⟩)

theorem exec_eventCompletionPost_of_queued {ring : Fin 4096} {s : State} {r n arg : Nat}
    (hqueued : List.find? (fun (e : Nat × Nat × Nat) => decide (e.1 = ring.val)) s.ev.queue = some (r, n, arg))
    (henabled : s.flag (K.cringEnable ring) = true) (hfree : 0 < s.cringFree ring) (hmode : s.mode ≠ 5) :
    exec (.eventCompletionPost ring) s = .next (postEntry ring
      (completionBits 2 0 0 0 0 0 0 false false false 0 (eventDetail n (SMap.getD s.ev.coalesced n 0) arg))
      ((s.modEv (fun e => { e with queue := e.queue.filter (fun x => x.2.1 ≠ n), coalesced := SMap.erase e.coalesced n })).set
        (K.evPending n) 0)) := by
  simp only [exec, execEventCompletionPost, hqueued]
  exact congrArg Host.Outcome.next (if_pos ⟨henabled, hfree, hmode⟩)

theorem exec_lossNotice_of_durable {s : State} {r : LossRec} (hnext : List.find? (fun (r : LossRec) => !r.noticed) s.nv.losses = some r)
    (hdurable : r.durable = true) (henabled : s.flag (K.cringEnable (s.get K.lossNoticeRing)) = true)
    (hfree : 0 < s.cringFree (s.get K.lossNoticeRing)) (hmode : s.mode ≠ 5) :
    exec .lossNotice s = .next (postEntry (s.get K.lossNoticeRing)
      (completionBits 3 0 0 0 0 3 5 false false false (4096 * (r.ranges.map (fun e => e.2)).sum) r.number)
      (s.modNv (fun v => { v with losses := mapIf (fun x => x.number = r.number) (fun x => { x with noticed := true }) v.losses }))) := by
  simp only [exec, execLossNotice, hnext]
  exact congrArg Host.Outcome.next (if_pos ⟨hdurable, henabled, hfree, hmode⟩)

/-- Settles O12: one lemma per command. -/
theorem noticesOfCompletions : Obligations.NoticesOfCompletions :=
  ⟨fun _ _ => exec_notifyDelay_of_unnoticed, fun _ _ _ _ _ => exec_eventCompletionPost_of_queued, fun _ _ => exec_lossNotice_of_durable⟩

end Sys2Proof.Machine
end

section
/-! SUPPORT. Proofs of the ring family (03_rings.md), part 3: doorbells, descriptor fetch, the opcodes that need no other unit,
migrations, aborts, and the command objects of rings. -/

namespace Sys2Proof.Machine

/-! ## Doorbells (R32, R77, R103, R358, R434) -/

section
variable {head : Bool} {n v : Nat} {s : State}

/-- While descriptors are fetched a doorbell is acted upon at once, and cancels a power request that waits (R77, R358). -/
theorem doorbell_of_fetches (h : s.fetches = true) :
    doorbell head n v s = if head then actHeadDoorbell n v s.awake else actSubDoorbell n v s.awake := if_pos h

/-- Where descriptors are not fetched but will be, a doorbell is held (R32, R434). -/
theorem doorbell_of_held (h : s.fetches = false) (hlater : s.mode = 1 ∨ s.serving = true) :
    doorbell head n v s = s.awake.modRings (fun r => { r with held := r.held ++ [(head, n, v)] }) :=
  (if_neg (Bool.eq_false_iff.mp h)).trans (if_pos hlater)

/-- In Cold and in Vigil a doorbell does no more than cancel a power request (R358; log entry 159). -/
theorem doorbell_of_dark (h : s.mode = 0 ∨ s.mode = 5) : doorbell head n v s = s.awake := by
  have hserving : s.serving = false := by
    obtain h | h := h <;> simp [State.serving, h]
  have hfetches : ¬ s.fetches = true := by simp [State.fetches, hserving]
  have hlater : ¬ (s.mode = 1 ∨ s.serving = true) := not_or.mpr ⟨by omega, by simp [hserving]⟩
  exact (if_neg hfetches).trans (if_neg hlater)

/-- Descriptors are fetched neither in Bringup nor while a board reset has stopped them (R32, R434). -/
theorem fetches_of_held (h : s.mode = 1 ∨ s.serving = true ∧ s.rings.stopped = true) : s.fetches = false := by
  obtain h | ⟨-, h⟩ := h
  · simp [State.fetches, serving_of_bringup h]
  · simp [State.fetches, h]

theorem actSubDoorbell_of_ok (h : s.subDoorbellOk n v = true) : actSubDoorbell n v s = s.set (K.ringTail n) v := by
  rw [actSubDoorbell, h, State.when_true]

theorem actSubDoorbell_of_not_ok (h : s.subDoorbellOk n v = false) : actSubDoorbell n v s = s := by
  rw [actSubDoorbell, h, State.when_false]

theorem actHeadDoorbell_of_ok (h : s.headDoorbellOk n v = true) :
    actHeadDoorbell n v s = reserveForMigrations n (s.set (K.cringHead n) v) := by
  rw [actHeadDoorbell, h, State.when_true]

theorem actHeadDoorbell_of_not_ok (h : s.headDoorbellOk n v = false) : actHeadDoorbell n v s = s := by
  rw [actHeadDoorbell, h, State.when_false]

end

/-- Settles O6: the value accepted and the value refused while descriptors are fetched, and the doorbell in the other modes. -/
theorem submissionDoorbell : Obligations.SubmissionDoorbell := by
  intro n v s
  refine ⟨fun hfetches hhost henabled hsize hunfetched => congrArg Host.Outcome.next ?accepted,
    fun hfetches hbad => congrArg Host.Outcome.next ?refused, fun hlater => congrArg Host.Outcome.next ?held,
    fun hdark => congrArg Host.Outcome.next (doorbell_of_dark hdark)⟩
  case accepted =>
    have hok : s.awake.subDoorbellOk n v.toNat = true := by
      show s.subDoorbellOk n v.toNat = true
      simp [State.subDoorbellOk, hhost, henabled, hsize, hunfetched]
    exact (doorbell_of_fetches hfetches).trans (actSubDoorbell_of_ok hok)
  case refused => exact (doorbell_of_fetches hfetches).trans (actSubDoorbell_of_not_ok hbad)
  case held => exact doorbell_of_held (fetches_of_held hlater) (hlater.imp_right And.left)

/-! ### Reservation for a migration (R103) -/

/-- A migration that waits for a slot of a ring writes Reserved of that ring and no other object. -/
theorem reserveForMigrations_get (m : Nat) (s : State) {j : Nat} (hj : j ≠ K.cringReserved m) : (reserveForMigrations m s).get j = s.get j := by
  refine over_keeps (fun s => s.get j) _ (fun s g => ?_) _ s
  dsimp only
  split
  · exact State.get_set_ne _ _ hj
  · rfl

/-- It leaves the pools and the operations. -/
theorem reserveForMigrations_pools (m : Nat) (s : State) :
    (reserveForMigrations m s).rings.cplPool = s.rings.cplPool ∧ (reserveForMigrations m s).rings.subPool = s.rings.subPool ∧
    (reserveForMigrations m s).rings.ops = s.rings.ops := by
  have hkeeps : ((reserveForMigrations m s).rings.cplPool, (reserveForMigrations m s).rings.subPool, (reserveForMigrations m s).rings.ops)
      = (s.rings.cplPool, s.rings.subPool, s.rings.ops) := by
    refine over_keeps (fun s => (s.rings.cplPool, s.rings.subPool, s.rings.ops)) _ (fun s g => ?_) _ s
    dsimp only
    split <;> rfl
  simpa only [Prod.mk.injEq] using hkeeps

/-- Settles O7: an accepted value is written before a migration may reserve a slot. -/
theorem completionHeadDoorbell : Obligations.CompletionHeadDoorbell := by
  intro m v s
  refine ⟨fun hfetches hok => ⟨_, congrArg Host.Outcome.next ((doorbell_of_fetches hfetches).trans (actHeadDoorbell_of_ok hok)), ?_⟩,
    fun hfetches hbad => congrArg Host.Outcome.next ((doorbell_of_fetches hfetches).trans (actHeadDoorbell_of_not_ok hbad))⟩
  have hget {j : Nat} (hj : j ≠ K.cringReserved m) := reserveForMigrations_get m (s.awake.set (K.cringHead m) v.toNat) hj
  obtain ⟨hcpl, hsub, hops⟩ := reserveForMigrations_pools m (s.awake.set (K.cringHead m) v.toNat)
  refine ⟨?head, ?tail, ?phase, hcpl, hsub, hops, ?win⟩
  case head => exact (hget (key_ne_of_sub (by decide))).trans (State.get_set_self ..)
  case tail => exact (hget (key_ne_of_sub (by decide))).trans (State.get_set_ne _ _ (key_ne_of_sub (by decide)))
  case phase => exact (hget (key_ne_of_sub (by decide))).trans (State.get_set_ne _ _ (key_ne_of_sub (by decide)))
  case win => exact win_of_carried (by simp [State.awake])

/-! ## What the checks of a descriptor read (R93) -/

/-- Keys that a fetch cannot write: those below the ring objects, and of a ring every key but Head, Tail, Reserved and InFlight (R95). -/
def fetchKeeps (j : Nat) : Prop := j / 256 < 0xA000 ∨ (j % 256 ≠ 9 ∧ j % 256 ≠ 10 ∧ j % 256 ≠ 12)

theorem fetchKeeps_of_index {idx sub : Nat} (hi : idx < 0xA000) (hs : sub < 256) : fetchKeeps (key idx sub) :=
  .inl (by rw [key_div hs]; exact hi)

theorem fetchKeeps_of_sub {idx sub : Nat} (h : sub < 9) : fetchKeeps (key idx sub) := by
  refine .inr ?_
  unfold key
  omega

theorem not_fetchKeeps {idx sub : Nat} (hi : 0xA000 ≤ idx) (hs : sub = 9 ∨ sub = 10 ∨ sub = 12) : ¬ fetchKeeps (key idx sub) := by
  unfold fetchKeeps key
  omega

section
variable {s t : State} (h : ∀ j, fetchKeeps j → t.get j = s.get j)
include h

theorem State.fitted_congr (c d : Nat) : t.fitted c d = s.fitted c d := by
  unfold State.fitted
  rw [h _ (fetchKeeps_of_sub (by decide))]

theorem State.density_congr : t.density = s.density := by
  have hfitted (c : Nat) : t.get (K.chDiesFitted c) = s.get (K.chDiesFitted c) := h _ (fetchKeeps_of_sub (by decide))
  have hdensity (c : Nat) : t.get (K.chDieDensity c) = s.get (K.chDieDensity c) := h _ (fetchKeeps_of_sub (by decide))
  simp only [State.density, hfitted, hdensity]

theorem State.pmaOutside_congr (p : Nat) : t.pmaOutside p = s.pmaOutside p := by
  have hdevice : t.get K.deviceNumber = s.get K.deviceNumber := h _ (fetchKeeps_of_sub (by decide))
  have hblocks : t.blocksPerPlane = s.blocksPerPlane := by rw [State.blocksPerPlane, State.density_congr h, State.blocksPerPlane]
  simp only [State.pmaOutside, State.fitted_congr h, hblocks, hdevice]

theorem State.rawAllowed_congr {c d : Nat} (hc : c < 128) (hd : d < 16) : t.rawAllowed c d = s.rawAllowed c d := by
  have hchannel : t.get (K.chState c) = s.get (K.chState c) := h _ (fetchKeeps_of_sub (by decide))
  have hdie : t.get (K.chDieState c d) = s.get (K.chDieState c d) := h _ (fetchKeeps_of_index (by omega) (by omega))
  simp only [State.rawAllowed, hchannel, hdie]

theorem State.lbaOk_congr (set lba count : Nat) : t.lbaOk set lba count = s.lbaOk set lba count := by
  have hunits : t.get (K.setLogicalUnits set) = s.get (K.setLogicalUnits set) := h _ (fetchKeeps_of_sub (by decide))
  simp only [State.lbaOk, hunits]

theorem State.placementOk_congr (v : Nat) : t.placementOk v = s.placementOk v := by
  have hset : t.get (K.setState (plSet v)) = s.get (K.setState (plSet v)) := h _ (fetchKeeps_of_sub (by decide))
  simp only [State.placementOk, hset, State.fitted_congr h]

theorem State.descOk_congr (pl : Nat) (d : Descriptor) : t.descOk pl d = s.descOk pl d := by
  have hraw : t.rawAllowed (plCh pl) (plDie pl) = s.rawAllowed (plCh pl) (plDie pl) :=
    State.rawAllowed_congr h (Nat.mod_lt _ (by decide)) (Nat.mod_lt _ (by decide))
  simp only [State.descOk, State.pmaOutside_congr h, State.lbaOk_congr h, State.placementOk_congr h, hraw]

/-- Whether a descriptor is acted upon rests on nothing that a fetch writes. -/
theorem State.acts_congr (hplace : t.rings.noPlace = s.rings.noPlace) (o : Op) : t.acts o = s.acts o := by
  have hplacement : t.get (K.ringPlacement o.ring) = s.get (K.ringPlacement o.ring) := h _ (fetchKeeps_of_sub (by decide))
  simp only [State.acts, hplacement, hplace, State.descOk_congr h]

end

/-! ## Descriptor fetch (R95) -/

/-- The operation that a fetch from a ring enters where no Barrier holds its descriptor (R95). -/
def fetchedOp (n : Nat) (s : State) : Op :=
  let d := SMap.getD s.rings.subPool (s.get (K.ringBase n) + s.get (K.ringHead n)) 0
  { ring := n, slot := s.get (K.ringHead n), epoch := s.get (K.ringEpoch n), desc := d, phase := .ready, seq := s.rings.nextSeq, cls := s.classOf n,
    awaits := if descOpcode d = 4 then s.wr.unsettled.map (fun u => u.1) else [] }

/-- The state once a fetch has advanced Head, reserved its completion slot and entered its operation (R95 step 2). -/
def enterFetched (n : Nat) (o : Op) (s : State) : State :=
  (((s.set (K.ringHead n) ((s.get (K.ringHead n) + 1) % s.ringSize n)).inc (K.cringReserved (s.get (K.ringCompletionRing n)))).inc
    (K.ringInFlight n)).modRings (fun r => { r with ops := r.ops ++ [o], nextSeq := r.nextSeq + 1 })

theorem State.get_inc (s : State) (k j : Nat) : (s.inc k).get j = if j = k then s.get k + 1 else s.get j := State.get_set ..

/-- A fetch writes Head and InFlight of its ring and Reserved of its completion ring, and no other object (R95). -/
theorem enterFetched_get (n : Nat) (o : Op) (s : State) {j : Nat} (hhead : j ≠ K.ringHead n)
    (hreserved : j ≠ K.cringReserved (s.get (K.ringCompletionRing n))) (hflight : j ≠ K.ringInFlight n) :
    (enterFetched n o s).get j = s.get j := by
  unfold enterFetched
  rw [State.modRings_get, State.get_inc, if_neg hflight, State.get_inc, if_neg hreserved, State.get_set_ne _ _ hhead]

theorem enterFetched_acts (n : Nat) (o : Op) (s : State) : (enterFetched n o s).acts o = s.acts o := by
  refine State.acts_congr (s := s) (t := enterFetched n o s) (fun j hj => ?_) rfl o
  refine enterFetched_get n o s ?_ ?_ ?_ <;> rintro rfl <;> exact not_fetchKeeps (by omega) (by decide) hj

/-- A descriptor without a Barrier that passes its checks is entered as fetched (R93, R95). -/
theorem fetchFrom_of_acts {n : Nat} {s : State}
    (hbarrier : descBarrier (SMap.getD s.rings.subPool (s.get (K.ringBase n) + s.get (K.ringHead n)) 0) = false)
    (hacts : s.acts (fetchedOp n s) = true) : fetchFrom n s = enterFetched n (fetchedOp n s) s := by
  unfold fetchFrom
  extract_lets head d earlier barrier m awaits o t u r v
  have hfree : barrier = false := by simp only [barrier, d, head, hbarrier, Bool.false_and]
  have ho : o = fetchedOp n s := by
    simp only [o, hfree]
    rfl
  have hv : v = u.modRings (fun r => { r with ops := r.ops ++ [o], nextSeq := r.nextSeq + 1 }) := rfl
  have hu : u.modRings (fun r => { r with ops := r.ops ++ [o], nextSeq := r.nextSeq + 1 }) = enterFetched n o s := rfl
  rw [hv, hu, ho, hfree, enterFetched_acts, hacts]
  exact if_neg (by decide)

theorem exec_descriptorFetch_of_picked {s u w : State} {n : Nat} (hfetches : s.fetches = true) (hpick : pickRing s = some (n, u))
    (hgo : pickRefused n u = (false, w)) : exec .descriptorFetch s = .next (fetchFrom n w) := by
  simp only [exec, execDescriptorFetch, hfetches, hpick, hgo, Bool.not_true, Bool.false_eq_true, if_false]

/-- Settles O8: a fetch that is acted upon enters its operation, and nothing else of what is named changes. -/
theorem fetchedDescriptor : Obligations.FetchedDescriptor := by
  refine ⟨fun s u w n => exec_descriptorFetch_of_picked, ?_⟩
  intro n s d hdesc hbarrier hacts hn hm
  subst hdesc
  rw [fetchFrom_of_acts hbarrier (hacts _ rfl rfl)]
  have hheadReserved : K.ringHead n ≠ K.cringReserved (s.get (K.ringCompletionRing n)) := by
    unfold K.ringHead K.cringReserved key
    omega
  have hflightReserved : K.ringInFlight n ≠ K.cringReserved (s.get (K.ringCompletionRing n)) := by
    unfold K.ringInFlight K.cringReserved key
    omega
  have hheadFlight : K.ringHead n ≠ K.ringInFlight n := key_ne_of_sub (by decide)
  refine ⟨?head, ?reserved, ?flight, ⟨fetchedOp n s, rfl, rfl, rfl, rfl, rfl, rfl⟩, rfl, rfl, rfl⟩
  all_goals
    unfold enterFetched
    rw [State.modRings_get]
  case head => rw [State.get_inc, if_neg hheadFlight, State.get_inc, if_neg hheadReserved, State.get_set_self]
  case reserved =>
    rw [State.get_inc, if_neg hflightReserved.symm, State.get_inc, if_pos rfl, State.get_set_ne _ _ hheadReserved.symm]
  case flight =>
    rw [State.get_inc, if_pos rfl, State.get_inc, if_neg hflightReserved, State.get_set_ne _ _ hheadFlight.symm]

/-! ## NOP, FENCE, FLUSH and Barriers (R80, R82, R97, R101, R128) -/

section
variable {ring : Fin 8192} {slot : Fin 65536} {s : State} {o : Op}

theorem exec_nop_of_ready (hready : s.readyOp ring slot 0x00 = some o) : exec (.nop ring slot) s = .next (finishOp o 0 0 0 s) := by
  simp only [exec, execNop, hready]

theorem exec_fence_of_ready (hready : s.readyOp ring slot 0x20 = some o) :
    exec (.fence ring slot) s = .next (s.modOp ring slot (fun o => { o with phase := .issued })) := by
  simp only [exec, execFence, hready]

/-- A FENCE completes behind every earlier descriptor of its ring, with the earlier host stores visible (R101). -/
theorem exec_fenceComplete_of_first (hop : s.op ring slot = some o) (hcode : descOpcode o.desc = 0x20) (hissued : o.phase = .issued)
    (hfirst : s.rings.ops.any (fun e => e.ring = o.ring && decide (e.seq < o.seq)) = false) :
    exec (.fenceComplete ring slot) s = .next (finishOp o 0 0 0 (drainStores s)) := by
  simp only [exec, execFenceComplete, hop]
  exact congrArg Host.Outcome.next (if_pos ⟨hcode, hissued, hfirst⟩)

/-- A FLUSH waits on the set of its ring's placement (R82). -/
theorem exec_flush_of_ready (hready : s.readyOp ring slot 0x04 = some o) :
    exec (.flush ring slot) s = .next ((s.modOp ring slot (fun o => { o with phase := .issued })).modSet
      (plSet (s.get (K.ringPlacement o.ring))) (fun t => { t with flushes := t.flushes ++ [(o.ring, o.slot)] })) := by
  simp only [exec, execFlush, hready, State.modOp_get]

/-- A FLUSH whose WRITEs have settled completes, with the open row of its set closed where it holds units and there is room (R82, R128). -/
theorem exec_flushSettled_of_settled (hop : s.op ring slot = some o) (hcode : descOpcode o.desc = 0x04) (hissued : o.phase = .issued)
    (hsettled : s.flushAwaits o = false) :
    exec (.flushSettled ring slot) s = .next (
      let set := plSet (s.get (K.ringPlacement o.ring))
      let u := if (s.takingRow set).any (fun e => decide (e.1.taken ≠ 0)) = true ∧ s.closeRoom = true then closeEarly none set s else s
      finishOp o 0 0 0 (u.modSet set (fun t => { t with flushes := t.flushes.filter (fun f => f ≠ (o.ring, o.slot)) }))) := by
  simp only [exec, execFlushSettled, hop]
  exact congrArg Host.Outcome.next (if_pos ⟨hcode, hissued, hsettled⟩)

/-- A Barrier with no earlier descriptor of its ring left is issued, and its checks are made then (R93, R97). -/
theorem exec_barrierRelease_of_first (hop : s.op ring slot = some o) (hbarrier : o.phase = .barrier)
    (hfirst : s.rings.ops.any (fun e => e.ring = o.ring && decide (e.seq < o.seq)) = false) :
    exec (.barrierRelease ring slot) s = .next
      (let u := s.modOp ring slot (fun o => { o with phase := .ready })
       if u.acts o then u else refuseOp o u) := by
  simp only [exec, execBarrierRelease, hop]
  exact congrArg Host.Outcome.next (if_pos ⟨hbarrier, hfirst⟩)

end

/-- Settles O9: one lemma per command. -/
theorem simpleOpcodes : Obligations.SimpleOpcodes := fun _ _ _ _ =>
  ⟨exec_nop_of_ready, exec_fence_of_ready, exec_fenceComplete_of_first, exec_flush_of_ready, exec_flushSettled_of_settled,
    exec_barrierRelease_of_first⟩

/-! ## Migrations and aborts (R103, R106, R107, R213) -/

section
variable {ring : Fin 8192} {slot : Fin 65536} {s : State}

/-- A ready MIGRATE of a ring without a migration starts one, to the fields of the placement that it names (R71, R103). -/
theorem exec_migrate_of_ready {o : Op} (hready : s.readyOp ring slot 0x21 = some o)
    (hnone : s.rings.migrations.any (fun g => decide (g.ring = ring.val)) = false) :
    exec (.migrate ring slot) s = .next (startMigration ring (some slot.val) (descDuo o.desc 2 / 2 ^ 24 * 2 ^ 24)
      (s.modOp ring slot (fun o => { o with phase := .issued }))) := by
  simp only [exec, execMigrate, hready, hnone, Bool.false_eq_true, if_false]

/-- A migration ends with no operation of the old epoch left and its slot reserved (R103). -/
theorem exec_migrationDone_of_reserved {g : Migration}
    (hruns : List.find? (fun (g : Migration) => decide (g.ring = ring.val)) s.rings.migrations = some g)
    (hepoch : s.epochRuns g = false) (hreserved : g.reserved = true) : exec (.migrationDone ring) s = .next (finishMigration g s) := by
  simp only [exec, execMigrationDone, hruns, hepoch, hreserved, Bool.not_true, Bool.or_self, Bool.false_eq_true, if_false]

/-- A ready ABORT starts an abort of the scope that its duo 2 names; a scope without a target takes 0 (R106). -/
theorem abortDescriptor_of_ready {o : Op} {scope : Nat} (hready : s.readyOp ring slot 0x22 = some o) (hscope : descDuo o.desc 2 / 2 ^ 38 = scope) :
    abortDescriptor ring slot scope s = startAbort scope
      (if scope = 0 then descDuo o.desc 2 % 8192 else if scope = 1 then descDuo o.desc 2 % 128 else 0) (some (ring, slot)) s := by
  simp only [abortDescriptor, hready, if_pos hscope]

/-- An abort ends once its rings are drained and all that it cut short has ended (R107). -/
theorem exec_abortComplete_of_done {i : Nat} {a : Abort} (habort : (abortDrain i s).rings.aborts[i]? = some a)
    (hdone : (abortDrain i s).abortDone a = true) : exec (.abortComplete i) s = .next (endAbort i a (abortDrain i s)) := by
  simp only [exec, execAbortComplete, habort, hdone, Bool.not_true, Bool.false_eq_true, if_false]

end

/-- Settles O21: one lemma per command; the four aborts differ in their scope. -/
theorem ringScopeCommands : Obligations.RingScopeCommands := by
  intro ring slot s
  refine ⟨fun o => exec_migrate_of_ready, fun g => exec_migrationDone_of_reserved, fun o v hready hv => ?_, fun i a => exec_abortComplete_of_done⟩
  subst hv
  have habort {scope : Nat} (h : descDuo o.desc 2 / 2 ^ 38 = scope) :=
    congrArg (Host.Outcome.next : State → Res) (abortDescriptor_of_ready hready h)
  exact ⟨fun h => habort h, fun h => habort h, fun h => habort h, fun h => habort h⟩

/-! ## Command objects of rings (R106, R111) -/

section
variable {s t : State} {p : Path} {idx sub inst : Nat} {v : Word} {r : ObjRow}

/-- A write of one word to an object of a ring is answered after its effect, and nothing follows the response (R49). -/
theorem serve_write_ringObject (tag : BitVec 8) (hm : s.awake.mayWrite p idx sub v.toNat = true) (ho : objAt idx sub = some (inst, r))
    (hi : 0xA000 ≤ idx ∧ idx < 0xD000) (hs : sub < 256) (hty : r.ty = .bool) (heff : writeObj p idx sub inst r v.toNat s.awake = t) :
    serve p 1 (oneHeader tag idx sub 1) [v] s = respond p 1 (oneHeader tag idx sub 1) [] t := by
  have hcode : r.ty.code = 1 := by rw [hty]; rfl
  rw [← wordsNat_one v] at hm heff
  rw [serve_write_one tag hm ho (by omega) hs hcode (by decide) (ObjRow.wordwise_eq_false (by omega)) rfl, if_neg (by omega), if_neg (by omega),
    afterEffect_none _ _ _ _ (by omega) (by omega) (by omega), heff]

/-- Enable of a ring takes no value of its own: its effect sets it (R111). -/
theorem writeObj_enable (p : Path) (inst v : Nat) (s : State) (hacc : r.acc = .rw) (hi : 0xA000 ≤ idx ∧ idx < 0xD000) :
    writeObj p idx 1 inst r v s = writeEffect p idx 1 inst (v &&& r.keep) s := by
  have hself : selfSet idx 1 = true := by simp [selfSet, hi]
  have hpepper : ¬ 0xE010 ≤ idx := by omega
  simp [writeObj, hacc, hself, hpepper, State.when]

end

theorem boolWord_toNat (v : Bool) : (boolWord v).toNat = if v then 1 else 0 := by cases v <;> rfl

theorem boolWord_and_allOnes40 (v : Bool) : (boolWord v).toNat &&& allOnes40 = if v then 1 else 0 := by cases v <;> rfl

theorem objAt_ringEnable (n : Fin 8192) :
    objAt (0xA000 + n.val) 1 = some (n.val, ⟨"Enable", 1, 1, .bool, .rw, 9, .lit 0, .full, allOnes40, 1⟩) := objAt_ring n (by decide) rfl

theorem objAt_cringEnable (m : Fin 4096) :
    objAt (0xC000 + m.val) 1 = some (m.val, ⟨"Enable", 1, 1, .bool, .rw, 9, .lit 0, .full, allOnes40, 1⟩) := objAt_cring m (by decide) rfl

theorem objAt_abortRing (n : Fin 8192) :
    objAt (0xA000 + n.val) 14 = some (n.val, ⟨"AbortRing", 14, 14, .bool, .wo, 11, .lit 0, .full, allOnes40, 1⟩) := objAt_ring n (by decide) rfl

theorem writeEffect_ringEnable (p : Path) (n : Fin 8192) (v : Nat) (s : State) :
    writeEffect p (0xA000 + n.val) 1 n v s = ringEnableEffect n v s := writeEffect_ring p 1 n v s (by omega) (by omega)

theorem writeEffect_cringEnable (p : Path) (m : Fin 4096) (v : Nat) (s : State) :
    writeEffect p (0xC000 + m.val) 1 m v s = cringEnableEffect m v s := writeEffect_cring p 1 m v s (by omega) (by omega)

theorem writeEffect_abortRing (p : Path) (n : Fin 8192) (s : State) : writeEffect p (0xA000 + n.val) 14 n 1 s = abortRingEffect n s :=
  writeEffect_ring p 14 n 1 s (by omega) (by omega)

/-- Settles O51: each is a write of one element; Enable is set by its effect, and AbortRing is write-only. -/
theorem ringObjects : Obligations.RingObjects := by
  intro p tag s
  refine ⟨fun n v hm => congrArg Host.Outcome.next ?ring, fun m v hm => congrArg Host.Outcome.next ?cring,
    fun n hm => congrArg Host.Outcome.next ?abort⟩
  case ring =>
    refine serve_write_ringObject tag (boolWord_toNat v ▸ hm) (objAt_ringEnable n) (by omega) (by decide) rfl ?_
    rw [writeObj_enable p n _ s.awake rfl (by omega), boolWord_and_allOnes40, writeEffect_ringEnable]
  case cring =>
    refine serve_write_ringObject tag (boolWord_toNat v ▸ hm) (objAt_cringEnable m) (by omega) (by decide) rfl ?_
    rw [writeObj_enable p m _ s.awake rfl (by omega), boolWord_and_allOnes40, writeEffect_cringEnable]
  case abort =>
    refine serve_write_ringObject (v := 1) tag hm (objAt_abortRing n) (by omega) (by decide) rfl ?_
    exact (writeObj_wo p _ _ n _ s.awake rfl).trans (writeEffect_abortRing p n s.awake)

end Sys2Proof.Machine
end

section
/-! SUPPORT. Proofs of the ring family (03_rings.md), part 4: a trimmed unit. -/

namespace Sys2Proof

variable {α : Type}

theorem SMap.mem_of_find? {m : SMap α} {k : Nat} {v : α} (h : SMap.find? m k = some v) : (k, v) ∈ m := by
  induction m with
  | nil => cases h
  | cons e r ih =>
    obtain ⟨j, w⟩ := e
    simp only [SMap.find?] at h
    split at h
    · next hj =>
      cases h
      exact hj ▸ List.mem_cons_self
    · exact List.mem_cons_of_mem _ (ih h)

theorem SMap.mem_insert_self (m : SMap α) (k : Nat) (v : α) : (k, v) ∈ SMap.insert m k v :=
  SMap.mem_of_find? (SMap.find?_insert_self m k v)

end Sys2Proof

namespace Sys2Proof.Machine

/-! ## Trimmed units (R83, R123 to R125) -/

/-! ### What leaves the write path as it was -/

@[simp] theorem State.report_wr (s : State) (k v : Nat) : (s.report k v).wr = s.wr := by
  unfold State.report
  split <;> rfl

@[simp] theorem changeMode_wr (m : Nat) (s : State) : (changeMode m s).wr = s.wr :=
  (occur_wr ..).trans (State.report_wr s K.deviceMode m)

@[simp] theorem deriveMode_wr (s : State) : (deriveMode s).wr = s.wr := by
  unfold deriveMode
  split
  · dsimp only
    split
    · rfl
    · exact changeMode_wr _ _
  · rfl

@[simp] theorem setNoted_wr (set : Nat) (s : State) : (setNoted set s).wr = s.wr := occur_wr ..

@[simp] theorem setChanged_wr (set : Nat) (s : State) : (setChanged set s).wr = s.wr := (deriveMode_wr _).trans (setNoted_wr set s)

@[simp] theorem updateProtection_wr (set : Nat) (s : State) : (updateProtection set s).wr = s.wr := by
  refine (deriveMode_wr _).trans ?_
  unfold noteProtection
  dsimp only
  split
  · rfl
  · exact setNoted_wr _ _

@[simp] theorem blockEmptied_wr (set pma : Nat) (s : State) : (blockEmptied set pma s).wr = s.wr := by
  unfold blockEmptied State.when
  split
  · exact updateProtection_wr set s
  · rfl

@[simp] theorem updateStalled_wr (set : Nat) (s : State) : (updateStalled set s).wr = s.wr := by
  unfold updateStalled
  split
  · rfl
  · extract_lets v
    split
    · rfl
    · exact setChanged_wr set _

@[simp] theorem slcPlace_wr (c : Nat) (s : State) : (slcPlace c s).2.wr = s.wr := by
  unfold slcPlace
  dsimp only
  split
  · rfl
  · exact updateStalled_wr _ _

@[simp] theorem dramAccess_wr (cls : Nat) (write : Bool) (first n : Nat) (src : DramSrc) (s : State) :
    (dramAccess cls write first n src s).wr = s.wr := by
  unfold dramAccess
  extract_lets past first
  refine over_keeps State.wr _ (fun _ _ => ?_) _ s
  rfl

/-! ### The journal and the mapping table -/

theorem programJournalPage_journal (s : State) : (programJournalPage s).wr.journal = s.wr.journal := by
  unfold programJournalPage
  extract_lets first n chans ps t
  split
  · rfl
  · refine over_keeps (fun s => s.wr.journal) _ (fun s c => ?_) chans s
    exact congrArg WritePath.journal (slcPlace_wr c s)

/-- A record joins the journal under the next sequence number, also where it fills a page (R124, R125). -/
theorem mem_appendJournal (r : JRec) (s : State) : (s.get K.journalSequence, r) ∈ (appendJournal r s).wr.journal := by
  have hmem : (s.get K.journalSequence, r) ∈ SMap.insert s.wr.journal (s.get K.journalSequence) r := SMap.mem_insert_self ..
  unfold appendJournal State.when
  dsimp only
  split
  · rw [programJournalPage_journal]
    exact hmem
  · exact hmem

theorem setEntry_journal (set lui new : Nat) (s : State) : (setEntry set lui new s).wr.journal = s.wr.journal := by
  unfold setEntry
  extract_lets old t u v
  have ht : t.wr = s.wr := by
    unfold t
    split
    · exact blockEmptied_wr ..
    · rfl
  have hu : u.wr = t.wr := by
    unfold u
    split <;> rfl
  have hv : v.wr = u.wr := by
    unfold v
    split
    · exact dramAccess_wr ..
    · rfl
  show v.wr.journal = s.wr.journal
  rw [hv, hu, ht]

theorem entry_setEntry (set lui new : Nat) (s : State) : (setEntry set lui new s).entry set lui = new :=
  SMap.getD_put_self ..

/-- Settles O16: the entry is the last thing written, and the record that was appended before it stays in the journal. -/
theorem trimmedUnit : Obligations.TrimmedUnit := by
  intro set lui s
  have hcarried : (trimUnit set lui s).carried = s.carried := by simp [trimUnit]
  refine ⟨entry_setEntry set lui noLoc _, ?record, win_of_carried hcarried, pending_of_carried hcarried⟩
  case record =>
    unfold trimUnit
    rw [setEntry_journal]
    exact ⟨_, mem_appendJournal _ _, rfl, rfl, rfl⟩

end Sys2Proof.Machine
end
